-- ==== Sys2Proof/Word.lean ====
section
/-!
DEFINITION. The plain words of the module: the widths the spec fixes (R16, R47, R52, R56, R109, R138) and the
sparse table every numbered collection of the state is kept in.
-/
namespace Sys2Proof

/-- A byte of memory (R16). -/
abbrev Byte := BitVec 8
/-- A 32-bit scalar register or one vector lane (R52, R56). -/
abbrev Word := BitVec 32
/-- A 64-bit register or instruction word (R16, R47). -/
abbrev Dword := BitVec 64
/-- A scratchpad or staging line of 64 bytes; byte `k` is bits `8k+7:8k` (R109, R138). -/
abbrev Line := BitVec 512
/-- A vector register of 64 lanes; lane `j` is bits `32j+31:32j` (R56). -/
abbrev VReg := BitVec 2048

/-- A numbered collection of which almost every member is the default: pairs of number and value, the numbers
strictly rising and no value equal to the default. -/
abbrev Tab (α : Type) := List (Nat × α)

end Sys2Proof
end

