-- ==== Sys2Proof/Syntax.lean ====
section
/-!
DEFINITION. The commands: one constructor of `Instr` per row of the opcode table, and the plain data their
operands are made of.  A row that names a step of a unit names the unit; what the step works on stands in the
state (a tile's word at its program counter, a ring's next command, a port's next packet).
-/
namespace Sys2Proof

/-- Who makes a control-space access (R365): the physical function, a virtual function 1 to 16, a device of the
fabric listed in IRA_FM, or another fabric peer. -/
inductive Party where
  | pf
  | vf (f : Nat)
  | fm
  | peer
  deriving DecidableEq, Repr

/-- The ports of a router in the order of R142. -/
inductive Dir where
  | n | e | s | w | l
  deriving DecidableEq, Repr

/-- The border queues of a link (R146): that of a tile's partition-owned or transit-owned input on a side, or that of the
edge router's port opposite the side. -/
inductive BorderKind where
  | sched | transit | edge
  deriving DecidableEq, Repr

/-- The pipes of a tile (R46). -/
inductive PipeId where
  | bload (a : Nat)
  | mul (a g : Nat)
  | drain (a : Nat)
  | vmem
  | xout
  | xin
  deriving DecidableEq, Repr

/-- The general queues of R128. -/
inductive QueueId where
  | fault (r : Nat)
  | ox (site : Nat)
  | fabric (port : Nat)
  | cper
  | norm (p : Nat)
  deriving DecidableEq, Repr

/-- A node of the control network (R163, R167). -/
inductive NodeId where
  | hen (r : Nat)
  | tile (t : Nat)
  | site (x : Nat)
  | iod (d : Nat)
  | mc
  deriving DecidableEq, Repr

/-- A control-network token (R163): its header fields and its 96-bit payload. -/
structure Token where
  cls : BitVec 4
  kind : BitVec 4
  group : BitVec 12
  scope : BitVec 2
  src : BitVec 6
  part : BitVec 4
  pay : BitVec 96
  deriving DecidableEq, Repr

/-- An edge: an HBM site's or an I/O die's staging, ox and edge tables (R209, R211). -/
inductive EdgeId where
  | hbm (x : Nat)
  | iod (d : Nat)
  deriving DecidableEq, Repr

/-! ### What a load image says (R384, R385) -/

/-- A tile's program: R385 section 1. -/
structure ImgProgram where
  tile : Nat
  seed : Dword
  norm : Option Nat
  words : List Dword
  deriving DecidableEq, Repr

/-- An initial line of a tile: R385 section 2. -/
structure ImgLine where
  tile : Nat
  line : Nat
  data : Line
  deriving DecidableEq, Repr

/-- The partition-owned fields of one router: R385 section 3. -/
structure ImgSlots where
  tile : Nat
  first : Tab Dword
  second : Tab Dword
  period0 : Nat
  period1 : Nat
  slack : BitVec 32
  deriving DecidableEq, Repr

/-- A barrier group: R385 section 4. -/
structure ImgBarrier where
  group : Nat
  members : List Nat
  deriving DecidableEq, Repr

/-- An ox descriptor of 32 bytes (R212). -/
structure OxDesc where
  addr : Dword
  start : BitVec 32
  deadline : BitVec 32
  stageLine : BitVec 32
  lines : BitVec 32
  kind : Byte
  flags : Byte
  rsv : BitVec 48
  deriving DecidableEq, Repr

/-- One edge port's tables in an image (R210, R211). -/
structure ImgEdgePort where
  port : Nat
  first : Tab (BitVec 32)
  second : Tab (BitVec 32)
  period0 : Nat
  period1 : Nat
  step0 : Nat
  step1 : Nat
  deriving DecidableEq, Repr

/-- A share of an edge's staging with its descriptors: R385 section 5. -/
structure ImgShare where
  edge : EdgeId
  stageBase : Nat
  stageMib : Nat
  descBase : Nat
  descs : List OxDesc
  oxPeriod : Nat
  ports : List ImgEdgePort
  deriving DecidableEq, Repr

/-- A page claim: R385 section 6. The mode code is that of R218. -/
structure ImgWindow where
  page : Nat
  mode : BitVec 2
  deriving DecidableEq, Repr

/-- A collective operation descriptor of 64 bytes (R263). -/
structure ColDesc where
  kind : Byte
  rop : Byte
  fmtIn : Byte
  fmtOut : Byte
  rnd : Byte
  rsv0 : BitVec 24
  src : Dword
  srcScale : Dword
  dst : Dword
  dstScale : Dword
  count : BitVec 32
  start : BitVec 32
  period : BitVec 32
  windowUs : BitVec 16
  rsv1 : BitVec 16
  record : Dword
  deriving DecidableEq, Repr

/-- A collective channel of an image: R385 section 7 (R261). -/
structure ImgChannel where
  chan : Nat
  home : Nat
  rank : Nat
  ranks : List (Nat × Nat)
  seed : Dword
  seqBase : BitVec 32
  descs : List ColDesc
  deriving DecidableEq, Repr

/-- A phase table entry: estimate in 0.1 A and successors: R385 section 8. -/
structure ImgPhase where
  phase : Nat
  region : Nat
  estimate : Nat
  next : List Nat
  deriving DecidableEq, Repr

/-- A fallow table entry (R344): R385 section 9. -/
structure ImgFallow where
  region : Nat
  x0 : Nat
  y0 : Nat
  x1 : Nat
  y1 : Nat
  testLine : Nat
  router : Bool
  start : Nat
  period : Nat
  length : Nat
  deriving DecidableEq, Repr

/-- A fault policy, true for KILL, in the order TILE, MEMORY, TIMING, RESIDUE, CONTROL (R336). -/
structure ImgPolicy where
  tile : Bool
  memory : Bool
  timing : Bool
  residue : Bool
  control : Bool
  normPoints : List Nat
  normLimit : Word
  deriving DecidableEq, Repr

/-- An alternate table set (R352): R385 section 11. -/
structure ImgAlternate where
  avoids : List (Nat × Dir)
  slots : List ImgSlots
  deriving DecidableEq, Repr

/-- A section table entry (R384) with the section's bytes. -/
structure ImgSection where
  type : Nat
  flags : Nat
  offset : Nat
  length : Nat
  crc : BitVec 32
  bytes : List Byte
  deriving DecidableEq, Repr

/-- A load image: the header and table of R384 and what the sections say.  The spec fixes no byte layout of a
section's body, so the command gives the body's contents beside its bytes (log entry 6). -/
structure Image where
  magic : BitVec 32
  format : Nat
  level : Nat
  flags : Byte
  length : Nat
  nSections : Nat
  keyId : Nat
  rsv0 : Nat
  rect : Nat × Nat × Nat × Nat
  rsv1 : Nat
  build : Dword
  rsv2 : Nat
  table : List ImgSection
  covered : List Byte
  sign : List Byte
  programs : List ImgProgram
  scratch : List ImgLine
  slots : List ImgSlots
  barriers : List ImgBarrier
  shares : List ImgShare
  windows : List ImgWindow
  channels : List ImgChannel
  phases : List ImgPhase
  fallow : List ImgFallow
  stepStart : Nat
  stepPeriod : Nat
  policy : Option ImgPolicy
  alternates : List ImgAlternate
  ownSwaps : Bool
  deriving DecidableEq, Repr

/-! ### What bring-up finds -/

/-- A wire of a seam group (R294): west or south tile, direction of the link, direction of travel, group. -/
structure SeamGroup where
  tile : Nat
  northSouth : Bool
  toLower : Bool
  group : Nat
  deriving DecidableEq, Repr

/-- What stage 4 finds: per seam group the number of bad in-service wires and whether the spare is bad, and the
bad wires of the bridges as (bridge, DIR, wire) (R294, R295). -/
structure SeamFindings where
  groups : List (SeamGroup × Nat × Bool)
  wires : List (Nat × Nat × Nat)
  deriving DecidableEq, Repr

/-- The units that FAIL in stage 5 and the regions whose block trips (R296). -/
structure BistFindings where
  tiles : List Nat
  routers : List Nat
  hens : List Nat
  phases : List (Nat × Nat)
  hbmStaging : List Nat
  iodStaging : List Nat
  tripped : List Nat
  deriving DecidableEq, Repr

/-- What stage 7 finds: the capability words of R303 (west, east, then the fitted I/O dies by site), the rate each
fitted stack trained at, the segments and crossings that failed, the tick inputs that work as (region, input code,
measured delay of the hop in 50 ps units) (R188), the temperature of each driver of transmitters in °C (0 and 1 the
halves, 2 + d an I/O die, 6 + x a stack), the restore-mode links whose eye scan fails, as (kind, number) of R300, and the
peer each port expects, as (port, module serial, module port number) (R200, R299, R300, R304). -/
structure TrainFindings where
  west : Dword
  east : Dword
  iods : List (Nat × Dword)
  mbps : List (Nat × Nat)
  segments : List Nat
  northCrossing : Bool
  southCrossing : Bool
  ticks : List (Nat × Nat × Nat)
  temps : List (Nat × Int)
  eyeBad : List (Nat × Nat)
  peers : List (Nat × Dword × Nat)
  deriving DecidableEq, Repr

/-- What stage 8 finds: failing bridge wires (bridge, DIR, wire), I/O-to-half lanes (site, DIR, lane), ring segments,
stack channels (site, channel), which crossings qualified (R301), and the restore-mode links that failed at first and
were trained in full (R299). -/
structure QualFindings where
  wires : List (Nat × Nat × Nat)
  lanes : List (Nat × Nat × Nat)
  segments : List Nat
  channels : List (Nat × Nat)
  northCrossing : Bool
  southCrossing : Bool
  fell : List (Nat × Nat)
  deriving DecidableEq, Repr

/-- One error report of a stack (R206): the row and bank it names, and whether it was corrected. -/
structure EccReport where
  channel : Nat
  bank : Nat
  row : Nat
  corrected : Bool
  deriving DecidableEq, Repr

/-- What the budgeter measures for one interval (R308, R323, R325): fixed silicon power, the 1 ms and 10 ms input averages in
W, the busbar voltage in mV, and the ratio of silicon to input power as a fraction. -/
structure PowerMeas where
  fixedW : Nat
  etaNum : Nat
  etaDen : Nat
  inputW : Nat
  inputW10 : Nat
  busMv : Nat
  deriving DecidableEq, Repr

/-- What a hen measures for one telemetry frame and one interval (R332, R333). -/
structure TlmMeas where
  iAvg : Nat
  iPeak : Nat
  vMin : Nat
  pBlock : Nat
  tMax : BitVec 8
  tAvg : BitVec 8
  hot : Nat
  deriving DecidableEq, Repr

/-- The outcome of one tile's in-field test (R343, R348). -/
inductive TestOutcome where
  | pass
  | failA
  | failC
  | mismatch
  | refereeAgainst
  | refereeFor
  | noReferee
  deriving DecidableEq, Repr

/-- A wire or lane that reached its threshold (R351): a seam group of a link, a wire of a bridge row, or a lane of
an I/O-to-half direction. -/
inductive WireId where
  | seam (g : SeamGroup) (wire : Nat)
  | bridge (g dir wire : Nat)
  | iodLane (d dir lane : Nat)
  deriving DecidableEq, Repr

/-- What corrected a wire (R350, R351): the corrections counted at it, and how many of them fell in consecutive beats. -/
structure WireCorrections where
  wire : WireId
  n : Nat
  inRow : Nat
  deriving DecidableEq, Repr

/-- What the decoder of a lane finds in a codeword (R228, R259): the symbols it would correct, and the bits wrong in them. -/
structure CodeErrors where
  symbols : Nat
  bits : Nat
  deriving DecidableEq, Repr

/-- How a port's training ends (R255, R299): the port, and whether its eye scan passed. -/
structure PortTraining where
  port : Nat
  eyeOk : Bool
  deriving DecidableEq, Repr

/-- A region's current in A at a drop measurement, and its bounds over the preceding 100 µs (R316). -/
structure PhaseCurrent where
  amps : Nat
  low : Nat
  high : Nat
  deriving DecidableEq, Repr

/-- What a residue check compares (R339): the beat of the addition, the exact sum formed, and the residues modulo 7 carried
to it. -/
structure ResidueCheck where
  beat : Nat
  sum : Int
  carried : List Nat
  deriving DecidableEq, Repr

/-- A submission ring entry of R375 as the module fetches it. -/
structure SqEntry where
  opcode : Byte
  flags : Byte
  cid : BitVec 16
  window : Byte
  rsv0 : BitVec 24
  hostOff : Dword
  devOff : Dword
  length : BitVec 32
  arg : BitVec 32
  arg2 : Dword
  rsv1 : BitVec 184
  phase : Byte
  deriving DecidableEq, Repr

/-- A role of a requester key (R368). -/
inductive Role where
  | admin | tenant | fabric
  deriving DecidableEq, Repr

/-- The commands, in the order of the opcode table. -/
inductive Instr where
  /-- NOP (R52): Scalar NOP idles issue for IMM[15:0] further beats. -/
  | nop (t : Nat)
  /-- MOV (R52): Writes operand B to S[SD]. -/
  | mov (t : Nat)
  /-- ADD (R52): Writes S[SA] + B to S[SD], wrapping at 32 bits. -/
  | add (t : Nat)
  /-- SUB (R52): Writes S[SA] − B to S[SD], wrapping at 32 bits. -/
  | sub (t : Nat)
  /-- MUL (R52): Writes the low 32 bits of S[SA] × B to S[SD] with latency 3. -/
  | mul (t : Nat)
  /-- AND (R52): Writes the bitwise AND of S[SA] and B to S[SD]. -/
  | and (t : Nat)
  /-- OR (R52): Writes the bitwise OR of S[SA] and B to S[SD]. -/
  | or (t : Nat)
  /-- XOR (R52): Writes the bitwise XOR of S[SA] and B to S[SD]. -/
  | xor (t : Nat)
  /-- SHL (R52): Shifts S[SA] left by B[4:0] into S[SD]. -/
  | shl (t : Nat)
  /-- SHR (R52): Shifts S[SA] right logically by B[4:0] into S[SD]. -/
  | shr (t : Nat)
  /-- SRA (R52): Shifts S[SA] right arithmetically by B[4:0] into S[SD]. -/
  | sra (t : Nat)
  /-- MIN (R52): Writes the signed minimum of S[SA] and B to S[SD]. -/
  | min (t : Nat)
  /-- MAX (R52): Writes the signed maximum of S[SA] and B to S[SD]. -/
  | max (t : Nat)
  /-- CMPLT (R52): Writes 1 to S[SD] if S[SA] is signed-less than B, else 0. -/
  | cmplt (t : Nat)
  /-- CMPEQ (R52): Writes 1 to S[SD] if S[SA] equals B, else 0. -/
  | cmpeq (t : Nat)
  /-- CMPLTU (R52): Writes 1 to S[SD] if S[SA] is unsigned-less than B, else 0. -/
  | cmpltu (t : Nat)
  /-- LDS (R52): Loads a 32-bit scratchpad word at byte S[SA] + IMM into S[SD]. -/
  | lds (t : Nat)
  /-- STS (R52): Stores S[SB] as a 32-bit scratchpad word at byte S[SA] + IMM by merged write. -/
  | sts (t : Nat)
  /-- BR (R52): Branches to IMM[12:0] if S[SA] is non-zero. -/
  | br (t : Nat)
  /-- BZ (R52): Branches to IMM[12:0] if S[SA] is zero. -/
  | bz (t : Nat)
  /-- JMP (R52): Jumps to IMM[12:0], ending any active loop whose body it leaves. -/
  | jmp (t : Nat)
  /-- LOOP (R53): Starts a loop of S[SA] iterations whose body ends at IMM[12:0]. -/
  | loop (t : Nat)
  /-- RDLC (R52): Writes the iteration index of the innermost active loop to S[SD]. -/
  | rdlc (t : Nat)
  /-- LOOPI (R53): Starts a loop of IMM[31:16] iterations whose body ends at IMM[12:0]. -/
  | loopi (t : Nat)
  /-- HALT (R55): Stops issue and moves the tile to HALTED while its pipes run to completion. -/
  | halt (t : Nat)
  /-- VADD (R95): Lane-wise FP32 or INT32 addition. -/
  | vadd (t : Nat)
  /-- VSUB (R95): Lane-wise FP32 or INT32 subtraction. -/
  | vsub (t : Nat)
  /-- VMUL (R95): Lane-wise FP32 or INT32 multiplication. -/
  | vmul (t : Nat)
  /-- VFMA (R95): Lane-wise fused VA × VB + VC with one rounding. -/
  | vfma (t : Nat)
  /-- VMAX (R95): Lane-wise maximum, with canonical NaN on a NaN input. -/
  | vmax (t : Nat)
  /-- VMIN (R95): Lane-wise minimum, with canonical NaN on a NaN input. -/
  | vmin (t : Nat)
  /-- VABS (R95): Clears bit 31 of each lane, or takes the wrapping INT32 absolute value. -/
  | vabs (t : Nat)
  /-- VNEG (R95): Inverts bit 31 of each lane, or takes the wrapping INT32 negation. -/
  | vneg (t : Nat)
  /-- VBCST (R56): Broadcasts S[SA] to every lane of VD. -/
  | vbcst (t : Nat)
  /-- VCVTN (R58): Narrows FP32 lanes to the packed format FMT, with MX scales and stochastic draws. -/
  | vcvtn (t : Nat)
  /-- VCVTW (R90): Widens a packed format in VA to FP32 lanes of VD. -/
  | vcvtw (t : Nat)
  /-- VEXP2 (R96): Lane-wise correctly rounded 2^x. -/
  | vexp2 (t : Nat)
  /-- VRCP (R96): Lane-wise correctly rounded 1/x. -/
  | vrcp (t : Nat)
  /-- VRSQ (R96): Lane-wise correctly rounded 1/√x. -/
  | vrsq (t : Nat)
  /-- VSUM (R97): Sums the 64 lanes of VA by the fixed binary tree into lane 0 of VD. -/
  | vsum (t : Nat)
  /-- VLD (R57): Loads four scratchpad lines into VD through the vector memory pipe. -/
  | vld (t : Nat)
  /-- VST (R57): Stores VA to four scratchpad lines through the vector memory pipe. -/
  | vst (t : Nat)
  /-- VNORM (R97): Adds the tree sum of squares of VA to a norm accumulator. -/
  | vnorm (t : Nat)
  /-- VSEL (R56): Selects VA or VB lane-wise on the raw bits of VC. -/
  | vsel (t : Nat)
  /-- ACFG (R61): Splits an array into 1, 2 or 4 column groups and clears its B registers. -/
  | acfg (t : Nat)
  /-- ALOADB (R66): Loads a B block into a group's shadow registers through the B-load pipe. -/
  | aloadb (t : Nat)
  /-- AMUL (R66): Streams A rows through a group and accumulates the products into the accumulator rows. -/
  | amul (t : Nat)
  /-- ADRAIN (R94): Converts accumulator rows to the output format and writes them to scratchpad. -/
  | adrain (t : Nat)
  /-- AZERO (R66): Sets M accumulator rows to +0 through the drain pipe. -/
  | azero (t : Nat)
  /-- XOUT (R70): Reads scratchpad lines and presents them with TAG on the router's Local input. -/
  | xout (t : Nat)
  /-- XIN (R70): Captures words from the router's Local output into scratchpad lines. -/
  | xin (t : Nat)
  /-- TARR (R171): Sends a barrier arrive for GROUP and sets the outstanding bit. -/
  | tarr (t : Nat)
  /-- TWAIT (R175): Stops issue until the latched release of GROUP. -/
  | twait (t : Nat)
  /-- TSYNC (R175): Arrives at GROUP and waits for its release in one word. -/
  | tsync (t : Nat)
  /-- TPHASE (R320): Reports a phase id to the hen and, at a norm point, sends the tile's norm report. -/
  | tphase (t : Nat)
  /-- TRAISE (R73): Faults the tile with SW_FAULT and records the code. -/
  | traise (t : Nat)
  /-- PIPE_PENDING_START (R46): A pending pipe command starts once the running command's last occupied beat has passed. -/
  | pipePendingStart (t : Nat) (q : PipeId)
  /-- BARRIER_TIMEOUT (R72): A TWAIT limit of rooster ticks expires before the release and faults the tile. -/
  | barrierTimeout (t : Nat)
  /-- RESUME_ISSUE (R175): A waiting tile reaches its latched staggered resume beat and issue resumes. -/
  | resumeIssue (t : Nat)
  /-- RUN_START_BEAT (R151): At the announced run-start beat tiles start at PC 0, bank 0 becomes active and the run opens. -/
  | runStartBeat (r : Nat)
  /-- RUN_COMPLETE (R133): The run completes when every owned tile is HALTED or FAULTED. -/
  | runComplete (p : Nat)
  /-- END_BEAT (R134): At the end beat of a killed run, pipes are abandoned and the tiles enter SCRUB. -/
  | endBeat (r : Nat)
  /-- SCRUB_COMPLETE (R134): After 6,144 scrub beats the tile is zeroed and enters IDLE. -/
  | scrubComplete (t : Nat)
  /-- FLUSH (R126): Writing FLUSH empties a general queue, aborting items in progress. -/
  | flush (w : Party) (q : QueueId)
  /-- POP (R124): Writing POP pops the head item of a software-consumed queue. -/
  | pop (w : Party) (q : QueueId)
  /-- RTR_ST_DATA (R152): A write to a slot-table entry is checked and applied to the standby bank, or refused. -/
  | rtrStData (w : Party) (t : Nat) (v : Dword)
  /-- RTR_PERIOD (R152): A write to the bank periods is checked and applied, or refused. -/
  | rtrPeriod (w : Party) (t : Nat) (v : Dword)
  /-- RTR_SLACK (R145): A write sets the slack of border inputs, or is refused with BUSY during a run. -/
  | rtrSlack (w : Party) (t : Nat) (v : Dword)
  /-- T_OUT (R154): The fabric manager changes the transit ownership of a router output. -/
  | tOut (w : Party) (t : Nat) (v : Dword)
  /-- BORDER_WORD_ARRIVAL (R146): A stamped word arrives at a border queue and is stored or discarded. -/
  | borderWordArrival (t : Nat) (side : Dir) (kind : BorderKind)
  /-- BORDER_WORD_LATE (R147): A named border word has not arrived by its due beat; the idle word is presented and LATE set. -/
  | borderWordLate (t : Nat) (side : Dir) (edge : Bool)
  /-- PARTITION_SWAP_BEAT (R150): At the announced swap beat every partition-owned output swaps banks. -/
  | partitionSwapBeat (r : Nat)
  /-- TRANSIT_SWAP_BEAT (R150): At the announced region beat the named transit-owned outputs swap banks. -/
  | transitSwapBeat (r : Nat)
  /-- ROUTER_PLANE_FEED_LOSS (R156): Both feeds of a router plane fail; the routers stop and ROUTER_OK is cleared. -/
  | routerPlaneFeedLoss (r : Nat)
  /-- ROUTER_PLANE_FEED_RETURN (R194): A plane feed returns; the region acquires, resynchronises and locks. -/
  | routerPlaneFeedReturn (r : Nat) (own : Bool)
  /-- EXPRESS_TOKEN_INJECT (R161): A node injects the next queued express token at most once every 16 beats. -/
  | expressTokenInject (n : NodeId)
  /-- ARRIVE (R171): A hen counts an arrival and sends REGION_DONE when its region's members are complete. -/
  | arrive (r : Nat) (k : Token)
  /-- REGION_DONE (R173): The bellwether collects region completions and, when all are in, sends RELEASE at A + L. -/
  | regionDone (r : Nat) (k : Token)
  /-- RELEASE (R175): A member clears its outstanding bit and latches its staggered resume beat. -/
  | release (t : Nat) (k : Token)
  /-- BELLWETHER_ELECTION (R172): The hens elect a new bellwether after its region's plane stops, and resend REGION_DONE. -/
  | bellwetherElection (p : Nat) (g : Nat)
  /-- HOLD (R168): A region latches an announced hold beat H. -/
  | hold (r : Nat) (k : Token)
  /-- HOLD_BEAT (R45): At the hold beat the partition's schedule count stops and every tile freezes. -/
  | holdBeat (r : Nat)
  /-- RESUME (R168): A region latches an announced resume beat Q. -/
  | resume (r : Nat) (k : Token)
  /-- RESUME_BEAT (R170): At resume beat Q the held schedule continues from the same relative positions. -/
  | resumeBeat (r : Nat)
  /-- P_SWAP (R150): Routers and edge tables latch an announced partition swap beat. -/
  | pSwap (r : Nat) (k : Token)
  /-- T_SWAP (R150): Routers latch an announced transit swap for the named regions. -/
  | tSwap (r : Nat) (k : Token)
  /-- RUN_START_TOKEN (R166): Nodes set the open RUNGEN and latch the run-start beat. -/
  | runStartToken (r : Nat) (k : Token)
  /-- RUN_STOP (R180): Nodes latch the end beat of a killed run with its REASON. -/
  | runStop (r : Nat) (k : Token)
  /-- HOLD_REQ (R176): The lead hen adds hold reasons and announces HOLD at the allowed beat. -/
  | holdReq (r : Nat) (k : Token)
  /-- RESUME_REQ (R176): The lead hen withdraws the named hold reasons. -/
  | resumeReq (r : Nat) (k : Token)
  /-- RESUME_ANNOUNCE (R176): While HELD with no reasons, the lead hen announces RESUME 96 beats ahead. -/
  | resumeAnnounce (r : Nat)
  /-- HOST_HOLD (R176): A write of HOST_HOLD makes a hold request with reason HOST. -/
  | hostHold (w : Party) (r : Nat)
  /-- HOST_RESUME (R176): A write of HOST_RESUME withdraws reason HOST. -/
  | hostResume (w : Party) (r : Nat)
  /-- FM_HOLD (R176): A write of FM_HOLD makes a hold request with reason FABRIC. -/
  | fmHold (w : Party) (r : Nat)
  /-- FM_RESUME (R176): A write of FM_RESUME withdraws reason FABRIC. -/
  | fmResume (w : Party) (r : Nat)
  /-- CREDIT_TOKEN (R181): A producer updates its credit from the running total of freed queue entries. -/
  | creditToken (k : Token)
  /-- FAULT_TOKEN (R334): A hen or the controller builds a fault queue entry and applies the run's fault policy. -/
  | faultToken (n : NodeId) (k : Token)
  /-- NORM_PAIR (R99): The lead hen receives one accumulator pair of a tile's norm report. -/
  | normPair (r : Nat) (k : Token)
  /-- NORM_END (R99): The lead hen receives the end of a tile's norm report for an occurrence. -/
  | normEnd (r : Nat) (k : Token)
  /-- NORM_RECORD_EMIT (R99): Once every contributor has reported, the lead hen sums in norm-index order and emits norm records. -/
  | normRecordEmit (p : Nat) (phase : Nat)
  /-- ROOSTER_TICK (R190): A tick reaches each hen, which measures LAG, advances E and trims its oscillator. -/
  | roosterTick (dead : List (Nat × Nat)) (amps : List (Nat × Nat))
  /-- TICK_MISS (R189): No tick arrives within 1,050 ns, so the hen marks a synthetic tick. -/
  | tickMiss (r : Nat)
  /-- EPOCH_MARK (R191): Every 4,096 region beats the hen tests LAG and requests a SLIP hold if it exceeds 24. -/
  | epochMark (r : Nat)
  /-- SLIP_RECOVERED (R191): At the first beat with LAG ≤ 0 the hen sends RESUME_REQ for SLIP. -/
  | slipRecovered (r : Nat)
  /-- RESYNC (R192): At the next real tick after lock loss the region count jumps to E and border queues are flushed. -/
  | resync (r : Nat)
  /-- DROOP_TRIP (R185): The droop detector trips and the oscillator slows within one beat. -/
  | droopTrip (r : Nat) (mv : Nat)
  /-- DROOP_CLEAR (R185): The detector clears and the rate rises by F/40 per beat to its target. -/
  | droopClear (r : Nat)
  /-- F_CHANGE (R183): At the announced tick every hen applies the new device rate F. -/
  | fChange
  /-- FIXED (R195): A write of FIXED in MGT_MODE requests fixed-clock mode or clears it. -/
  | fixed (w : Party) (on : Bool)
  /-- FIXED_MHZ (R195): A write of FIXED_MHZ sets F for fixed-clock mode, or is refused INVALID. -/
  | fixedMhz (w : Party) (mhz : Nat)
  /-- FIXED_CLOCK_APPLY (R195): A pending fixed-clock change takes effect at a tick with no run active. -/
  | fixedClockApply
  /-- REF_LOST (R187): The reference is lost and I/O die 0 continues the ticks from its own oscillator. -/
  | refLost
  /-- REF_RESTORED (R187): After 10 ms of stable reference the ticks return to it. -/
  | refRestored
  /-- FABRIC_LOCK_LOSS (R197): No valid time frame arrives for 1 s, so FABRIC_LOCK clears and a LINK token is raised. -/
  | fabricLockLoss
  /-- OX_PASS_START (R213): A descriptor pass whose START has passed is served and its pages checked. -/
  | oxPassStart (e : EdgeId) (sh : Nat) (i : Nat)
  /-- OX_PASS_COMPLETE (R213): A pass completes, and the ox withdraws OX when no held-for pass remains. -/
  | oxPassComplete (e : EdgeId) (sh : Nat) (i : Nat) (bad : List Nat)
  /-- OX_LATE_POINT (R215): An incomplete pass at D − 512 makes the ox request an OX hold with h = D − 1. -/
  | oxLatePoint (e : EdgeId) (sh : Nat) (i : Nat)
  /-- STAGING_MISS (R214): An edge access to a pending or late line is idled or discarded, MISS set and a TIMING token raised. -/
  | stagingMiss (e : EdgeId) (ep : Nat)
  /-- EDG_EST_DATA (R210): A write to an HBM edge-table entry is applied to the standby bank, or refused. -/
  | edgEstData (w : Party) (x : Nat) (v : Dword)
  /-- EDG_EST_PORT (R211): A write to an HBM edge port's periods and steps is applied, or refused. -/
  | edgEstPort (w : Party) (x : Nat) (v : Dword)
  /-- IRA_EST_DATA (R260): A write to an I/O die edge-table entry is applied to the standby bank, or refused. -/
  | iraEstData (w : Party) (d : Nat) (v : Dword)
  /-- IRA_EST_PORT (R260): A write to an I/O die edge port's periods and steps is applied, or refused. -/
  | iraEstPort (w : Party) (d : Nat) (v : Dword)
  /-- RING_READ (R216): The ox serves a ring READ request after its page check. -/
  | ringRead (x : Nat) (bad : List Nat)
  /-- RING_WRITE (R216): The ox serves a ring WRITE request after its page check. -/
  | ringWrite (x : Nat)
  /-- RING_ATOMIC (R236): The ox performs a ring atomic as one uninterrupted read and write. -/
  | ringAtomic (x : Nat) (bad : Bool)
  /-- HBM_ECC_POLL (R206): The ox reads the stack's error reports at least every 10 s and exports them. -/
  | hbmEccPoll (x : Nat) (reports : List EccReport)
  /-- HBM_CHANNEL_FAIL (R205): A channel fails in service and its granules are refused with CHANNEL_FAILED. -/
  | hbmChannelFail (x : Nat) (c : Nat)
  /-- HANDOVER_COMPLETE (R223): After prior accesses drain, the new owner, mode and GEN are written to every replica. -/
  | handoverComplete (page : Nat)
  /-- PAGE_ZEROING_COMPLETE (R224): When zeroing of a freed page ends, every replica receives the FREE record. -/
  | pageZeroingComplete (page : Nat)
  /-- DEV_ID (R250): The fabric manager writes the module's device id, refused while any port is UP. -/
  | devId (w : Party) (v : Dword)
  /-- DEVID_REWRITE_COMPLETE (R220): The page engine finishes rewriting owner ids to the new DEV_ID, so ports may admit. -/
  | devidRewriteComplete
  /-- IRA_ROUTE (R250): A route entry write takes effect for packets looked up from the next beat. -/
  | iraRoute (w : Party) (d : Nat) (v : Dword)
  /-- QUIESCE (R241): Setting QUIESCE makes the module answer new requests QUIESCED. -/
  | quiesce (w : Party) (d : Nat) (on : Bool)
  /-- GM_SELF (R257): Setting GM_SELF makes the module the fabric's time source. -/
  | gmSelf (w : Party) (on : Bool)
  /-- CODEWORD_RECEIVED (R228): A lane codeword is decoded, corrected or discarded, and its flits passed to the link layer. -/
  | codewordReceived (port : Nat) (lane : Nat) (frame : Nat) (errs : CodeErrors) (flits : List Line)
  /-- LOAD (R235): A target serves an Irant LOAD of 1 to 4 lines. -/
  | load (port : Nat)
  /-- STORE (R235): A target serves an Irant STORE of 1 to 4 lines. -/
  | store (port : Nat)
  /-- STORE_MASKED (R235): A target stores the bytes of one line selected by a byte mask. -/
  | storeMasked (port : Nat)
  /-- ATOMIC_SWAP (R236): An atomic replaces a 64-bit word with OPND0 and returns the old value. -/
  | atomicSwap (port : Nat)
  /-- ATOMIC_CAS (R236): An atomic compare-and-swap on a 64-bit word. -/
  | atomicCas (port : Nat)
  /-- ATOMIC_ADD (R236): An atomic add modulo 2^64. -/
  | atomicAdd (port : Nat)
  /-- ATOMIC_AND (R236): An atomic bitwise AND. -/
  | atomicAnd (port : Nat)
  /-- ATOMIC_OR (R236): An atomic bitwise OR. -/
  | atomicOr (port : Nat)
  /-- ATOMIC_XOR (R236): An atomic bitwise XOR. -/
  | atomicXor (port : Nat)
  /-- ATOMIC_MAXU (R236): An atomic unsigned maximum. -/
  | atomicMaxu (port : Nat)
  /-- ATOMIC_MINU (R236): An atomic unsigned minimum. -/
  | atomicMinu (port : Nat)
  /-- IRANT_HANDOVER (R237): A fabric HANDOVER runs the page hand-over and answers OK, IN_PROGRESS or a refusal. -/
  | irantHandover (port : Nat)
  /-- RECLAIM (R237): A fabric manager's RECLAIM frees a page, or is answered DENIED. -/
  | reclaim (port : Nat)
  /-- CTL_READ (R237): A fabric peer reads a control-space register within its rights. -/
  | ctlRead (port : Nat)
  /-- CTL_WRITE (R237): A fabric peer writes a control-space register within its rights. -/
  | ctlWrite (port : Nat)
  /-- RSP (R246): A response reaches the request engine that holds its tag and completes the request. -/
  | rsp (port : Nat)
  /-- REQUEST_EXPIRED (R242): A request not started 3.5 µs after arrival is withdrawn and answered EXPIRED. -/
  | requestExpired (port : Nat)
  /-- REQUEST_TIMEOUT (R243): A request without a response after 8 µs completes locally with TIMEOUT. -/
  | requestTimeout (d : Nat) (tag : Nat)
  /-- TRANSIT_FORWARD (R246): The mule looks up a transit packet's destination and forwards it. -/
  | transitForward (port : Nat)
  /-- ACK (R231): A received ACK frees replay-buffer space up to the named LSEQ. -/
  | ack (port : Nat)
  /-- NAK (R230): A received NAK makes the sender replay from the named LSEQ. -/
  | nak (port : Nat)
  /-- CREDIT (R232): A received CREDIT packet updates the four pools' credit totals. -/
  | credit (port : Nat)
  /-- TIME_SYNC (R258): A received TIME_SYNC is answered with TIME_RESP carrying t1, t2 and t3. -/
  | timeSync (port : Nat) (t2 : Dword) (t3 : Dword)
  /-- TIME_RESP (R258): A received TIME_RESP yields delay and offset, which I/O die 0 applies to device time. -/
  | timeResp (port : Nat) (t4 : Dword)
  /-- DEPART (R253): A received DEPART takes the port out of UP. -/
  | depart (port : Nat)
  /-- ADMIT (R255): A received ADMIT records the peer, and the port becomes UP once ADMIT has gone both ways. -/
  | admitted (port : Nat)
  /-- LANE_MAP (R256): A received LANE_MAP schedules a change of lanes at the named frame. -/
  | laneMap (port : Nat)
  /-- LANE_SWITCH (R256): At the named frame both ends switch to the new lane set. -/
  | laneSwitch (port : Nat)
  /-- LANE_RETIRE (R256): A lane over its error threshold is retired and the spare used, or the width halved. -/
  | laneRetire (port : Nat) (lane : Nat)
  /-- PORT_SIGNAL_LOSS (R253): 1 µs with no decodable codeword makes the port DOWN. -/
  | portSignalLoss (port : Nat)
  /-- ACK_TIMER (R231): A receiver with unacknowledged packets sends ACK at least every 1 µs. -/
  | ackTimer (port : Nat)
  /-- CREDIT_TIMER (R232): A receiver sends a CREDIT packet at least every 1 µs. -/
  | creditTimer (port : Nat)
  /-- TIME_SYNC_TIMER (R258): Every UP port sends TIME_SYNC every 100 µs. -/
  | timeSyncTimer (port : Nat) (t1 : Dword)
  /-- RETRAIN (R255): A write of RETRAIN starts a retrain of the selected port. -/
  | retrain (w : Party) (d : Nat) (full : Bool)
  /-- RETIRE (R255): A write of RETIRE sends DEPART and darkens the port until the next boot. -/
  | retire (w : Party) (d : Nat)
  /-- AUTO_RETRAIN (R255): The controller retrains a port that went DOWN other than by DEPART, at most once in 60 s. -/
  | autoRetrain (port : Nat)
  /-- REPLAY_DRAIN_END (R255): A retraining port's replay buffer is acknowledged, or 10 µs pass and the rest is discarded. -/
  | replayDrainEnd (port : Nat)
  /-- PORT_TRAINING_COMPLETE (R255): A port finishes restore or full training and starts qualification. -/
  | portTrainingComplete (trained : PortTraining)
  /-- PORT_QUALIFICATION_COMPLETE (R301): A port's qualification ends; it is admitted at full or half width, or stays DOWN. -/
  | portQualificationComplete (port : Nat) (badLanes : List Nat)
  /-- COL_PASS_DUE (R264): A collective pass falls due, takes the next SEQ and sends its chunks. -/
  | colPassDue (c : Nat) (i : Nat)
  /-- CONTRIB (R270): An owner accepts, rejects or discards a contribution for a chunk. -/
  | contrib (port : Nat)
  /-- CHUNK_CLOSE (R271): A chunk closes when all ranks are in or at T_close, and is folded in rank order. -/
  | chunkClose (c : Nat) (seq : Nat) (ch : Nat)
  /-- RESULT (R273): A device applies a chunk result in sequence order. -/
  | result (port : Nat)
  /-- ROSTER (R275): A received roster segment lets a partial result be applied. -/
  | roster (port : Nat)
  /-- LATE_NOTICE (R274): A sender counts LATE_TX and marks LATE_SENT in the pending record. -/
  | lateNotice (port : Nat)
  /-- CHUNK_GIVE_UP (R276): A chunk without a valid result by T_start + 2 × WINDOW + 100 µs is written as missing. -/
  | chunkGiveUp (c : Nat) (seq : Nat) (ch : Nat)
  /-- FREEZE (R281): A write of FREEZE stops or allows the digest log's swap. -/
  | freeze (w : Party) (on : Bool)
  /-- POWER_GOOD (R284): Stage 0 ends when I/O die 0's rails and the always-on rail are in regulation, and PWR_OK rises. -/
  | powerGood
  /-- CONTROLLER_FIRMWARE (R288): Stage 1 authenticates and starts a firmware slot, or enters RECOVERY. -/
  | controllerFirmware
  /-- HALF_ALWAYS_ON_POWER (R284): Stage 2 ends when the halves' always-on rails are in regulation. -/
  | halfAlwaysOnPower (ok : Bool)
  /-- FUSE_MAPS (R293): Stage 3 reads, checks and translates every fuse map. -/
  | fuseMaps
  /-- SEAM_AND_BRIDGE_REPAIR (R294): Stage 4 tests and spares every seam group and bridge wire. -/
  | seamAndBridgeRepair (found : SeamFindings)
  /-- BIST (R296): Stage 5 tests every unit and records PASS or FAIL. -/
  | bist (found : BistFindings)
  /-- FLOOR_PLAN_MERGE (R297): Stage 6 fixes each unit's state by the union rule. -/
  | floorPlanMerge
  /-- LINK_TRAINING (R304): Stage 7 trains the links, exchanges capabilities, calibrates ticks and sets the origin tick. -/
  | linkTraining (found : TrainFindings)
  /-- REFCLK (R305): A reference not stable within 1 s in stage 7 ends bring-up with REFCLK. -/
  | refclk
  /-- ERROR_RATE_QUALIFICATION (R301): Stage 8 qualifies every trained link by bit error rate and spares or downs lanes. -/
  | errorRateQualification (found : QualFindings)
  /-- PUBLICATION (R306): Stage 9 applies the interleave, publishes the map with GEN 2 and sets READY. -/
  | publication
  /-- STAGE_TIMEOUT (R307): A stage that exceeds its maximum stops bring-up, with one retry from stage 2. -/
  | stageTimeout
  /-- WATCHDOG_EXPIRY (R289): The firmware watchdog expires and stage 1 repeats, changing slot after three restarts. -/
  | watchdogExpiry
  /-- ACTIVATE (R291): A write of ACTIVATE authenticates the standby image and hands control to it. -/
  | activate (w : Party)
  /-- ACTIVATION_HEALTHY (R291): The new image reports healthy within 10 s and its slot becomes active. -/
  | activationHealthy
  /-- ACTIVATION_TIMEOUT (R291): The new image has not reported healthy after 10 s and control is handed back. -/
  | activationTimeout
  /-- BUSBAR_SHUTDOWN (R308): Busbar under 36 V for 100 µs or over 63 V shuts down every block. -/
  | busbarShutdown
  /-- PHASE_FAIL (R313): A failed regulator phase is removed and the region's state follows the failed count. -/
  | phaseFail (r : Nat) (ph : Nat)
  /-- TRIP (R315): A region block over its current limit disconnects and the region becomes ISOLATED. -/
  | trip (r : Nat)
  /-- BLOCK_REENABLE (R315): 1 s after a trip the hen re-enables the block once with a half-rate ramp. -/
  | blockReenable (r : Nat)
  /-- DROP_MEASUREMENT (R316): Once a second the hen measures the supply drop ratio and may set CRACK or isolate. -/
  | dropMeasurement (r : Nat) (drop : Nat) (load : PhaseCurrent)
  /-- RAMP_RECHECK (R317): A waiting ramp re-checks its neighbours' loads every 10 µs and starts when allowed. -/
  | rampRecheck (r : Nat) (loaded : Nat)
  /-- RAMP_WAIT_LONG (R317): After 1 ms of waiting the budgeter limits the neighbours to 255 A. -/
  | rampWaitLong (r : Nat)
  /-- RAMP_COMPLETE (R317): A tile-rail ramp reaches its target. -/
  | rampComplete (r : Nat)
  /-- RETENTION_ENTRY (R318): At its hold beat a region gates its tiles and ramps its rail to 0.45 V, becoming DARK. -/
  | retentionEntry (r : Nat)
  /-- RETENTION_EXIT (R318): A region ramps up, ungates at LAG ≤ 0 and returns to service. -/
  | retentionExit (r : Nat)
  /-- DARK_RUN_KILL (R319): A run whose region stays DARK or ISOLATED past its limit is killed with REASON 2. -/
  | darkRunKill (r : Nat)
  /-- PHASE (R320): A hen sets the region's phase from a tile's PHASE token. -/
  | phase (r : Nat) (k : Token)
  /-- BUDGET_INTERVAL (R323): Every 100 ticks the budgeter computes F, duty and budgets and sends BUDGET tokens. -/
  | budgetInterval (m : PowerMeas)
  /-- REPORT (R322): The controller or lead hen takes a region's current report and retention request. -/
  | report (n : NodeId) (k : Token)
  /-- OVER_BUDGET_REPORT (R322): A hen over 1.1 × budget reports at once and the budgeter recomputes. -/
  | overBudgetReport (r : Nat) (amps : Nat) (m : PowerMeas)
  /-- BUDGET (R326): A hen takes its budget and duty for the next interval. -/
  | budget (r : Nat) (k : Token)
  /-- DUTY_SUBPERIOD (R324): At each 10 µs sub-period the lead hen requests a POWER hold. -/
  | dutySubperiod (p : Nat)
  /-- DUTY_HOLD_END (R324): After D × 10 µs held in a sub-period the lead hen withdraws POWER. -/
  | dutyHoldEnd (p : Nat)
  /-- HOST_CAP_W (R325): A write of the host power cap is answered with a status and applied. -/
  | hostCapW (w : Party) (watts : Nat)
  /-- FM_CAP_W (R325): A write of the fabric power cap is answered with a status and applied. -/
  | fmCapW (w : Party) (watts : Nat)
  /-- FLOOR_RECOMPUTE (R325): Every 100 ms the cap floor is recomputed and reported. -/
  | floorRecompute (m : PowerMeas)
  /-- DERATE (R329): A region at 90 °C or more has its current ceiling derated. -/
  | derate (r : Nat) (temp : Nat)
  /-- HEAT_OFF (R329): A region at 95 °C for 1 ms enters retention with cause HEAT. -/
  | heatOff (r : Nat)
  /-- HEAT_RETURN (R329): After 10 ms at 85 °C or less a region leaves heat retention. -/
  | heatReturn (r : Nat)
  /-- THERM_TRIP (R329): A region at 110 °C enters retention with cause TRIP. -/
  | thermTrip (r : Nat)
  /-- THERM_TRIP_RAIL_OFF (R329): 10 ms after a thermal trip a still-hot region's tile rail goes off. -/
  | thermTripRailOff (r : Nat)
  /-- IOD_HOT (R329): An I/O die at 100 °C for 1 ms becomes TRANSIT_ONLY. -/
  | iodHot (d : Nat)
  /-- IOD_COOL (R329): After 10 ms at 90 °C or less an I/O die returns to RUNNING. -/
  | iodCool (d : Nat)
  /-- IOD_TRIP (R329): An I/O die at 110 °C sends DEPART and goes dark until the next boot. -/
  | iodTrip (d : Nat)
  /-- HBM_HOT (R329): A stack above 95 °C makes its ox use at most half the command slots. -/
  | hbmHot (x : Nat)
  /-- COOLANT_LOSS (R330): COOLANT_OK deasserted for 10 µs puts every region into retention and the I/O dies TRANSIT_ONLY. -/
  | coolantLoss
  /-- COOLANT_RAIL_CHECK (R330): At t0 + 20 ms a half whose temperature rose has its rails turned off. -/
  | coolantRailCheck (westRose : Bool) (eastRose : Bool)
  /-- COOLANT_DEPART (R330): At t0 + 10 s every I/O die sends DEPART and goes dark. -/
  | coolantDepart
  /-- COOLANT_RETURN (R330): COOLANT_OK returns; regions leave retention and I/O dies return, or a reset is awaited. -/
  | coolantReturn
  /-- MODULE_RESET (R330): After coolant has been back for 10 s and sensors read ≤ 60 °C, the module resets and restarts bring-up at stage 2. -/
  | moduleReset
  /-- RESIDUE_MISMATCH (R340): An array or router residue check fails and a RESIDUE token is raised. -/
  | residueMismatch (t : Nat) (router : Bool) (unit : Nat) (residue : ResidueCheck)
  /-- TILE_DUE (R341): 20 h after its last test a tile becomes DUE. -/
  | tileDue (t : Nat)
  /-- TILE_OVERDUE (R341): 23 h after its last test a tile becomes OVERDUE and the hen reports it. -/
  | tileOverdue (t : Nat)
  /-- TILE_LAPSED (R341): 24 h after its last test a tile becomes LAPSED and is reported. -/
  | tileLapsed (t : Nat)
  /-- IDLE_REGION_TEST (R344): A due tile in a region with no loaded image starts its in-field test. -/
  | idleRegionTest (t : Nat)
  /-- FALLOW_WINDOW (R344): At a fallow window occurrence the named due tiles start their test. -/
  | fallowWindow (r : Nat) (i : Nat)
  /-- IFT_COMPLETE (R348): An in-field test ends; the tile passes, fails, is rerun or becomes SUSPECT. -/
  | iftComplete (t : Nat) (o : TestOutcome) (routerOk : Bool)
  /-- GRANT (R346): A write of GRANT makes the hen coordinator of a test pause, or sets NO_PAUSE. -/
  | grant (w : Party) (r : Nat)
  /-- TEST_OVERDUE (R346): The controller raises the test event and exports a CPER record. -/
  | testOverdue (k : Token)
  /-- TEST_GRANT (R346): A hen of the partition takes part in the pending pause. -/
  | testGrant (r : Nat) (k : Token)
  /-- TEST_DONE (R346): The coordinator collects completion and resumes when all regions are done. -/
  | testDone (r : Nat) (k : Token)
  /-- TEST_LAPSED (R347): The controller records a region's lapsed tiles. -/
  | testLapsed (k : Token)
  /-- WIRE_RETIRE (R351): A wire over its correction threshold is spared, left FAILING or makes the link DOWN. -/
  | wireRetire (corrected : WireCorrections)
  /-- DOUBLE_WIRE_ERROR (R351): A beat with two wrong wires in one group idles the word, and a second within 1 s downs the link. -/
  | doubleWireError (wire : WireId)
  /-- HEN_POLL (R353): The controller polls each hen every 10 ms and isolates a region after three misses. -/
  | henPoll (r : Nat) (ok : Bool)
  /-- RING_SEGMENT_FAIL (R30): A failed perimeter ring segment makes the ring a line, or cuts off an arc. -/
  | ringSegmentFail (seg : Nat)
  /-- CONTROL_CROSSING_FAIL (R160): A failed north crossing is replaced by the south crossing within 1 ms. -/
  | controlCrossingFail (south : Bool)
  /-- MAP_PUBLICATION (R35): The controller publishes the state changes of a 1 ms interval under one GEN. -/
  | mapPublication
  /-- CPER_MERGE_RELEASE (R356): A CPER record held 1 s for merging is placed on the export queue. -/
  | cperMergeRelease
  /-- TELEMETRY_SWAP (R333): Every 100 µs the hen's telemetry frame pair swaps. -/
  | telemetrySwap (r : Nat) (m : TlmMeas)
  /-- DOORBELL (R131): A write of DOORBELL swaps the mailbox and submits a request, or is refused with MBX_BUSY. -/
  | doorbell (w : Party)
  /-- FDL_READ (R393): Returns entries of the field defect log. -/
  | fdlRead
  /-- CONFIG_READ (R393): Returns the configuration record. -/
  | configRead
  /-- CONFIG_WRITE (R292): Writes the configuration record, taking effect at the next boot. -/
  | configWrite
  /-- FW_WRITE (R393): Writes firmware data to the slot not in use. -/
  | fwWrite
  /-- FW_COMMIT (R393): Authenticates the written firmware image and marks it valid or activates it in RECOVERY. -/
  | fwCommit
  /-- KEY_BOOTSTRAP (R368): Enrols the first ADMIT key into an empty requester table. -/
  | keyBootstrap
  /-- ILV (R201): A write of ILV changes the interleave mode, or is refused while pages are claimed. -/
  | ilv (w : Party) (on : Bool)
  /-- TAIL (R372): A write of the SQ TAIL makes the device fetch new submission entries. -/
  | tail (w : Party) (f : Nat) (tail : Nat) (host : List (Nat × Byte))
  /-- HEAD (R373): A write of the CQ HEAD consumes completion entries. -/
  | head (w : Party) (f : Nat) (head : Nat)
  /-- ENABLE (R371): Setting ENABLE resets a ring's head, tail and phase; clearing it stops fetching. -/
  | enable (w : Party) (f : Nat) (cq : Bool) (on : Bool)
  /-- WINDOW_REG (R377): Registers a host window with base and length. -/
  | windowReg (f : Nat)
  /-- WINDOW_UNREG (R377): Unregisters a host window after its users complete. -/
  | windowUnreg (f : Nat)
  /-- DMA_H2D (R378): Checks and starts a host-to-device DMA. -/
  | dmaH2d (f : Nat)
  /-- DMA_D2H (R378): Checks and starts a device-to-host DMA. -/
  | dmaD2h (f : Nat)
  /-- DMA_COMPLETE (R379): A DMA ends or stops at a refused line and its completion is written. -/
  | dmaComplete (f : Nat) (cid : Nat) (host : List (Nat × Byte))
  /-- IMAGE_LOAD (R386): Checks a load image in order, claims pages and writes it to the partition. -/
  | imageLoad (f : Nat) (img : Image)
  /-- IMAGE_LOAD_COMPLETE (R386): A load finishes writing its tiles, or a wait for scrub ends BUSY after 10 s. -/
  | imageLoadComplete (p : Nat)
  /-- RUN_START (R387): Increments the run number and has the controller announce RUN_START. -/
  | runStart (f : Nat)
  /-- RUN_KILL (R389): Has the controller announce RUN_STOP with REASON 1. -/
  | runKill (f : Nat)
  /-- HANDOVER (R379): The host command runs the page hand-over of R223. -/
  | handover (f : Nat)
  /-- PART_CREATE (R380): Creates a partition over a rectangle of regions and enables its VF. -/
  | partCreate
  /-- PART_RESET (R381): Aborts commands, ends the run, scrubs tiles and resets routers, shares and channels. -/
  | partReset
  /-- PART_DESTROY (R381): Resets the partition, frees its pages and norm ring and disables its VF. -/
  | partDestroy
  /-- FLR_VF (R382): A Function Level Reset of a VF resets its partition and ends its bindings. -/
  | flrVf (f : Nat)
  /-- FLR_PF (R382): A Function Level Reset of the PF resets every partition and ends the PF's bindings. -/
  | flrPf
  /-- PERST_FALL (R407): A fall of PERST_N is carried out as an FLR of the PF. -/
  | perstFall
  /-- PERST_RISE (R407): A rise of PERST_N starts host port link training. -/
  | perstRise
  /-- CERTIFICATE_RETRIEVAL (R367): The SPDM responder returns its certificate chain. -/
  | certificateRetrieval (slot : Nat)
  /-- CHALLENGE (R367): The SPDM responder answers a challenge. -/
  | challenge (nonce : List Byte)
  /-- SIGNED_MEASUREMENTS (R367): The SPDM responder returns signed measurements. -/
  | signedMeasurements (slot : Nat)
  /-- KEY_EXCHANGE (R368): Opens a session if the requester key is in the table, taking its role. -/
  | keyExchange (sess : Nat) (key : List Byte)
  /-- FINISH (R367): Completes the SPDM session handshake. -/
  | finish (sess : Nat)
  /-- HEARTBEAT (R367): Keeps an SPDM session alive. -/
  | heartbeat (sess : Nat)
  /-- KEY_UPDATE (R367): Updates the session keys. -/
  | keyUpdate (sess : Nat)
  /-- END_SESSION (R370): Ends a session and its bindings. -/
  | endSession (sess : Nat)
  /-- SESSION_TIMEOUT (R370): A session with no message for 20 s ends. -/
  | sessionTimeout (sess : Nat)
  /-- BIND (R369): Binds a function's rings or the fabric role to the session. -/
  | bind (sess : Nat) (f : Nat) (fabric : Bool)
  /-- UNBIND (R369): Removes the session's binding. -/
  | unbind (sess : Nat) (f : Nat) (fabric : Bool)
  /-- KEY_ENROLL (R369): Writes a requester key slot. -/
  | keyEnroll (sess : Nat) (slot : Nat) (key : List Byte) (role : Role) (mask : BitVec 16)
  /-- KEY_REMOVE (R369): Clears a requester key slot and ends its sessions. -/
  | keyRemove (sess : Nat) (slot : Nat)
  /-- IMAGE_KEY_ENROLL (R369): Writes an image-signing key slot. -/
  | imageKeyEnroll (sess : Nat) (slot : Nat) (key : List Byte)
  /-- IMAGE_KEY_REMOVE (R369): Clears an image-signing key slot. -/
  | imageKeyRemove (sess : Nat) (slot : Nat)
  /-- REGISTER_WRITE (R366): A control-space write to a register without behaviour of its own is checked for rights and applied. -/
  | registerWrite (w : Party) (addr : Nat) (size : Nat) (v : Dword)
  /-- REGION_BEAT (R139): At each beat of a region's clock every router output applies one slot-table field, edge tables read or write staging, and SPOS, TPOS and running offsets advance. -/
  | regionBeat (r : Nat)
  /-- PARTITION_SWAP_REQUEST (R180): The lead hen issues a P_SWAP announcement on the image's request. -/
  | partitionSwapRequest (p : Nat) (beat : Nat)
  /-- TRANSIT_SWAP_REQUEST (R180): The management controller announces T_SWAP for the fabric manager. -/
  | transitSwapRequest (regions : BitVec 40) (beat : Nat)
  /-- PERST_N_DELAY_END (R407): 100 ms after PWR_OK rises the module stops treating PERST_N as low, so a PERST_N already high starts host port training. -/
  | perstNDelayEnd
  /-- DUMP_COMPLETE (R136): The pre-scrub dump of a tile finishes writing, or a host write fails, and the tile's zeroing begins. -/
  | dumpComplete (t : Nat) (ok : Bool)
  /-- HBM_SOFT_REPAIR_COMPLETE (R208): A soft post-package repair finishes its write-back and the row stops being served from the repair buffer. -/
  | hbmSoftRepairComplete (x : Nat) (c : Nat) (bank : Nat) (row : Nat)
  /-- STAGING_BLOCK_TEST (R353): A staging block with no share held is march-tested online, and a failure makes its HBM site FAILED or its I/O die TRANSIT_ONLY. -/
  | stagingBlockTest (e : EdgeId) (ok : Bool)
  /-- HBM_STACK_COOL (R329): A stack's temperature returns to 95 °C or below and its ox may use all command slots again. -/
  | hbmStackCool (x : Nat)
  /-- COMMANDED_SHUTDOWN (R252): A commanded shutdown sends DEPART on every UP port at least 10 µs before the transmitters go dark. -/
  | commandedShutdown
  /-- SPDM_RECOVERY_IMAGE (R290): In RECOVERY the controller accepts a firmware image over SPDM on MCTP over I3C, authenticates it and restarts stage 1. -/
  | spdmRecoveryImage (fw : List Byte)
  /-- NEGOTIATE_ALGORITHMS (R367): The SPDM responder answers version, capability and algorithm negotiation, selecting ECDSA P-384, SHA-384, secp384r1 and AES-256-GCM. -/
  | negotiateAlgorithms (offer : List Byte)
  /-- ENTDAA (R402): The I3C controller's ENTDAA assigns the module its dynamic address. -/
  | entdaa (address : BitVec 7)
  deriving DecidableEq, Repr

end Sys2Proof
end

