-- ==== Sys2Proof/Config.lean ====
section
/-!
DEFINITION. What one implementation fixes and what the spec leaves open: the free values and the published
algorithms the spec names without defining.  Every one is an opaque constant: nothing can prove a value of it.
-/
namespace Sys2Proof.Config

/-- The free value drawn at a count: what the spec leaves open, never chosen (log entry 4). -/
opaque freeValue : Nat → BitVec 64

/-- ECDSA P-384 over SHA-384 of a load image or firmware image (R288, R386): key, bytes, signature.
Log entry 5. -/
opaque signatureOk : List Byte → List Byte → List Byte → Bool

/-- Whether a firmware slot's bytes carry a signature of the fused key and their security version (R288).
Log entry 5. -/
opaque firmwareOk : List (Nat × Byte) → Bool
opaque firmwareSvn : List (Nat × Byte) → BitVec 32

/-- The minimum security version in the controller's one-time-programmable store (R288). Log entry 5. -/
opaque minimumSvn : BitVec 32

/-- The training format of a firmware image (R300). Log entry 5. -/
opaque trainingFormat : List (Nat × Byte) → Nat

/-- The SPDM responder's answers, whose bytes the DMTF standards fix and the spec does not (R367).
Log entry 5. -/
opaque spdmAnswer : Nat → List Byte → List Byte

/-- Rows of one bank of a stack that can be repaired before its repair resources are exhausted (R208). Log entry 34. -/
opaque bankRepairs : Nat

end Sys2Proof.Config
end

