-- ==== Sys2Proof/Machine/State.lean ====
section
/-!
DEFINITION. The state of the module: every register, memory, queue, pipe and latch the spec names, as plain data.
A numbered collection is a sparse table (`Tab`) whose default stands beside its type below.
-/
namespace Sys2Proof.Machine

/-! ## General queues (R123 to R129) -/

/-- A general queue of `2^n` entries: its pointers, the items between them (oldest first; an item is its entries),
the holding register and the sticky bits of R127. -/
structure GQueue where
  n : Nat
  wptr : Nat := 0
  rptr : Nat := 0
  items : List (List Line) := []
  hold : List Line := []
  underrun : Bool := false
  overflow : Bool := false
  drops : Nat := 0
  deriving DecidableEq, Repr

/-! ## The tile (R42 to R75, R109 to R122, R359) -/

/-- TIL_STATE without HELD, which a running or waiting tile shows while its region is held (R74, R175). -/
inductive TileSt where
  | idle | loaded | running | waiting | halted | faulted | scrub
  deriving DecidableEq, Repr

/-- What the check bits of a protected word say (R51, R116): `many` is three or more wrong bits. -/
inductive Ecc where
  | good | single | double | many
  deriving DecidableEq, Repr

/-- An active loop (R53): the address of its LOOP word, its end, the iterations left (this one counted) and the
index of this iteration. -/
structure LoopRec where
  start : Nat
  stop : Nat
  left : Nat
  index : Nat
  deriving DecidableEq, Repr

/-- A command in a pipe: its start beat and its last occupied beat (R46). -/
structure PipeCmd where
  start : Nat
  last : Nat
  deriving DecidableEq, Repr

/-- A pipe: at most one running and one pending command (R46). -/
structure Pipe where
  run : Option PipeCmd := none
  wait : Option PipeCmd := none
  deriving DecidableEq, Repr

/-- One exact addend of an accumulator (R91, R92): a NaN, an infinity of a sign, or `m × 2^e`. -/
inductive Term where
  | nan
  | inf (neg : Bool)
  | fin (m : Int) (e : Int)
  deriving DecidableEq, Repr

/-- A write that lands at the end of a beat (R44). -/
inductive Act where
  | sreg (sd : Nat) (v : Word)
  | vreg (vd : Nat) (v : VReg)
  | vline (vd k : Nat) (v : Line)
  | norm (tag kind : Nat) (v : Word)
  | normZero (tags : List Nat)
  | bline (arr col w fmt j : Nat) (v : Line)
  | acfg (arr split : Nat)
  | acc (arr row col : Nat) (ovr : Bool) (cols : List (List Term))
  | accZero (arr row col w : Nat)
  | line (l code : Nat) (mask : BitVec 64) (v : Line)
  deriving DecidableEq, Repr

/-- A pending write: the beat at whose end it lands and the issue beat of its instruction (R44). -/
structure Pend where
  land : Nat
  issue : Nat
  act : Act
  deriving DecidableEq, Repr

/-- Where the line of a scratchpad read goes (R114). -/
inductive RdDest where
  | sreg (sd off : Nat)
  | vline (vd k start : Nat)
  | bline (arr col w fmt j : Nat)
  | arow (arr grp entry : Nat)
  | xout (tag : BitVec 16)
  deriving DecidableEq, Repr

/-- A scratchpad read waiting for its port beat (R114). -/
structure RdReq where
  beat : Nat
  code : Nat
  line : Nat
  issue : Nat
  dest : RdDest
  deriving DecidableEq, Repr

/-- A scratchpad write waiting for its port beat (R114); bit `k` of the mask names byte `k` of the line. -/
structure WrReq where
  beat : Nat
  code : Nat
  line : Nat
  issue : Nat
  mask : BitVec 64
  data : Line
  deriving DecidableEq, Repr

/-- An A row that will enter a column group (R66), with the lines read for it so far. -/
structure Entry where
  beat : Nat
  arr : Nat
  grp : Nat
  fmtA : Nat
  fmtB : Nat
  swap : Bool
  ovr : Bool
  row : Nat
  rowByte : Nat
  scaleByte : Nat
  issue : Nat
  lines : Tab Line
  deriving DecidableEq, Repr

/-- An accumulator row that will be drained (R66). -/
structure DrainOp where
  beat : Nat
  arr : Nat
  grp : Nat
  fmt : Nat
  rnd : Nat
  zero : Bool
  row : Nat
  outByte : Nat
  scaleByte : Nat
  scaleBeat : Nat
  issue : Nat
  deriving DecidableEq, Repr

/-- A VST that will read its register and write four lines (R57). -/
structure VstOp where
  start : Nat
  va : Nat
  line : Nat
  issue : Nat
  deriving DecidableEq, Repr

/-- A matrix array (R59 to R63, R421).  Active and shadow B words by `32k + n` (default 0), scales by column
(default 0x7F), accumulators by `32 row + column` (default 0), the lines of the B block being loaded. -/
structure MArray where
  split : Nat := 0
  bAct : Tab (BitVec 16) := []
  bSha : Tab (BitVec 16) := []
  sAct : Tab Byte := []
  sSha : Tab Byte := []
  acc : Tab Word := []
  bbuf : Tab Line := []
  bload : Pipe := {}
  drain : Pipe := {}
  mul : Tab Pipe := []
  deriving DecidableEq, Repr

/-- A barrier wait (R72): its group, its limit in ticks (0 none) and the ticks passed. -/
structure Wait where
  pc : Nat
  group : Nat
  limit : Nat
  ticks : Nat
  deriving DecidableEq, Repr

/-- FILL and DRAIN of a line (R118); default FILL 0, DRAIN 1. -/
structure LineSt where
  fill : Bool := false
  drain : Bool := true
  deriving DecidableEq, Repr

/-- The scratchpad registers of R122. -/
structure SpRegs where
  enabled : Bool := false
  rdSeen : Bool := false
  wrSeen : Bool := false
  rdCount : Nat := 0
  wrCount : Nat := 0
  rdLine : Nat := 0
  rdCode : Nat := 0
  rdBeat : Nat := 0
  wrLine : Nat := 0
  wrCode : Nat := 0
  wrBeat : Nat := 0
  cSeen : Bool := false
  cWrite : Bool := false
  cBank : Nat := 0
  cLoser : Nat := 0
  cCount : Nat := 0
  cBeat : Nat := 0
  corr : Nat := 0
  uncorr : Nat := 0
  ueLine : Nat := 0
  ueSeen : Bool := false
  ueBeat : Nat := 0
  lineSel : BitVec 13 := 0
  deriving DecidableEq, Repr

/-- The test state of a tile (R341, R359). -/
inductive TestSt where
  | current | due | overdue | lapsed | testing | suspect
  deriving DecidableEq, Repr

/-- The tile's test registers of R359 and what R338, R341 to R346 keep with them: the region beat at which the test began, the
first line of its area where its window names one, whether it takes in the router's outputs, whether a rerun has room in its
opportunity, and whether one is still to come. -/
structure TestRegs where
  arrSeen : Bool := false
  rtrSeen : Bool := false
  array : Nat := 0
  port : Nat := 0
  arrCount : Nat := 0
  rtrCount : Nat := 0
  resBeat : Nat := 0
  resRegion : Bool := false
  resValid : Bool := false
  st : TestSt := .current
  unpaired : Bool := false
  last : Nat := 0
  place : Nat := 0
  partner : Nat := 0
  tests : Nat := 0
  result : Nat := 0
  opened : Nat := 0
  before : TestSt := .current
  reran : Bool := false
  hit : Bool := false
  beganAt : Nat := 0
  area : Option Nat := none
  routers : Bool := false
  roomy : Bool := true
  rerunDue : Bool := false
  arrTimes : List Nat := []
  rtrTimes : List Nat := []
  deriving DecidableEq, Repr

/-- A tile: sequencer, scalar and vector units, arrays, transfer engines, scratchpad, control-node latches and its
register blocks TIL and TST.  Defaults: program word 0, S and V registers 0, norm sums 0, lines 0, `Ecc.good`. -/
structure Tile where
  st : TileSt := .idle
  owned : Bool := false
  pc : Nat := 0
  loops : List LoopRec := []
  nextIssue : Nat := 0
  beat : Nat := 0
  prog : Tab Dword := []
  progEcc : Tab Ecc := []
  seed : Dword := 0
  gen : Dword := 0
  normIndex : Option Nat := none
  sregs : Tab Word := []
  vregs : Tab VReg := []
  norms : Tab Word := []
  normNew : List Nat := []
  arrays : Tab MArray := []
  vmem : Pipe := {}
  xout : Pipe := {}
  xin : Pipe := {}
  pend : List Pend := []
  rds : List RdReq := []
  wrs : List WrReq := []
  entries : List Entry := []
  drains : List DrainOp := []
  vsts : List VstOp := []
  caps : List (Nat × Nat) := []
  outq : List (Nat × Line × BitVec 16) := []
  sp : Tab Line := []
  spEcc : Tab Ecc := []
  lst : Tab LineSt := []
  err : BitVec 9 := 0
  firstPc : Nat := 0
  swCode : BitVec 16 := 0
  errBeat : Nat := 0
  psSel : BitVec 13 := 0
  xsb : BitVec 16 := 0
  xdrop : Nat := 0
  psCorr : Nat := 0
  wait : Option Wait := none
  latch : Tab Nat := []
  outst : List Nat := []
  phase : Nat := 0
  spr : SpRegs := {}
  test : TestRegs := {}
  dumped : Bool := false
  endSt : Nat := 0
  endBeat : Nat := 0
  endArr : Dword := 0
  deriving DecidableEq, Repr

/-! ## The router (R138 to R158) -/

/-- A word of the data network (R138). -/
structure NWord where
  data : Line := 0
  side : BitVec 16 := 0
  deriving DecidableEq, Repr

/-- A word on its way to an input inside a region: the beat it is presented, in schedule beats, or in region beats
on a transit input. -/
structure InWord where
  beat : Nat
  side : Dir
  transit : Bool
  word : NWord
  deriving DecidableEq, Repr

/-- A border queue and the link before it (R146).  A word is numbered by its sender's full count; its stamp is the
low 8 bits.  Only words that are not idle are listed: `sent` on the link, `held` in the queue.  `arrived` is the
number of the next word to arrive; `gaps` are ranges of numbers that a resynchronisation of the sender skipped. -/
structure BorderQ where
  arrived : Nat := 0
  sent : List (Nat × NWord) := []
  held : List (Nat × NWord) := []
  gaps : List (Nat × Nat) := []
  deriving DecidableEq, Repr

/-- A router: its slot-table banks by position (default 0) and the RTR registers of R158; `spos` is SPOS while no
partition table is in effect (R141, R151).  `bq` is keyed by port,
plus 4 for transit; `assessed` lists the (port, beat) pairs whose lateness is already recorded. -/
structure Router where
  tOut : BitVec 4 := 0
  active : BitVec 5 := 0
  bank0 : Tab Dword := []
  bank1 : Tab Dword := []
  pp0 : Nat := 512
  pp1 : Nat := 512
  tp0 : Nat := 512
  tp1 : Nat := 512
  spos : Nat := 0
  selPos : BitVec 9 := 0
  selBank : Bool := false
  last : Nat := 0
  refused : Bool := false
  count : Nat := 0
  slackN : BitVec 6 := 0
  slackE : BitVec 6 := 0
  slackS : BitVec 6 := 0
  slackW : BitVec 6 := 0
  late : BitVec 4 := 0
  ovr : BitVec 4 := 0
  lateCount : Nat := 0
  overCount : Nat := 0
  lateBeat : Nat := 0
  lateTransit : Bool := false
  lateValid : Bool := false
  pSwaps : Nat := 0
  tSwaps : Nat := 0
  ins : List InWord := []
  bq : Tab BorderQ := []
  assessed : List (Nat × Nat) := []
  deriving DecidableEq, Repr

/-! ## The region: hen, clock and power (R159 to R198, R308 to R333, R341 to R360) -/

/-- A positive or negative fraction, kept unreduced. -/
structure Frac where
  num : Int := 0
  den : Nat := 1
  deriving DecidableEq, Repr

/-- The hold state of R176. -/
inductive HoldSt where
  | running | announced | held | resuming
  deriving DecidableEq, Repr

/-- What a hen keeps for a barrier group (R171 to R173, R182): arrivals, the latest arrival beat, an elected bellwether
(none: the member with the lowest id), and, at the bellwether's hen, the REGION_DONE beats received by region. -/
structure HenBar where
  arrived : Nat := 0
  latest : Nat := 0
  complete : Bool := false
  bellwether : Option Nat := none
  releases : Nat := 0
  bRel : Nat := 0
  done : List (Nat × Nat) := []
  deriving DecidableEq, Repr

/-- The hen's control-network state (R159 to R182). `sched` is the region's schedule count (R43), `run` says a run
is open (R166), `tables` that partition tables are in effect (R151), `held` that the schedule is stopped; `posBase`
and `tBase` are the counts at which SPOS and TPOS were last 0 (R141). -/
structure HenCtl where
  part : Nat := 0
  assigned : Bool := false
  lead : Bool := false
  run : Bool := false
  runGen : BitVec 8 := 0
  sched : Nat := 0
  posBase : Int := 0
  tBase : Nat := 0
  held : Bool := false
  tables : Bool := false
  hstate : HoldSt := .running
  reasons : BitVec 8 := 0
  annHold : Nat := 0
  holds : Nat := 0
  holdBeat : Nat := 0
  resumeBeat : Nat := 0
  atStart : Option Nat := none
  atStop : Option (Nat × Nat) := none
  atHold : Option Nat := none
  atResume : Option Nat := none
  atPSwap : Option Nat := none
  atTSwap : Option Nat := none
  err : BitVec 6 := 0
  errCount : Nat := 0
  stale : Nat := 0
  errBeat : Nat := 0
  errRegion : Bool := false
  errValid : Bool := false
  barSel : BitVec 12 := 0
  bars : Tab HenBar := []
  queue : List Token := []
  lastInject : Option Nat := none
  deriving DecidableEq, Repr

/-- The clock state of R198. -/
inductive ClkSt where
  | locked | acquire | holdover | resync
  deriving DecidableEq, Repr

/-- The oscillator and counts of a region (R183 to R198). `trim` counts steps of 0.05 %, `slowed` the droop steps of
F/40 now applied, `tripped` the detector, `synth` the synthetic ticks in a row, `slipOut` a SLIP request outstanding,
`resyncDue` that the real tick of a resynchronisation has come, `epochAt` the count of the last epoch mark tested. -/
structure HenClk where
  on : Bool := false
  st : ClkSt := .acquire
  count : Nat := 0
  expect : Nat := 0
  tick : Nat := 0
  origin : Nat := 0
  lag : Frac := {}
  maxLag : Int := 0
  slipReqs : Nat := 0
  droops : Nat := 0
  err : BitVec 5 := 0
  errCount : Nat := 0
  errBeat : Nat := 0
  errValid : Bool := false
  parent : Nat := 0
  hops : Nat := 0
  delay : Nat := 0
  trim : Int := 0
  slowed : Nat := 0
  tripped : Bool := false
  rising : Bool := false
  slowing : Bool := false
  curNum : Nat := 1200
  curDen : Nat := 1
  synth : Nat := 0
  switchDue : Bool := false
  slipOut : Bool := false
  resyncDue : Bool := false
  epochAt : Option Nat := none
  deriving DecidableEq, Repr

/-- STATE of the region record (R39, R313). -/
inductive RegSt where
  | normal | capped | dark | isolated
  deriving DecidableEq, Repr

/-- DARK_CAUSE of R332. -/
inductive DarkCause where
  | none | phases | heat | trip | coolant | off
  deriving DecidableEq, Repr

/-- A learned current in 0.1 A (R321). -/
structure Learn where
  value : Frac := {}
  seeded : Bool := false
  n : Nat := 0
  deriving DecidableEq, Repr

/-- A region's rails, limits and heat (R311 to R332). Currents are in 0.1 A, voltages in mV.  `heatOff`, `tripOff` and
`coolOff` say that heat, a thermal trip or the coolant holds the region off; `nextBudget` is a BUDGET for an interval that
has not begun (its number's low 8 bits, budget, duty). -/
structure HenPwr where
  st : RegSt := .normal
  cause : DarkCause := .none
  crack : Bool := false
  rampWait : Bool := false
  ramping : Bool := false
  halfRate : Bool := false
  feedOwn : Bool := true
  feedNb : Bool := true
  phFailed : BitVec 64 := 0
  topMhz : Nat := 1300
  limitA : Nat := 330
  budget : Nat := 0
  pred : Nat := 0
  duty : Nat := 0
  phase : Nat := 0
  interval : Nat := 0
  iAvg : Nat := 0
  iPeak : Nat := 0
  vSet : Nat := 0
  vMin : Nat := 0
  tMax : BitVec 8 := 0
  tHigh : BitVec 8 := 0
  hot : Nat := 0
  drop : Nat := 0
  base : Nat := 0
  ratio : Nat := 0
  streak : Nat := 0
  streak25 : Nat := 0
  err : BitVec 8 := 0
  errCount : Nat := 0
  errTime : Nat := 0
  errValid : Bool := false
  learnSel : BitVec 8 := 0
  learn : Tab Learn := []
  heldLearn : Learn := {}
  railOff : Bool := false
  railUp : Bool := false
  reEnabled : Bool := false
  reTime : Nat := 0
  noReturn : Bool := false
  learnOn : Bool := false
  rampSince : Nat := 0
  tripTime : Nat := 0
  wantDark : Option DarkCause := none
  darkTime : Nat := 0
  derate : Option Nat := none
  near255 : Bool := false
  heatOff : Bool := false
  tripOff : Bool := false
  coolOff : Bool := false
  nextBudget : Option (Nat × Nat × Nat) := none
  heldPower : Bool := false
  deriving DecidableEq, Repr

/-- The hen's test registers (R346, R360). -/
structure HenTest where
  pending : Bool := false
  coord : Bool := false
  coordRegion : Nat := 0
  noPause : Bool := false
  lapses : Nat := 0
  waiting : List Nat := []
  failed : Bool := false
  tested : Nat := 0
  deriving DecidableEq, Repr

/-- The telemetry frame pair (R131, R333): the fill bank's index, the frame of each bank and the sequence number, and what
the frame being filled counts: beats, held beats' time in femtoseconds, whether the region was held, droop trips, whether a
droop response was active, the lowest rate in MHz, cell-beats not gated and vector instructions issued. -/
structure Telemetry where
  fill : Bool := false
  bank0 : BitVec 1024 := 0
  bank1 : BitVec 1024 := 0
  seq : BitVec 32 := 0
  beats : Nat := 0
  heldFs : Nat := 0
  held : Bool := false
  droops : Nat := 0
  droop : Bool := false
  minMhz : Option Nat := none
  cells : Nat := 0
  vecs : Nat := 0
  deriving DecidableEq, Repr

/-- A region (R22). -/
structure Region where
  ctl : HenCtl := {}
  clk : HenClk := {}
  pwr : HenPwr := {}
  test : HenTest := {}
  tlm : Telemetry := {}
  faults : GQueue := { n := 8 }
  missedPolls : Nat := 0
  henBad : Bool := false
  deriving DecidableEq, Repr

/-! ## Edges, stacks and pages (R199 to R225) -/

/-- A share register pair (R225). -/
structure Share where
  part : Nat := 0
  valid : Bool := false
  base : Nat := 0
  mib : Nat := 0
  descBase : Nat := 0
  descCount : Nat := 0
  period : Nat := 0
  deriving DecidableEq, Repr

/-- An edge port: two banks by position (default 0), periods, steps, running offset and position (R210, R211), and the
beats at which a staging miss and a late word were last recorded. -/
structure EPort where
  bank0 : Tab (BitVec 32) := []
  bank1 : Tab (BitVec 32) := []
  per0 : Nat := 512
  per1 : Nat := 512
  step0 : Nat := 0
  step1 : Nat := 0
  active : Bool := false
  pos : Nat := 0
  off : Nat := 0
  bq : BorderQ := {}
  assessed : Option Nat := none
  lateAt : Option Nat := none
  deriving DecidableEq, Repr

/-- A descriptor pass that has started (R213): share, descriptor, pass number, the next line to ask for, of another device
(REMOTE) or of another site, and the (tag, line, lines) of its ring requests not yet answered (R216). -/
structure Pass where
  share : Nat
  desc : Nat
  k : Nat
  next : Nat
  asks : List (Nat × Nat × Nat) := []
  deriving DecidableEq, Repr

/-- The staging buffer (by line, default 0), ox and edge tables of an edge (R209 to R217). `served` gives, by
descriptor, the number of passes completed; `lateAt` the passes that asked for a hold. -/
structure Edge where
  lines : Tab Line := []
  share0 : Share := {}
  share1 : Share := {}
  descs : Tab OxDesc := []
  ports : Tab EPort := []
  passes : List Pass := []
  served : Tab Nat := []
  lateAt : List (Nat × Nat) := []
  holding : Bool := false
  late : Bool := false
  miss : Bool := false
  refused : Bool := false
  lateCount : Nat := 0
  missCount : Nat := 0
  beat : Nat := 0
  beatShare : Bool := false
  beatValid : Bool := false
  estPort : Nat := 0
  estPos : Nat := 0
  estBank : Bool := false
  last : Nat := 0
  pageSel : Nat := 0
  blockBad : Bool := false
  queue : List Token := []
  lastInject : Option Nat := none
  nextTag : Nat := 0
  deriving DecidableEq, Repr

/-- STATE of an HBM site record. -/
inductive SiteSt where
  | ok | degraded | failed | absent
  deriving DecidableEq, Repr

/-- An HBM site (R199 to R208, R225). `chans` is the interleave's channel list of the last boot, `bootFailed` says
the stack was FAILED then. Rows are (channel, bank, row): `repaired` in service, `hardRows` at earlier boots; `corrRows`
adds the time of a corrected report. -/
structure Site where
  st : SiteSt := .ok
  mbps : Nat := 0
  chans : List Nat := []
  bootFailed : Bool := false
  chFailed : BitVec 32 := 0
  chRepaired : BitVec 32 := 0
  corr : Nat := 0
  uncorr : Nat := 0
  soft : Nat := 0
  hard : Nat := 0
  corrRows : List (Nat × Nat × Nat × Nat) := []
  repairing : List (Nat × Nat × Nat) := []
  repaired : List (Nat × Nat × Nat) := []
  hardRows : List (Nat × Nat × Nat) := []
  halfSlots : Bool := false
  oxq : GQueue := { n := 10 }
  edge : Edge := {}
  deriving DecidableEq, Repr

/-- A page hand-over or freeing in progress (R223, R224): the page, the new owner and mode, the port and request of a
fabric hand-over, or the ring command that waits. -/
structure HandOver where
  page : Nat
  dev : Nat
  part : Nat
  mode : BitVec 2
  zeroing : Bool
  port : Option Nat
  req : List Line
  fn : Option Nat
  cid : Nat
  deriving DecidableEq, Repr

/-! ## The Irant fabric (R226 to R260) -/

/-- Port states of R259. -/
inductive PortSt where
  | dark | training | qualifying | ready | up | retraining | down | retired
  deriving DecidableEq, Repr

/-- A lane: its state and its error rate are derived; these are its measures (R256, R259): the symbols corrected, the bit
errors of the last second by tick, and the uncorrectable codewords in a row. -/
structure Lane where
  symCorr : Nat := 0
  errs : List (Nat × Nat) := []
  badRun : Nat := 0
  deriving DecidableEq, Repr

/-- The four credit pools' totals (R232). -/
structure Credits where
  reqL : Nat := 0
  reqT : Nat := 0
  rsp : Nat := 0
  col : Nat := 0
  deriving DecidableEq, Repr

/-- An Irant port (R226 to R232, R253 to R259). `inService` lists the lanes in service, `rx` the accepted packets not
yet handled with the device time of their arrival, `reqs` the (source, tag, timestamp of arrival) of the requests not yet answered,
`txq` the packets waiting for credit with their inputs (48 + d is die d itself), `rr` the input last served by class, `replay`
the unacknowledged packets, `out` the packets sent, in order; `frames` the codewords, as (frame, lane, flits), of frames not
yet whole; `mapOwn` says that the change of lanes under way was named here. -/
structure Port where
  st : PortSt := .dark
  inService : List Nat := [0, 1, 2, 3, 4, 5, 6, 7]
  retired : BitVec 9 := 0
  peerDev : Nat := 0
  peerPort : Nat := 0
  peerCap : Nat := 0
  peerKey : Dword × Nat := (0, 0)
  departRx : Nat := 0
  cwUncorr : Nat := 0
  crcErr : Nat := 0
  replays : Nat := 0
  laneRetires : Nat := 0
  lanes : Tab Lane := []
  txLseq : Nat := 0
  rxLseq : Nat := 0
  acked : Nat := 0
  nakked : Bool := false
  rx : List (Dword × List Line) := []
  reqs : List (Nat × Nat × Nat) := []
  txq : List (Nat × List Line) := []
  rr : Tab Nat := []
  replay : List (List Line) := []
  out : List (List Line) := []
  freed : Credits := {}
  freedSent : Credits := {}
  peerFreed : Credits := {}
  used : Credits := {}
  frame : Nat := 0
  frames : List (Nat × Nat × List Line) := []
  tail : List Line := []
  mapAt : Option (Nat × BitVec 9) := none
  mapOwn : Bool := false
  sentAdmit : Bool := false
  gotAdmit : Bool := false
  draining : Bool := false
  full : Bool := false
  departed : Bool := false
  downByDepart : Bool := false
  failedQual : Bool := false
  autoTime : Option Nat := none
  gmDev : Nat := 0
  gmValid : Bool := false
  gmHops : Nat := 15
  gmSeen : Nat := 0
  deriving DecidableEq, Repr

/-- An outstanding request of an I/O die's request engine (R243, R245): its tag, destination, operation, and the
descriptor pass and staging lines it serves. -/
structure OutReq where
  tag : Nat
  dst : Nat
  op : Nat
  edge : EdgeId
  share : Nat
  desc : Nat
  line : Nat
  lines : Nat
  fill : Bool
  deriving DecidableEq, Repr

/-- STATE of an I/O die record. -/
inductive IodSt where
  | running | transitOnly | dark | absent
  deriving DecidableEq, Repr

/-- An I/O die (R246 to R260). `route` is keyed by device, PRIMARY in [5:0] and ALT in [11:6] (default 63, 63).
`hotOnly` says TRANSIT_ONLY is for heat, `coolOnly` for coolant. -/
structure Iod where
  st : IodSt := .running
  capLevel : Nat := 0
  quiesce : Bool := false
  gmSelf : Bool := false
  portSel : BitVec 4 := 0
  laneSel : BitVec 4 := 0
  routeSel : BitVec 13 := 0
  route : Tab (BitVec 12) := []
  outstanding : List OutReq := []
  oldTags : List (Nat × Nat) := []
  nextTag : Nat := 0
  timeouts : Nat := 0
  lateRsp : Nat := 0
  nacks : Nat := 0
  expired : Nat := 0
  quiesced : Nat := 0
  malformed : Nat := 0
  denied : Nat := 0
  transit : Nat := 0
  noRoute : Nat := 0
  dropped : Nat := 0
  hotOnly : Bool := false
  coolOnly : Bool := false
  laneOnly : Bool := false
  darkTillBoot : Bool := false
  edge : Edge := {}
  fq : Tab GQueue := []
  colSel : BitVec 6 := 0
  stale : Nat := 0
  duplicate : Nat := 0
  deriving DecidableEq, Repr

/-! ## Collectives (R261 to R283) -/

/-- One rank's contribution to a chunk, or a result's data: the sender's rank, its data lines, element count and
digest. -/
structure Contrib where
  chunk : Nat
  rank : Nat
  elems : Nat
  data : List Line
  time : Dword
  digest : Dword
  deriving DecidableEq, Repr

/-- A chunk result received or made (R273): COUNT, data, T_LAST, and the contributors' bitmap once known. -/
structure ChunkRes where
  chunk : Nat
  owner : Nat
  count : Nat
  elems : Nat
  data : List Line
  time : Dword
  digest : Dword
  ranks : List Nat
  rosters : List Nat
  deriving DecidableEq, Repr

/-- An operation of a channel (R264, R270 to R277). `started` says its pass has fallen due here; packets of a later pass
may come before. A chunk's key is its number, or `rank × L + number` for ALL_GATHER; `applied` lists the keys written,
`missing` those given up. `sentDig` and `rcvdDig` hold (0 CONTRIB or 1 RESULT, rank, chunk, digest) and `rejected` the
(kind, rank) of rejected packets, `lateRx` the ranks of late ones. -/
structure ColOp where
  seq : Nat
  desc : Nat
  started : Bool
  tStart : Dword
  contribs : List Contrib
  opened : List (Nat × Dword)
  closed : List Nat
  results : List ChunkRes
  rosters : List (Nat × Nat × List Nat)
  applied : List Nat
  missing : List Nat
  partialN : Nat
  countMin : Nat
  countMax : Nat
  lateSent : Nat
  lateFlag : Bool
  rejectFlag : Bool
  refused : Bool
  present : List Nat
  sentTimes : List (Nat × Dword)
  sentDig : List (Nat × Nat × Nat × Dword)
  rcvdDig : List (Nat × Nat × Nat × Dword)
  rejected : List (Nat × Nat)
  lateRx : List (Nat × Nat)
  deriving DecidableEq, Repr

/-- Channel states of R283. -/
inductive ChanSt where
  | idle | active | aborted
  deriving DecidableEq, Repr

/-- A collective channel. `passes` gives by descriptor the number of passes taken; `seen` lists the contributions (0) and
results (1) received, as (SEQ, kind, CHUNK, sender). -/
structure Chan where
  st : ChanSt := .idle
  seen : List (Nat × Nat × Nat × Nat) := []
  part : Nat := 0
  home : Nat := 0
  n : Nat := 0
  rank : Nat := 0
  ranks : List (Nat × Nat) := []
  seed : Dword := 0
  seqBase : BitVec 32 := 0
  next : BitVec 32 := 0
  done : BitVec 32 := 0
  descs : List ColDesc := []
  passes : Tab Nat := []
  ops : List ColOp := []
  lateRx : Nat := 0
  lateTx : Nat := 0
  digestRej : Nat := 0
  missing : Nat := 0
  slack : BitVec 32 := 0
  deriving DecidableEq, Repr

/-- The digest log of I/O die 0 (R131, R279 to R283): entries of 256 bits by index in each bank (default 0). -/
structure DigestLog where
  bank0 : Tab (BitVec 256) := []
  bank1 : Tab (BitVec 256) := []
  fill : Bool := false
  entries : Nat := 0
  seq0 : BitVec 32 := 0
  seq1 : BitVec 32 := 0
  freeze : Bool := false
  discards : Nat := 0
  selEntry : BitVec 15 := 0
  selBank : Bool := false
  deriving DecidableEq, Repr

/-! ## Partitions, functions and sessions (R361 to R396) -/

/-- STATE of HST_RUN (R396). -/
inductive RunSt where
  | empty | loading | loaded | starting | running | ending
  deriving DecidableEq, Repr

/-- The lead hen's collection of one phase id's norm reports (R99): the occurrence being collected, the pairs received
as (occurrence, norm index, tag, weight, update) and the number of reports each norm index has ended. -/
structure NormOcc where
  occurrence : Nat := 1
  pairs : List (Nat × Nat × Nat × Word × Word) := []
  ends : Tab Nat := []
  deriving DecidableEq, Repr

/-- A partition with its image and run. `claimed` lists the pages a load took from FREE; `resetCid` is the ring command
that waits for a reset or teardown, `destroying` says a teardown is in progress and `freeing` its pages;
`runHidden` that an FLR reset HST_RUN
since the last run started (R382). -/
structure Part where
  live : Bool := false
  cx0 : Nat := 0
  cy0 : Nat := 0
  cx1 : Nat := 0
  cy1 : Nat := 0
  st : RunSt := .empty
  endReason : Nat := 0
  dump : Nat := 0
  runNo : BitVec 32 := 0
  runHidden : Bool := false
  img : Option Image := none
  owned : List Nat := []
  loader : Option Nat := none
  dumpAllowed : Bool := false
  dumpWindow : Nat := 0
  claimed : List Nat := []
  loadCid : Option Nat := none
  loadSince : Option Nat := none
  /-- Bytes of the window that IMAGE_LOAD names, taken as it starts (R377). -/
  loadLen : Nat := 0
  startCid : Option Nat := none
  startTime : Dword := 0
  killCid : Option Nat := none
  stopAt : Option (Nat × Nat) := none
  pendingReason : Nat := 0
  resetCid : Option Nat := none
  destroying : Bool := false
  aborting : Bool := false
  freeing : List Nat := []
  normq : GQueue := { n := 12 }
  norm : Tab NormOcc := []
  altAt : Option Nat := none
  deriving DecidableEq, Repr

/-- A ring entry as fetched (R372): the SQ head after its fetch and, where it is refused, status and DETAIL. -/
structure Fetched where
  entry : SqEntry
  head : Nat
  rej : Option (Nat × Nat)
  deriving DecidableEq, Repr

/-- A DMA in progress (R375, R379): its ring command, the host address and the device offset it starts at; the bytes asked
for and moved so far, the offset at which it was refused, with the status, and the first offset read with an uncorrectable
error. -/
structure Dma where
  cid : BitVec 16
  head : Nat
  toDevice : Bool
  window : Nat
  host : Nat
  devOff : Nat
  length : Nat
  asked : Nat := 0
  moved : Nat := 0
  stop : Option (Nat × Nat) := none
  bad : Option Nat := none
  deriving DecidableEq, Repr

/-- A completion of R375, with its SQ_HEAD. -/
structure CqEntry where
  cid : BitVec 16
  head : Nat
  status : Nat
  detail : Nat
  result : Dword
  info : Dword
  deriving DecidableEq, Repr

/-- A host function's page and rings (R362, R371 to R377, R396). `queue` holds fetched commands that have not
started; `waitCq` completions that found the CQ full; `busy` a ring command other than a DMA that has started and not
completed; `unreg` by window the CID and SQ head of an unregistration that waits for its users. -/
structure Fn where
  enabled : Bool := false
  ring : Option Nat := none
  fabric : Option Nat := none
  sqLog : Nat := 4
  sqOn : Bool := false
  sqBase : BitVec 52 := 0
  cqLog : Nat := 4
  cqOn : Bool := false
  cqBase : BitVec 52 := 0
  sqTail : Nat := 0
  sqHead : Nat := 0
  sqPhase : Bool := true
  cqHead : Nat := 0
  cqTail : Nat := 0
  cqPhase : Bool := true
  events : BitVec 8 := 0
  mask : BitVec 8 := 0
  queue : List Fetched := []
  dmas : List Dma := []
  busy : Option Fetched := none
  waitCq : List CqEntry := []
  windows : Tab (Option (Nat × Nat)) := []
  unreg : Tab (Option (Nat × Nat)) := []
  deriving DecidableEq, Repr

/-- A requester key slot (R368). -/
structure KeySlot where
  key : List Byte
  role : Role
  mask : BitVec 16
  deriving DecidableEq, Repr

/-- An SPDM session (R367 to R370): its key slot, role and mask, whether FINISH has completed the handshake, and the
time of its last message in ticks. -/
structure Session where
  slot : Nat
  role : Role
  mask : BitVec 16
  finished : Bool
  lastTime : Nat
  keyGen : Nat
  deriving DecidableEq, Repr

/-! ## The management controller (R284 to R307, R353 to R358, R393 to R395) -/

/-- The fuse map of a half (R293): whether its check code holds, its stepping and serial, and the bad-unit lists and seam
spares of wafer test, in physical positions of its own mask set (R10). -/
structure HalfFuses where
  checkOk : Bool := true
  step : Nat := 2
  serial : BitVec 32 := 0
  tiles : List Nat := []
  routers : List Nat := []
  hens : List Nat := []
  phases : List (Nat × Nat) := []
  staging : List Nat := []
  seamSpares : List SeamGroup := []
  deriving DecidableEq, Repr

/-- The fuses of the module (R293): the part, the two halves' maps, and of the I/O dies by site the check codes, types,
serials and the dies whose staging block is bad. -/
structure Fuses where
  nStacks : Nat
  iods : Nat
  gradeB : Bool
  serial : Dword
  west : HalfFuses
  east : HalfFuses
  iodOk : BitVec 4
  iodS : BitVec 4
  serialIods : Tab (BitVec 32)
  iodStaging : List Nat
  offsets : Tab Int
  deriving DecidableEq, Repr

/-- A field defect log entry (R298). -/
structure FdlEntry where
  boot : Nat
  kind : Nat
  finding : Nat
  index : BitVec 32
  time : Nat
  deriving DecidableEq, Repr

/-- A lane group record (R40). -/
structure LaneGrp where
  type : Nat := 0
  dir : Nat := 0
  instNo : Nat := 0
  lanes : Nat := 0
  spTotal : Nat := 0
  spUsed : Nat := 0
  failed : Nat := 0
  st : Nat := 0
  changedAt : Nat := 0
  deriving DecidableEq, Repr

/-- A region record (R39). -/
structure RegRec where
  phFailed : BitVec 64 := 0
  st : Nat := 0
  topMhz : Nat := 0
  feed : Nat := 0
  crack : Bool := false
  limitA : Nat := 0
  good : Nat := 0
  deriving DecidableEq, Repr

/-- An HBM site record. -/
structure SiteRec where
  fitted : Bool := false
  st : Nat := 0
  chFailed : BitVec 32 := 0
  chRepaired : BitVec 32 := 0
  gib : Nat := 0
  mbps : Nat := 0
  deriving DecidableEq, Repr

/-- An I/O die record. -/
structure IodRec where
  fitted : Bool := false
  isS : Bool := false
  st : Nat := 0
  capLevel : Nat := 0
  portsUp : BitVec 12 := 0
  deriving DecidableEq, Repr

/-- The contents of the as-built map (R33 to R40): tile STATE and ROUTER_OK bytes by tile (default GOOD with
ROUTER_OK), link bytes by tile (default all OK), and the records. -/
structure Floor where
  tiles : Tab (BitVec 8) := []
  links : Tab (BitVec 8) := []
  regions : Tab RegRec := []
  sites : Tab SiteRec := []
  iods : Tab IodRec := []
  lanes : Tab LaneGrp := []
  numLevel : Nat := 0
  changedAt : Nat := 0
  deriving DecidableEq, Repr

/-- The units as found so far: tile states (0 GOOD, 1 FAULTY, 2 FAILED, 3 RETIRED), routers found bad for life,
link states by `4 tile + port` as sent from that port (each direction its own, R39), seam groups whose spare is used,
lost or that carry a FAILING wire, the wires of any kind that hold a spare, with the spare's number, in the order of
assignment (R25), the wires in service as FAILING or left without a spare, the spares that cannot be used and those of
them that were in use, I/O-to-half directions that are DOWN, ring segments and control crossings. `corrections` counts each
wire's corrections, `recent` has those of the last 1 s with their ticks (R350, R351). -/
structure Units where
  tiles : Tab Nat := []
  badRouters : List Nat := []
  planeLost : List Nat := []
  links : Tab Nat := []
  seamUsed : List SeamGroup := []
  seamDead : List SeamGroup := []
  seamFailing : List SeamGroup := []
  spared : List (WireId × Nat) := []
  badWires : List WireId := []
  badSpares : List WireId := []
  spent : List WireId := []
  laneDown : List (Nat × Nat) := []
  doubles : List (Nat × Nat × Nat) := []
  corrections : List (WireId × Nat) := []
  recent : List (WireId × Nat × Nat) := []
  segments : List Nat := []
  northBad : Bool := false
  southBad : Bool := false
  xjoin : Bool := false
  bist : Option BistFindings := none
  deriving DecidableEq, Repr

/-- A firmware slot in flash: its bytes, and whether it holds a committed image. -/
structure FwSlot where
  bytes : List Host.Cell := []
  valid : Bool := false
  failed : Bool := false
  deriving DecidableEq, Repr

/-- A saved training record (R300): its key (module serial, the link as kind and number, band, and a port's peer), its
training format, and whether its check code holds. -/
structure SavedLink where
  serial : Dword
  kind : Nat
  no : Nat
  band : Nat
  peerSerial : Dword
  peerPort : Nat
  format : Nat
  ok : Bool
  deriving DecidableEq, Repr

/-- Live activation states of R291. -/
inductive ActSt where
  | none | running | done | failed
  deriving DecidableEq, Repr

/-- A CPER record waiting to be merged or exported (R355, R356). -/
structure Cper where
  source : Nat
  kind : Nat
  cause : Nat
  unitKind : Nat
  finding : Nat
  action : Nat
  unit : BitVec 32
  part : Nat
  attributed : Bool
  runGen : BitVec 8
  time : Nat
  beat : Nat
  regionBeat : Bool
  count : Nat
  severity : Nat
  mapGen : Nat
  deriving DecidableEq, Repr

/-- The management controller: the boot, firmware, mode, power-cap, end-of-life, mailbox and export registers of R394,
the flash it keeps, and device time. -/
structure Mgt where
  powered : Bool := true
  stage : Nat := 0
  ready : Bool := false
  recovery : Bool := false
  restore : Bool := false
  slot : Bool := false
  fail : Nat := 0
  stopped : Bool := false
  retried : Bool := false
  boot : Nat := 0
  restarts : Nat := 0
  fuses : Fuses
  slotA : FwSlot := {}
  slotB : FwSlot := {}
  cfgSlot : Bool := false
  cfgRestore : Bool := false
  cfgStriped : Bool := false
  bootStriped : Bool := false
  svn : BitVec 32 := 0
  act : ActSt := .none
  actTime : Nat := 0
  actLast : Nat := 0
  numLevel : Nat := 0
  fixed : Bool := false
  ilv : Bool := false
  fixedMhz : Nat := 1200
  fixedOn : Bool := false
  modeWait : Bool := false
  modeLast : Nat := 0
  fMhz : Nat := 1200
  fNext : Option (Nat × Nat) := none
  striped : Bool := false
  hostCap : Nat := 0
  fmCap : Nat := 0
  hostStatus : Nat := 0
  fmStatus : Nat := 0
  appliedW : Nat := 0
  hostApplied : Nat := 0
  fmApplied : Nat := 0
  floorW : Nat := 0
  demandW : Nat := 0
  slacks : List (Nat × Int) := []
  interval : Nat := 0
  reports : Tab (Nat × Nat × Nat) := []
  excessW : Nat := 0
  budgets : Tab Nat := []
  warnCond : BitVec 10 := 0
  eolCond : BitVec 10 := 0
  cperq : GQueue := { n := 10 }
  cperHeld : List Cper := []
  cperId : Nat := 0
  mbox0 : Tab Byte := []
  mbox1 : Tab Byte := []
  mboxFill : Bool := false
  mboxBusy : Bool := false
  mboxRefused : Bool := false
  swaps : BitVec 32 := 0
  fdl : List FdlEntry := []
  keys : Tab (Option KeySlot) := []
  imageKeys : Tab (List Byte) := []
  saved : List SavedLink := []
  bands : Tab Nat := []
  fullLinks : List (Nat × Nat) := []
  tickIns : List (Nat × Nat × Nat) := []
  dropBins : Tab (List (Nat × Nat)) := []
  gen : BitVec 32 := 0
  pub : Option Floor := none
  nextTick : Nat := 0
  originSet : Bool := false
  refLost : Bool := false
  refLostInTraining : Bool := false
  freeze : Nat := 0
  step : Nat := 0
  slewPs : Int := 0
  fabricLock : Bool := false
  lockSince : Option Nat := none
  frameTime : Nat := 0
  offsetNs : Int := 0
  measOffset : BitVec 32 := 0
  measDelay : BitVec 32 := 0
  parent : Nat := 63
  hops : Nat := 15
  gmDev : Nat := 0
  gmValid : Bool := false
  devId : BitVec 13 := 0
  devValid : Bool := false
  devRefused : Bool := false
  devPrevs : List Nat := []
  devRewriting : Bool := false
  fmDevs : BitVec 64 := 0
  coolantLost : Option Nat := none
  railsOffW : Bool := false
  railsOffE : Bool := false
  coolantOk : Bool := true
  perstLow : Bool := true
  perstPin : Bool := false
  perstWindow : Bool := true
  pcieTraining : Bool := false
  /-- PERST_N has risen, and training waits for a stable reference (R407). -/
  pcieWait : Bool := false
  pwrOk : Bool := false
  i3c : Option (BitVec 7) := none
  darkened : Bool := false
  bistRuns : Nat := 0
  bistTime : Nat := 0
  accSeen : Bool := false
  accStatus : Nat := 0
  accFn : Nat := 0
  accCount : Nat := 0
  accAddr : BitVec 40 := 0
  queue : List Token := []
  lastInject : Option Nat := none
  spdmOut : List (List Byte) := []
  deriving DecidableEq, Repr

/-! ## The whole module -/

/-- The state.  Tables by number: tiles by tile id, routers by tile id, regions, HBM sites, I/O dies, Irant ports by
module port number, channels, partitions, functions, sessions.  `pages` holds the page records, the master copy and
every replica being equal (log entry 9); `hbm` the stacks' bytes keyed `site × 2^36 + channel × 2^31 + channel offset`; `host` the
host memory as the module has read and written it; `flight` the tokens sent and not yet received; `msix` the messages
sent as (function, vector), oldest first; `free` counts the free values drawn (the model's own field). -/
structure State where
  pending : List Instr
  mgt : Mgt
  units : Units
  tiles : Tab Tile
  routers : Tab Router
  regions : Tab Region
  sites : Tab Site
  iods : Tab Iod
  ports : Tab Port
  pages : Tab (BitVec 32)
  moves : List HandOver
  hbm : List Host.Cell
  chans : Tab Chan
  dlog : DigestLog
  parts : Tab Part
  fns : Tab Fn
  sessions : Tab (Option Session)
  host : List Host.Cell
  flight : List (NodeId × Token)
  credits : Tab Nat
  ringSent : Tab Nat
  ringFreed : Tab Nat
  msix : List (Nat × Nat)
  free : Nat
  deriving DecidableEq, Repr

/-- Why a step stops. -/
inductive Fault where
  /-- Raised by a meaning whose operand names a unit the module cannot have: a tile of 20,000 or more, a region of 40
  or more, and so on (R8 to R15).  Safe: the spec gives such a unit no meaning. -/
  | noSuchUnit
  deriving DecidableEq, Repr

/-- Why a command has no meaning. -/
inductive Refusal where
  /-- Raised by an arm of `exec` whose command has no meaning yet.  Safe: nothing runs. -/
  | notModelled (mnemonic : String)
  deriving DecidableEq, Repr

/-- The fuses of the module that is modelled: an XD-40-M16I4-A with B0 halves and IOD-X dies, no bad unit
(log entry 2). -/
def fusesReset : Fuses where
  nStacks := 16
  iods := 4
  gradeB := false
  serial := 0
  west := {}
  east := {}
  iodOk := 15
  iodS := 0
  serialIods := []
  iodStaging := []
  offsets := []

/-- The module right after power-on reset, in bring-up stage 0 (R19, R284). -/
def State.reset : State where
  pending := []
  mgt := { fuses := fusesReset }
  units := {}
  tiles := []
  routers := []
  regions := []
  sites := []
  iods := []
  ports := []
  pages := []
  moves := []
  hbm := []
  chans := []
  dlog := {}
  parts := []
  fns := []
  sessions := []
  host := []
  flight := []
  credits := []
  ringSent := []
  ringFreed := []
  msix := []
  free := 0

end Sys2Proof.Machine
end

