-- ==== Sys2Proof/Machine/Ops.lean ====
section
/-!
DEFINITION. The shared operations: sparse tables, bit fields, memories, queues, units by number, free values, checks
of codes, and the sending and recording of control-network tokens and faults.
-/
namespace Sys2Proof

/-! ## Sparse tables -/

/-- The member `n`, or the default. -/
def Tab.look {α : Type} (d : α) : Tab α → Nat → α
  | [], _ => d
  | (k, v) :: t, n => if k = n then v else Tab.look d t n

/-- The table without member `n`. -/
def Tab.drop {α : Type} (t : Tab α) (n : Nat) : Tab α := t.filter fun p => decide (p.1 ≠ n)

/-- The table with member `n` put in its place. -/
def Tab.ins {α : Type} : Tab α → Nat → α → Tab α
  | [], n, v => [(n, v)]
  | (k, x) :: t, n, v => if n < k then (n, v) :: (k, x) :: t else (k, x) :: Tab.ins t n v

/-- The table with member `n` equal to `v`; a default value is not listed. -/
def Tab.put {α : Type} [DecidableEq α] (d : α) (t : Tab α) (n : Nat) (v : α) : Tab α :=
  if v = d then t.drop n else (t.drop n).ins n v

/-- The canonical form: numbers strictly rising, no default listed. -/
abbrev Tab.Canonical {α : Type} [DecidableEq α] (d : α) (t : Tab α) : Prop :=
  t.Pairwise (fun a b => a.1 < b.1) ∧ ∀ p ∈ t, p.2 ≠ d

/-- Members `base` onward set from a list, in order. -/
def Tab.putAll {α : Type} [DecidableEq α] (d : α) (t : Tab α) (base : Nat) : List α → Tab α
  | [] => t
  | v :: vs => Tab.putAll d (t.put d base v) (base + 1) vs

/-- The table with the members `lo` to `hi - 1` back at the default. -/
def Tab.clear {α : Type} (t : Tab α) (lo hi : Nat) : Tab α :=
  t.filter fun p => decide (p.1 < lo) || decide (hi ≤ p.1)

/-- A table made from a list of pairs. -/
def Tab.ofList {α : Type} [DecidableEq α] (d : α) (l : List (Nat × α)) : Tab α :=
  l.foldl (fun t p => t.put d p.1 p.2) []

namespace Machine

/-! ## Bit fields -/

/-- Bits `hi` to `lo` as a number. -/
def bits {w : Nat} (v : BitVec w) (hi lo : Nat) : Nat := (v.extractLsb' lo (hi - lo + 1)).toNat

/-- Bit `i` as a number. -/
def bitN {w : Nat} (v : BitVec w) (i : Nat) : Nat := if v.getLsbD i then 1 else 0

/-- A truth value as a bit. -/
def b2n (b : Bool) : Nat := if b then 1 else 0

/-- A word made of fields given as (lowest bit, value); the fields do not overlap. -/
def pack {w : Nat} (l : List (Nat × Nat)) : BitVec w :=
  l.foldl (fun a p => a ||| (BitVec.ofNat w p.2 <<< p.1)) 0#w

/-- `v` with the `n` bits from `lo` replaced by those of `x`. -/
def setField {w : Nat} (v : BitVec w) (lo n x : Nat) : BitVec w :=
  let m := BitVec.ofNat w (2 ^ n - 1) <<< lo
  (v &&& ~~~m) ||| ((BitVec.ofNat w x <<< lo) &&& m)

/-- Bit `i` set. -/
def setBit {w : Nat} (v : BitVec w) (i : Nat) : BitVec w := v ||| (1#w <<< i)

/-- Bit `i` cleared. -/
def clearBit {w : Nat} (v : BitVec w) (i : Nat) : BitVec w := v &&& ~~~(1#w <<< i)

/-- A counter that saturates at 65,535. -/
def sat16 (n : Nat) : Nat := min n 65535

/-- The number of set bits. -/
def popcount {w : Nat} (v : BitVec w) : Nat :=
  (List.range w).foldl (fun n i => n + bitN v i) 0

/-- The integer square root, by bisection over `fuel` bits. -/
def isqrtAux (n : Nat) : Nat → Nat → Nat
  | 0, r => r
  | k + 1, r => let c := r + 2 ^ k; isqrtAux n k (if c * c ≤ n then c else r)

/-- ⌊√n⌋. -/
def isqrt (n : Nat) : Nat := isqrtAux n (n.log2 / 2 + 1) 0

/-! ## Bytes and lines -/

/-- The little-endian number of a list of bytes (R16). -/
def leNat : List Byte → Nat
  | [] => 0
  | b :: bs => b.toNat + 256 * leNat bs

/-- The `n` little-endian bytes of a number (R16). -/
def leBytes : Nat → Nat → List Byte
  | 0, _ => []
  | n + 1, v => BitVec.ofNat 8 v :: leBytes n (v / 256)

/-- Byte `k` of a line. -/
def lineByte (l : Line) (k : Nat) : Byte := l.extractLsb' (8 * k) 8

/-- The 64 bytes of a line. -/
def lineBytes (l : Line) : List Byte := (List.range 64).map (lineByte l)

/-- A line of up to 64 bytes, the rest zero. -/
def lineOf (bs : List Byte) : Line := BitVec.ofNat 512 (leNat (bs.take 64))

/-- The lines of a string of bytes, the last filled up with zero. -/
def linesOf (bs : List Byte) : Nat → List Line
  | 0 => []
  | n + 1 => lineOf bs :: linesOf (bs.drop 64) n

/-- A 64-bit mask as a mask of line bits: bit `k` covers byte `k`. -/
def byteMask (m : BitVec 64) : Line :=
  (List.range 64).foldl (fun a k => if m.getLsbD k then a ||| (0xFF#512 <<< (8 * k)) else a) 0#512

/-- The line with the bytes of the mask taken from the new line. -/
def mergeLine (old new : Line) (m : BitVec 64) : Line :=
  if m = BitVec.allOnes 64 then new else let b := byteMask m; (old &&& ~~~b) ||| (new &&& b)

/-- The mask of bytes `lo` to `lo + n - 1` of a line. -/
def maskOf (lo n : Nat) : BitVec 64 := (BitVec.ofNat 64 (2 ^ n - 1)) <<< lo

/-! ## Memories of bytes (R16): an unlisted byte reads as zero (log entry 10) -/

/-- Bytes `a` to `a + n - 1`. -/
def readBytes (m : List Host.Cell) (a : Nat) : Nat → List Byte
  | 0 => []
  | n + 1 => Tab.look (0 : Byte) m a :: readBytes m (a + 1) n

/-- The bytes written from `a` on. -/
def writeBytes (m : List Host.Cell) (a : Nat) (bs : List Byte) : List Host.Cell :=
  Tab.putAll (0 : Byte) m a bs

/-- The canonical form of a memory. -/
abbrev Memory.wf (m : List Host.Cell) : Prop := Tab.Canonical (0 : Byte) m

/-! ## Codes -/

/-- One bit-serial step of a reflected CRC. -/
def crcBits {w : Nat} (poly : BitVec w) : Nat → BitVec w → BitVec w
  | 0, c => c
  | n + 1, c => crcBits poly n (if c.getLsbD 0 then (c >>> 1) ^^^ poly else c >>> 1)

/-- A reflected CRC over bytes. -/
def crcReflected {w : Nat} (poly : BitVec w) (c : BitVec w) (bs : List Byte) : BitVec w :=
  bs.foldl (fun c b => crcBits poly 8 (c ^^^ b.setWidth w)) c

/-- CRC-32C: polynomial 0x1EDC6F41 reflected, initial value and final inversion all ones (R230, R384). -/
def crc32c (bs : List Byte) : BitVec 32 :=
  ~~~ crcReflected 0x82F63B78#32 (BitVec.allOnes 32) bs

/-! ## Geometry (R8 to R12) -/

/-- The region of a tile. -/
def regionOf (t : Nat) : Nat := t / 200 / 25 * 10 + t % 200 / 20

/-- The tile ids of a region, ascending. -/
def regionTiles (r : Nat) : List Nat :=
  (List.range 500).map fun i => (r / 10 * 25 + i / 20) * 200 + r % 10 * 20 + i % 20

/-- Whether a region lies in the west half. -/
def westRegion (r : Nat) : Bool := r % 10 < 5

/-- The direction codes of R142 less one, also the bit numbers of RTR_CFG. -/
def dirNo : Dir → Nat
  | .n => 0 | .e => 1 | .s => 2 | .w => 3 | .l => 4

/-- The direction with a number. -/
def dirOf : Nat → Dir
  | 0 => .n | 1 => .e | 2 => .s | 3 => .w | _ => .l

/-- The side facing a side. -/
def opposite : Dir → Dir
  | .n => .s | .e => .w | .s => .n | .w => .e | .l => .l

/-- The neighbouring tile on a side. -/
def neighbour (t : Nat) : Dir → Option Nat
  | .n => if t / 200 < 99 then some (t + 200) else none
  | .s => if 0 < t / 200 then some (t - 200) else none
  | .e => if t % 200 < 199 then some (t + 1) else none
  | .w => if 0 < t % 200 then some (t - 1) else none
  | .l => none

/-- The edge a tile's outward port on a side faces, with the edge port number: columns or rows in ascending order
(R11, R12, R26). -/
def edgeOf (t : Nat) : Dir → Option (EdgeId × Nat)
  | .n => if t / 200 = 99 then some (.hbm (t % 200 / 100 * 8 + t % 100 / 25), t % 25) else none
  | .s => if t / 200 = 0 then some (.hbm (t % 200 / 100 * 8 + 4 + t % 100 / 25), t % 25) else none
  | .w => if t % 200 = 0 then some (.iod (t / 200 / 50), t / 200 % 50) else none
  | .e => if t % 200 = 199 then some (.iod (3 - t / 200 / 50), t / 200 % 50) else none
  | .l => none

/-- The edge tile at a port of an edge, with the side of the tile that faces it. -/
def edgeTile : EdgeId → Nat → Nat × Dir
  | .hbm x, p =>
    let col := x / 8 * 100 + x % 4 * 25 + p
    if x / 4 % 2 = 0 then (99 * 200 + col, .n) else (col, .s)
  | .iod d, p =>
    let row := (if d = 1 ∨ d = 2 then 50 else 0) + p
    if d < 2 then (row * 200, .w) else (row * 200 + 199, .e)

/-- The allowance of a border crossing on a side of a tile (R145); none inside a region. -/
def allowance (t : Nat) (d : Dir) : Option Nat :=
  match edgeOf t d with
  | some (.hbm _, _) => some 12
  | some (.iod _, _) => some 16
  | none =>
    match neighbour t d with
    | none => none
    | some u =>
      if regionOf u = regionOf t then none
      else if (t % 200 = 99 ∧ d = .e) ∨ (t % 200 = 100 ∧ d = .w) then some 16
      else some 12

/-- HBM sites fitted in each variant (R26). -/
def hbmFitted (f : Fuses) (x : Nat) : Bool :=
  if f.nStacks = 16 then x < 16
  else if f.nStacks = 12 then [0, 2, 3, 4, 5, 7, 8, 10, 11, 12, 13, 15].contains x
  else [0, 2, 5, 7, 8, 10, 13, 15].contains x

/-- I/O die sites fitted in each variant (R26). -/
def iodFitted (f : Fuses) (d : Nat) : Bool := if f.iods = 4 then d < 4 else d = 0 || d = 2

/-- Whether an edge belongs to a fitted site. -/
def edgeFitted (f : Fuses) : EdgeId → Bool
  | .hbm x => hbmFitted f x
  | .iod d => iodFitted f d

/-! ## Fuse maps in logical coordinates (R10, R293) -/

/-- The two halves' mask sets mirror each other about the north–south axis: what lies `px` columns from the west edge of a
west die lies `px` columns from the east edge of an east die (log entry 126). -/
def mirrorTile (p : Nat) : Nat := p / 100 * 200 + (199 - p % 100)
def plainTile (p : Nat) : Nat := p / 100 * 200 + p % 100
def mirrorRegion (q : Nat) : Nat := q / 5 * 10 + (9 - q % 5)
def plainRegion (q : Nat) : Nat := q / 5 * 10 + q % 5
def mirrorSite (k : Nat) : Nat := 8 + k / 4 * 4 + (3 - k % 4)

/-- A seam group of an east die: the link's west tile is the mirror image of its eastern one, and travel along x turns
round. -/
def mirrorSeam (g : SeamGroup) : SeamGroup :=
  if g.northSouth then { g with tile := mirrorTile g.tile }
  else { g with tile := mirrorTile (g.tile + 1), toLower := !g.toLower }

def Fuses.stepWest (f : Fuses) : Nat := f.west.step
def Fuses.stepEast (f : Fuses) : Nat := f.east.step
def Fuses.tiles (f : Fuses) : List Nat := f.west.tiles.map plainTile ++ f.east.tiles.map mirrorTile
def Fuses.routers (f : Fuses) : List Nat := f.west.routers.map plainTile ++ f.east.routers.map mirrorTile
def Fuses.hens (f : Fuses) : List Nat := f.west.hens.map plainRegion ++ f.east.hens.map mirrorRegion
def Fuses.phases (f : Fuses) : List (Nat × Nat) :=
  (f.west.phases.map fun p => (plainRegion p.1, p.2)) ++ f.east.phases.map fun p => (mirrorRegion p.1, p.2)
def Fuses.hbmStaging (f : Fuses) : List Nat := f.west.staging ++ f.east.staging.map mirrorSite
def Fuses.seamSpares (f : Fuses) : List SeamGroup :=
  (f.west.seamSpares.map fun g => { g with tile := plainTile g.tile }) ++ f.east.seamSpares.map mirrorSeam

/-- Every fuse map's check code holds: both halves' and every fitted I/O die's. -/
def Fuses.checkOk (f : Fuses) : Bool :=
  f.west.checkOk && f.east.checkOk &&
    ([0, 1, 2, 3] : List Nat).all fun d => !iodFitted f d || f.iodOk.getLsbD d

/-! ## Units by number -/

def State.tile (s : State) (t : Nat) : Tile := s.tiles.look {} t
def State.setTile (s : State) (t : Nat) (x : Tile) : State := { s with tiles := s.tiles.put {} t x }
def State.modTile (s : State) (t : Nat) (f : Tile → Tile) : State := s.setTile t (f (s.tile t))
def State.router (s : State) (t : Nat) : Router := s.routers.look {} t
def State.setRouter (s : State) (t : Nat) (x : Router) : State := { s with routers := s.routers.put {} t x }
def State.modRouter (s : State) (t : Nat) (f : Router → Router) : State := s.setRouter t (f (s.router t))
def State.region (s : State) (r : Nat) : Region := s.regions.look {} r
def State.setRegion (s : State) (r : Nat) (x : Region) : State := { s with regions := s.regions.put {} r x }
def State.modRegion (s : State) (r : Nat) (f : Region → Region) : State := s.setRegion r (f (s.region r))
def State.modCtl (s : State) (r : Nat) (f : HenCtl → HenCtl) : State :=
  s.modRegion r fun x => { x with ctl := f x.ctl }
def State.modClk (s : State) (r : Nat) (f : HenClk → HenClk) : State :=
  s.modRegion r fun x => { x with clk := f x.clk }
def State.modPwr (s : State) (r : Nat) (f : HenPwr → HenPwr) : State :=
  s.modRegion r fun x => { x with pwr := f x.pwr }
def State.modTest (s : State) (r : Nat) (f : HenTest → HenTest) : State :=
  s.modRegion r fun x => { x with test := f x.test }
def State.site (s : State) (x : Nat) : Site := s.sites.look {} x
def State.setSite (s : State) (x : Nat) (v : Site) : State := { s with sites := s.sites.put {} x v }
def State.modSite (s : State) (x : Nat) (f : Site → Site) : State := s.setSite x (f (s.site x))
def State.iod (s : State) (d : Nat) : Iod := s.iods.look {} d
def State.setIod (s : State) (d : Nat) (v : Iod) : State := { s with iods := s.iods.put {} d v }
def State.modIod (s : State) (d : Nat) (f : Iod → Iod) : State := s.setIod d (f (s.iod d))
def State.port (s : State) (p : Nat) : Port := s.ports.look {} p
def State.setPort (s : State) (p : Nat) (v : Port) : State := { s with ports := s.ports.put {} p v }
def State.modPort (s : State) (p : Nat) (f : Port → Port) : State := s.setPort p (f (s.port p))
def State.chan (s : State) (c : Nat) : Chan := s.chans.look {} c
def State.setChan (s : State) (c : Nat) (v : Chan) : State := { s with chans := s.chans.put {} c v }
def State.modChan (s : State) (c : Nat) (f : Chan → Chan) : State := s.setChan c (f (s.chan c))
def State.part (s : State) (p : Nat) : Part := s.parts.look {} p
def State.setPart (s : State) (p : Nat) (v : Part) : State := { s with parts := s.parts.put {} p v }
def State.modPart (s : State) (p : Nat) (f : Part → Part) : State := s.setPart p (f (s.part p))
def State.fn (s : State) (f : Nat) : Fn := s.fns.look {} f
def State.setFn (s : State) (f : Nat) (v : Fn) : State := { s with fns := s.fns.put {} f v }
def State.modFn (s : State) (f : Nat) (g : Fn → Fn) : State := s.setFn f (g (s.fn f))
def State.session (s : State) (n : Nat) : Option Session := s.sessions.look none n
def State.setSession (s : State) (n : Nat) (v : Option Session) : State :=
  { s with sessions := s.sessions.put none n v }
def State.modMgt (s : State) (f : Mgt → Mgt) : State := { s with mgt := f s.mgt }
def State.modUnits (s : State) (f : Units → Units) : State := { s with units := f s.units }

/-- The staging, ox and edge tables of an edge. -/
def State.edge (s : State) : EdgeId → Edge
  | .hbm x => (s.site x).edge
  | .iod d => (s.iod d).edge
def State.setEdge (s : State) (e : EdgeId) (v : Edge) : State :=
  match e with
  | .hbm x => s.modSite x fun y => { y with edge := v }
  | .iod d => s.modIod d fun y => { y with edge := v }
def State.modEdge (s : State) (e : EdgeId) (f : Edge → Edge) : State := s.setEdge e (f (s.edge e))

/-- The effect on a unit whose number is in range; another number names no unit (R8 to R15). -/
def onUnit (ok : Bool) (s : State) (f : State → State) : Host.Outcome State Fault Refusal :=
  if ok then .next (f s) else .fault .noSuchUnit

/-- The effect where its trigger holds; otherwise nothing happens (log entry 1). -/
def due (c : Bool) (s : State) (f : State → State) : State := if c then f s else s

/-- Fold a step over numbers. -/
def forAll (l : List Nat) (s : State) (f : Nat → State → State) : State := l.foldl (fun s n => f n s) s

/-- Device time in rooster ticks (R187). -/
def State.now (s : State) : Nat := s.mgt.nextTick

/-- A free value and the state after it is drawn (log entry 4). -/
def State.draw (s : State) : BitVec 64 × State :=
  (Config.freeValue s.free, { s with free := s.free + 1 })

/-! ## General queues (R123 to R126) -/

/-- Entries held. -/
def GQueue.used (q : GQueue) : Nat := (q.items.map List.length).sum

/-- The queue after an item arrives: stored whole, or discarded and counted (R123, R125). -/
def GQueue.push (q : GQueue) (item : List Line) : GQueue :=
  if q.used + item.length ≤ 2 ^ q.n then
    { q with items := q.items ++ [item], wptr := (q.wptr + item.length) % 2 ^ (q.n + 1) }
  else { q with overflow := true, drops := sat16 (q.drops + 1) }

/-- The queue after a pop of its head item, or of nothing (R124). -/
def GQueue.pop (q : GQueue) : GQueue :=
  match q.items with
  | [] => { q with underrun := true }
  | i :: is => { q with items := is, hold := i, rptr := (q.rptr + i.length) % 2 ^ (q.n + 1) }

/-- What a consumer sees: the head item, or the holding register (R124, R127). -/
def GQueue.window (q : GQueue) : List Line :=
  match q.items with
  | [] => q.hold
  | i :: _ => i

/-- The queue after a flush (R126). -/
def GQueue.flush (q : GQueue) : GQueue := { q with items := [], rptr := q.wptr }

/-- The status register of R127. -/
def GQueue.status (q : GQueue) : Dword :=
  pack [(0, q.wptr), (16, q.rptr), (32, b2n (q.wptr = q.rptr)),
    (33, b2n (q.wptr % 2 ^ q.n = q.rptr % 2 ^ q.n && q.wptr ≠ q.rptr)), (34, b2n q.underrun), (35, b2n q.overflow),
    (40, q.n), (48, q.drops)]

/-- A write of ones to the sticky bits of the status register (R127). -/
def GQueue.w1c (q : GQueue) (v : Dword) : GQueue :=
  { q with underrun := q.underrun && !v.getLsbD 34, overflow := q.overflow && !v.getLsbD 35 }

/-! ## Tokens (R163, R164) -/

/-- A payload of BEAT, ARG and RUNGEN (R163). -/
def payOf (beat arg runGen : Nat) : BitVec 96 :=
  BitVec.ofNat 96 (beat % 2 ^ 48) ||| (BitVec.ofNat 96 (arg % 2 ^ 40) <<< 48) |||
    (BitVec.ofNat 96 (runGen % 256) <<< 88)

def tokBeat (k : Token) : Nat := bits k.pay 47 0
def tokArg (k : Token) : Nat := bits k.pay 87 48
def tokRunGen (k : Token) : BitVec 8 := k.pay.extractLsb' 88 8

/-- The beat a BEAT field denotes: the one nearest to the receiver's count (R163). -/
def nearBeat (count field : Nat) : Nat :=
  let base := count / 2 ^ 48 * 2 ^ 48 + field
  let dist := fun b : Nat => if b ≤ count then count - b else b - count
  let up := base + 2 ^ 48
  let best := if dist up < dist base then up else base
  if 2 ^ 48 ≤ base && dist (base - 2 ^ 48) < dist best then base - 2 ^ 48 else best

/-- The SRC code of a node (R163). -/
def srcCode : NodeId → Nat
  | .hen r => r
  | .tile t => regionOf t
  | .site x => 40 + x
  | .iod d => 56 + d
  | .mc => 63

/-- A token sent toward a node: it is in flight until the node receives it. -/
def State.fly (s : State) (n : NodeId) (k : Token) : State := { s with flight := s.flight ++ [(n, k)] }

/-- A token that has been received is no longer in flight. -/
def State.landed (s : State) (n : NodeId) (k : Token) : State := { s with flight := s.flight.erase (n, k) }

/-- A FAULT token (R164). -/
def faultTok (src : NodeId) (part : Nat) (runGen : BitVec 8) (kind cause unit beat : Nat) (region : Bool) : Token where
  cls := 4
  kind := BitVec.ofNat 4 kind
  group := 0
  scope := 0
  src := BitVec.ofNat 6 (srcCode src)
  part := BitVec.ofNat 4 part
  pay := payOf beat (unit + cause * 2 ^ 16 + b2n region * 2 ^ 24) runGen.toNat

/-- A FAULT token raised in a region goes to its hen (R167, R334). -/
def State.raise (s : State) (r kind cause unit beat : Nat) (region : Bool) : State :=
  let c := (s.region r).ctl
  s.fly (.hen r) (faultTok (.hen r) c.part c.runGen kind cause unit beat region)

/-- A FAULT token raised by an edge node or an I/O die goes to the management controller (R159, R334). An event of an I/O die
that belongs to no schedule carries device time in rooster ticks in BEAT, with ARG[24] zero: such a node counts no beats, and
R164 does not say what BEAT holds (DESIGN CHOICE, log entry 65). -/
def State.raiseEdge (s : State) (e : EdgeId) (part : Nat) (runGen : BitVec 8) (kind cause beat : Nat)
    (region : Bool) : State :=
  match e with
  | .hbm x => s.fly .mc (faultTok (.site x) part runGen kind cause x beat region)
  | .iod d => s.fly .mc (faultTok (.iod d) part runGen kind cause d beat region)

/-- A control-network error at a hen or at a tile's control node: the bit, the count, the first beat, and a FAULT token
of kind CONTROL (R166, R169, R175, R176, R182). -/
def State.henError (s : State) (r bit unit beat : Nat) (region : Bool) : State :=
  let s := s.modCtl r fun c => { c with
    err := setBit c.err bit, errCount := sat16 (c.errCount + 1),
    errBeat := if c.errValid then c.errBeat else beat % 2 ^ 48,
    errRegion := if c.errValid then c.errRegion else region, errValid := true }
  s.raise r 4 bit unit beat region

/-- A token discarded as stale (R166). -/
def State.stale (s : State) (r : Nat) : State := s.modCtl r fun c => { c with stale := sat16 (c.stale + 1) }

/-- A token put in a hen's express queue, or discarded with EXP_OVF (R161). -/
def State.henQueue (s : State) (r : Nat) (k : Token) : State :=
  let c := (s.region r).ctl
  if c.queue.length < 64 then s.modCtl r fun c => { c with queue := c.queue ++ [k] }
  else s.henError r 4 0x7FFF (s.region r).clk.count true

/-- A token put in the management controller's express queue; a full queue discards it (R161). The register EXP_OVF is
a hen's, so the loss is shown by the token alone. -/
def State.mcQueue (s : State) (k : Token) : State :=
  if s.mgt.queue.length < 64 then s.modMgt fun m => { m with queue := m.queue ++ [k] }
  else s.fly .mc (faultTok .mc 0 0 4 4 0x7FFF s.now false)

/-- The region that holds a node, if a hen's. -/
def nodeRegion : NodeId → Option Nat
  | .hen r => some r
  | .tile t => some (regionOf t)
  | _ => none

/-- A hen sends a token to one named node: inside its region directly, else by its express channel (R167). -/
def State.henSend (s : State) (r : Nat) (n : NodeId) (k : Token) : State :=
  if nodeRegion n = some r then s.fly n k else s.henQueue r k

/-! ## Partitions and their regions -/

/-- The regions of a partition, ascending: those whose hen is assigned to it. -/
def State.partRegions (s : State) (p : Nat) : List Nat :=
  (List.range 40).filter fun r => let c := (s.region r).ctl; c.assigned && c.part = p

/-- Whether a region's router plane works, which feeds its hen and nodes too: one of its feeds is good (R156, R159). -/
def Region.planeOn (r : Region) : Bool := r.clk.on && (r.pwr.feedOwn || r.pwr.feedNb)

/-- The lead hen of a partition: that of its lowest region (R99). -/
def State.leadOf (s : State) (p : Nat) : Option Nat := (s.partRegions p).head?

/-- A run of the partition is in progress: RUNNING, or ending (R396). -/
def State.running (s : State) (p : Nat) : Bool := (s.part p).st == .running

end Machine
end Sys2Proof
end

