-- ==== Sys2Proof/Machine/Numerics.lean ====
section
/-!
DEFINITION. Number formats, rounding, MX blocks and the arithmetic of arrays, vector lanes and router lanes
(R77 to R100, R106).  Every result is computed exactly as `m × 2^e` and rounded once.
-/
namespace Sys2Proof.Machine

/-! ## Formats (R49, R78, R80) -/

/-- How a floating-point format spends its top exponent (R78): infinities and NaNs, one NaN per sign, or neither. -/
inductive Special where
  | ieee | oneNan | plain
  deriving DecidableEq, Repr

/-- A floating-point format: exponent bits, significand bits, bias, special encodings (R78). -/
structure FpFmt where
  eb : Nat
  mb : Nat
  bias : Nat
  sp : Special
  deriving DecidableEq, Repr

def fp32 : FpFmt := ⟨8, 23, 127, .ieee⟩
def bf16 : FpFmt := ⟨8, 7, 127, .ieee⟩
def fp16 : FpFmt := ⟨5, 10, 15, .ieee⟩
def e4m3 : FpFmt := ⟨4, 3, 7, .oneNan⟩
def e5m2 : FpFmt := ⟨5, 2, 15, .ieee⟩
def e2m3 : FpFmt := ⟨2, 3, 1, .plain⟩
def e3m2 : FpFmt := ⟨3, 2, 3, .plain⟩
def e2m1 : FpFmt := ⟨2, 1, 1, .plain⟩

/-- The floating-point format of a code of R49; the integer codes have none. -/
def fpOf (code : Nat) : Option FpFmt :=
  match code with
  | 0 => some fp32 | 1 => some bf16 | 2 => some fp16 | 3 => some e4m3 | 4 => some e5m2
  | 7 => some e4m3 | 8 => some e5m2 | 9 => some e2m3 | 10 => some e3m2 | 11 => some e2m1
  | _ => none

/-- Bits of an element (R81). -/
def elemBits (code : Nat) : Nat :=
  match code with
  | 0 => 32 | 1 => 16 | 2 => 16 | 3 => 8 | 4 => 8 | 5 => 8 | 6 => 32 | 7 => 8 | 8 => 8 | 9 => 6 | 10 => 6
  | 11 => 4 | 12 => 8 | _ => 0

/-- The MX codes (R49). -/
def isMx (code : Nat) : Bool := 7 ≤ code && code ≤ 12

/-- The code of the largest finite magnitude of a format (R78). -/
def FpFmt.maxCode (f : FpFmt) : Nat :=
  match f.sp with
  | .ieee => (2 ^ f.eb - 1) * 2 ^ f.mb - 1
  | .oneNan => 2 ^ (f.eb + f.mb) - 2
  | .plain => 2 ^ (f.eb + f.mb) - 1

/-- The canonical NaN (R78, R79). -/
def FpFmt.nan (f : FpFmt) : Nat :=
  match f.sp with
  | .ieee => (2 ^ f.eb - 1) * 2 ^ f.mb + 2 ^ (f.mb - 1)
  | .oneNan => 2 ^ (f.eb + f.mb) - 1
  | .plain => 0

/-- The infinity of a format that has one. -/
def FpFmt.inf (f : FpFmt) : Nat := (2 ^ f.eb - 1) * 2 ^ f.mb

/-- The sign of an encoding. -/
def FpFmt.neg (f : FpFmt) (v : Nat) : Bool := v / 2 ^ (f.eb + f.mb) % 2 = 1

/-- The sign of a term. -/
def signed (neg : Bool) (m : Nat) : Int := if neg then -(m : Int) else m

/-- The value of an encoding (R78); a zero of either sign is `fin 0`. -/
def FpFmt.value (f : FpFmt) (v : Nat) : Term :=
  let m := v % 2 ^ f.mb
  let e := v / 2 ^ f.mb % 2 ^ f.eb
  let n := f.neg v
  if f.sp = .ieee ∧ e = 2 ^ f.eb - 1 then (if m = 0 then .inf n else .nan)
  else if f.sp = .oneNan ∧ e = 2 ^ f.eb - 1 ∧ m = 2 ^ f.mb - 1 then .nan
  else if e = 0 then .fin (signed n m) (1 - (f.bias : Int) - f.mb)
  else .fin (signed n (2 ^ f.mb + m)) ((e : Int) - f.bias - f.mb)

/-- The two's complement value of the low `w` bits. -/
def twos (w v : Nat) : Int := let u := v % 2 ^ w; if u < 2 ^ (w - 1) then u else (u : Int) - 2 ^ w

/-- The value of an element of a format code (R78, R80). -/
def elemValue (code v : Nat) : Term :=
  match fpOf code with
  | some f => f.value v
  | none =>
    if code = 5 then .fin (twos 8 v) 0
    else if code = 6 then .fin (twos 32 v) 0
    else .fin (twos 8 v) (-6)

/-- The sign an element widens with (R90). -/
def elemNeg (code v : Nat) : Bool :=
  match fpOf code with
  | some f => f.neg v
  | none => match elemValue code v with
    | .fin m _ => decide (m < 0)
    | _ => false

/-! ## Rounding (R85 to R87) -/

/-- `⌊|m| × 2^(e - q)⌋` and what is left below it, as a fraction of 2^24 rounded down and whether it is exact. -/
def scaled (m : Nat) (e q : Int) : Nat × Nat × Nat :=
  if q ≤ e then (m * 2 ^ (e - q).toNat, 0, 1)
  else let d := 2 ^ (q - e).toNat; (m / d, m % d, d)

/-- A magnitude `m × 2^e` rounded to a multiple of `2^q`, in units of `2^q` (R85, R87); `r` is the 24-bit draw. -/
def roundUnit (rnd r : Nat) (m : Nat) (e q : Int) : Nat :=
  let (k, rest, d) := scaled m e q
  if rnd = 1 then k
  else if rnd = 2 then (if 2 ^ 24 ≤ rest * 2 ^ 24 / d + r then k + 1 else k)
  else if d < 2 * rest ∨ (2 * rest = d ∧ k % 2 = 1) then k + 1 else k

/-- The code of a magnitude before overflow is judged: codes above the largest finite one continue the scale. -/
def FpFmt.roundCode (f : FpFmt) (rnd r m : Nat) (e : Int) : Nat :=
  if m = 0 then 0
  else
    let low : Int := 1 - (f.bias : Int) - f.mb
    let q := max ((Nat.log2 m : Int) + e - f.mb) low
    (q - low).toNat * 2 ^ f.mb + roundUnit rnd r m e q

/-- What a finite overflow gives (R86): `sela` is the mode of R106. -/
def FpFmt.overflow (f : FpFmt) (rnd : Nat) (sela mx : Bool) : Nat :=
  if mx then f.maxCode
  else match f.sp with
    | .ieee => if rnd = 1 then f.maxCode else f.inf
    | .oneNan => if sela then f.nan else f.maxCode
    | .plain => f.maxCode

/-- Whether a magnitude overflows a format whose top exponent also holds finite values before its code does: from the
largest value plus half its unit on, rounding to nearest, and above the largest value, rounding stochastically
(R86, R87). -/
def FpFmt.beyond (f : FpFmt) (rnd m : Nat) (e : Int) : Bool :=
  let q : Int := (2 ^ f.eb : Nat) - 2 - f.bias - f.mb
  let t := 2 ^ (f.mb + 2) - 4
  let a := m * 2 ^ (e - q).toNat
  let b := 2 ^ (q - e).toNat
  f.sp == .oneNan && (rnd = 0 && (t + 1) * b ≤ a || rnd = 2 && t * b < a)

/-- A magnitude with a sign, rounded to a format (R85 to R87). -/
def FpFmt.encode (f : FpFmt) (rnd r : Nat) (sela mx neg : Bool) (m : Nat) (e : Int) : Nat :=
  let c := f.roundCode rnd r m e
  if f.maxCode < c || f.beyond rnd m e then
    let o := f.overflow rnd sela mx
    if o = f.nan && f.sp == .oneNan then o else o + b2n neg * 2 ^ (f.eb + f.mb)
  else c + b2n neg * 2 ^ (f.eb + f.mb)

/-- Rounding to FP32 with round-to-nearest-even (RNE32 of R91). -/
def rne32 (neg : Bool) (m : Nat) (e : Int) : Word := BitVec.ofNat 32 (fp32.encode 0 0 false false neg m e)

/-- The canonical FP32 NaN. -/
def nan32 : Word := 0x7FC00000#32

/-- An FP32 infinity. -/
def inf32 (neg : Bool) : Word := if neg then 0xFF800000#32 else 0x7F800000#32

/-- The value of an FP32 word. -/
def val32 (w : Word) : Term := fp32.value w.toNat

/-- The sum of two exact values. -/
def addExact (m1 e1 m2 e2 : Int) : Int × Int :=
  let e := min e1 e2
  (m1 * 2 ^ (e1 - e).toNat + m2 * 2 ^ (e2 - e).toNat, e)

/-- An exact value added to an FP32 accumulator, rounded once (R91, R92). A zero of the value counts as +0 unless
`negZero`. -/
def addTerm (f : FpFmt) (negZero : Bool) (c : Nat) (t : Term) : Nat :=
  let top := 2 ^ (f.eb + f.mb)
  match f.value c, t with
  | .nan, _ => f.nan
  | _, .nan => f.nan
  | .inf a, .inf b => if a = b then f.inf + b2n a * top else f.nan
  | .inf a, .fin _ _ => f.inf + b2n a * top
  | .fin _ _, .inf b => f.inf + b2n b * top
  | .fin m1 e1, .fin m2 e2 =>
    let (m, e) := addExact m1 e1 m2 e2
    if m = 0 then (if m1 = 0 ∧ m2 = 0 ∧ f.neg c ∧ negZero then top else 0)
    else f.encode 0 0 false false (decide (m < 0)) m.natAbs e

/-- Binary32 addition (R95). -/
def fadd (a b : Word) : Word := BitVec.ofNat 32 (addTerm fp32 (b.getLsbD 31) a.toNat (val32 b))

/-- Bits 31 inverted (R95). -/
def fneg (a : Word) : Word := a ^^^ 0x80000000#32

/-- Binary32 subtraction: the sum with the inverted operand; a NaN stays a NaN. -/
def fsub (a b : Word) : Word := fadd a (fneg b)

/-- The exact product of two values, with the sign of an exact zero (R92, R95). -/
def mulTerm (a b : Term) : Term :=
  match a, b with
  | .nan, _ => .nan
  | _, .nan => .nan
  | .inf x, .inf y => .inf (x != y)
  | .inf x, .fin m _ => if m = 0 then .nan else .inf (x != decide (m < 0))
  | .fin m _, .inf y => if m = 0 then .nan else .inf (y != decide (m < 0))
  | .fin m1 e1, .fin m2 e2 => .fin (m1 * m2) (e1 + e2)

/-- A term rounded to FP32, with the sign a zero takes. -/
def termTo32 (neg : Bool) : Term → Word
  | .nan => nan32
  | .inf n => inf32 n
  | .fin m e => if m = 0 then (if neg then 0x80000000#32 else 0#32) else rne32 (decide (m < 0)) m.natAbs e

/-- Binary32 multiplication (R95). -/
def fmul (a b : Word) : Word := termTo32 (a.getLsbD 31 != b.getLsbD 31) (mulTerm (val32 a) (val32 b))

/-- The fused product and sum (R95). -/
def ffma (a b c : Word) : Word :=
  BitVec.ofNat 32 (addTerm fp32 (a.getLsbD 31 != b.getLsbD 31) c.toNat (mulTerm (val32 a) (val32 b)))

/-- The order of two encodings of numbers: −0 below +0 (R95). -/
def fpKey (f : FpFmt) (v : Nat) : Int :=
  let m := v % 2 ^ (f.eb + f.mb)
  if f.neg v then -1 - (m : Int) else m

/-- The larger or smaller of two encodings, or the canonical NaN (R95). -/
def fpPick (f : FpFmt) (larger : Bool) (a b : Nat) : Nat :=
  if f.value a = .nan ∨ f.value b = .nan then f.nan
  else if (fpKey f a < fpKey f b) = larger then b else a

def fmax (a b : Word) : Word := BitVec.ofNat 32 (fpPick fp32 true a.toNat b.toNat)
def fmin (a b : Word) : Word := BitVec.ofNat 32 (fpPick fp32 false a.toNat b.toNat)

/-! ## Function values (R96, R100): a truncated value with an odd last bit where it is not exact -/

/-- The correctly rounded quotient of two positive exact values, with a sign. -/
def divRound (neg : Bool) (m1 : Nat) (e1 : Int) (m2 : Nat) (e2 : Int) : Word :=
  let n := m1 * 2 ^ 96
  let q := n / m2
  rne32 neg (2 * q + (if q * m2 = n then 0 else 1)) (e1 - e2 - 97)

/-- 1/x (R96). -/
def frcp (a : Word) : Word :=
  let n := a.getLsbD 31
  match val32 a with
  | .nan => nan32
  | .inf x => if x then 0x80000000#32 else 0#32
  | .fin m e => if m = 0 then inf32 n else divRound n 1 0 m.natAbs e

/-- The correctly rounded square root of `(m / d) × 2^e`, `e` even. -/
def sqrtRound (m d : Nat) (e : Int) : Word :=
  let n := m * 2 ^ 192
  let r := isqrt (n / d)
  rne32 false (2 * r + (if r * r * d = n then 0 else 1)) (e / 2 - 97)

/-- 1/√x (R96). -/
def frsq (a : Word) : Word :=
  match val32 a with
  | .nan => nan32
  | .inf x => if x then nan32 else 0#32
  | .fin m e =>
    if m = 0 then inf32 (a.getLsbD 31)
    else if m < 0 then nan32
    else if e % 2 = 0 then sqrtRound 1 m.natAbs (-e) else sqrtRound 1 (2 * m.natAbs) (1 - e)

/-- The square root of a non-negative FP32 value (R100). -/
def fsqrt (a : Word) : Word :=
  match val32 a with
  | .nan => nan32
  | .inf x => if x then nan32 else inf32 false
  | .fin m e =>
    if m = 0 then a else if m < 0 then nan32
    else if e % 2 = 0 then sqrtRound m.natAbs 1 e else sqrtRound (2 * m.natAbs) 1 (e - 1)

/-- `2^f` for a fraction of 64 bits `f`, scaled by `2^192`: the product of the roots `2^(2^-i)` of its set bits. -/
def exp2Frac (f : Nat) : Nat → Nat → Nat → Nat
  | 0, _, acc => acc
  | k + 1, c, acc =>
    let c := isqrt (c * 2 ^ 192)
    exp2Frac f k c (if f / 2 ^ k % 2 = 1 then acc * c / 2 ^ 192 else acc)

/-- `2^x` (R96), the fraction computed to 192 bits (log entry 14). -/
def fexp2 (a : Word) : Word :=
  match val32 a with
  | .nan => nan32
  | .inf x => if x then 0#32 else inf32 false
  | .fin m e =>
    if m = 0 then 0x3F800000#32
    else if Nat.log2 m.natAbs + e ≥ 8 then (if m < 0 then 0#32 else inf32 false)
    else if Nat.log2 m.natAbs + e < -26 then 0x3F800000#32
    else
      let x : Int := if 0 ≤ e + 64 then m * 2 ^ (e + 64).toNat else m / 2 ^ (-(e + 64)).toNat
      let n := x / 2 ^ 64
      let f := (x % 2 ^ 64).toNat
      if f = 0 then rne32 false 1 n
      else rne32 false (2 * exp2Frac f 64 (2 ^ 193) (2 ^ 192) + 1) (n - 193)

/-- The pairwise sums of neighbours. -/
def pairUp : List Word → List Word
  | a :: b :: l => fadd a b :: pairUp l
  | l => l

/-- The fixed binary tree of R97 over 64 values. -/
def treeSum (l : List Word) : Word :=
  (pairUp (pairUp (pairUp (pairUp (pairUp (pairUp l)))))).headD 0#32

/-- RATIO of a norm record (R100). -/
def normRatio (u w : Word) : Word :=
  if val32 u = .nan ∨ val32 w = .nan then nan32
  else match val32 u, val32 w with
    | .fin um ue, .fin wm we =>
      if wm = 0 then (if um = 0 then 0#32 else inf32 false)
      else if um = 0 then 0#32
      else fsqrt (divRound false um.natAbs ue wm.natAbs we)
    | .inf _, .fin _ _ => inf32 false
    | .inf _, .inf _ => nan32
    | _, _ => 0#32

/-! ## The generator (R88, R106) -/

/-- One draw: the new state, and the 24 bits it gives. -/
def genNext (sela : Bool) (g : Dword) : Dword × Nat :=
  if sela then
    let s : BitVec 32 := g.setWidth 32
    let s := s ^^^ (s <<< 13)
    let s := s ^^^ (s >>> 17)
    let s := s ^^^ (s <<< 5)
    (s.setWidth 64, bits s 31 8)
  else
    let s := g ^^^ (g <<< 13)
    let s := s ^^^ (s >>> 7)
    let s := s ^^^ (s <<< 17)
    (s, bits s 63 40)

/-- The state loaded at a run start (R88, R106). -/
def genSeed (sela : Bool) (seed : Dword) : Dword :=
  if sela then (if (seed.setWidth 32 : BitVec 32) = 0 then 1#64 else (seed.setWidth 32 : BitVec 32).setWidth 64)
  else if seed = 0 then 1#64 else seed

/-- `n` draws, in order. -/
def draws (sela : Bool) : Nat → Dword → Dword × List Nat
  | 0, g => (g, [])
  | n + 1, g =>
    let (g1, r) := genNext sela g
    let (g2, rs) := draws sela n g1
    (g2, r :: rs)

/-! ## Conversion from FP32 (R83 to R87, R94) -/

/-- A value in two's complement of `w` bits, saturated between two bounds. -/
def saturate (w : Nat) (lo hi : Int) (neg : Bool) (k : Nat) : Nat :=
  let v : Int := if neg then -(k : Int) else k
  let v := if v < lo then lo else if hi < v then hi else v
  (v % 2 ^ w).toNat

/-- One FP32 value converted to a format that is not MX (R85 to R87). -/
def convert (code rnd r : Nat) (sela : Bool) (v : Word) : Nat :=
  let n := v.getLsbD 31
  match fpOf code with
  | some f =>
    match val32 v with
    | .nan => f.nan
    | .inf _ => if f.sp = .ieee then f.inf + b2n n * 2 ^ (f.eb + f.mb) else f.nan
    | .fin m e => f.encode rnd r sela false n m.natAbs e
  | none =>
    let w := if code = 5 then 8 else 32
    let lo : Int := -(2 ^ (w - 1))
    let hi : Int := 2 ^ (w - 1) - 1
    match val32 v with
    | .nan => 0
    | .inf _ => saturate w lo hi n (2 ^ w)
    | .fin m e => saturate w lo hi n (roundUnit rnd r m.natAbs e 0)

/-- emax of an MX element format (R83). -/
def mxEmax (code : Nat) : Int :=
  match code with
  | 7 => 8 | 8 => 15 | 9 => 2 | 10 => 4 | 11 => 2 | _ => 0

/-- ⌊log2⌋ of a finite nonzero value. -/
def magLog (v : Word) : Option Int :=
  match val32 v with
  | .fin m e => if m = 0 then none else some ((Nat.log2 m.natAbs : Int) + e)
  | _ => none

/-- Whether a value is finite. -/
def isFinite (v : Word) : Bool := match val32 v with | .fin _ _ => true | _ => false

/-- 32 FP32 values converted to an MX block: the scale byte and the element codes (R83, R84). -/
def convertBlock (code rnd : Nat) (vs : List Word) (rs : List Nat) : Nat × List Nat :=
  if vs.any fun v => !isFinite v then (0xFF, vs.map fun _ => 0)
  else
    let top := vs.foldl (fun a v => match a, magLog v with
      | none, x => x
      | x, none => x
      | some a, some b => some (max a b)) (none : Option Int)
    match top with
    | none =>
      -- all inputs are zero: the scale is 0 and each element keeps its sign in a format that has one
      (0, vs.map fun v => match fpOf code with
        | some f => b2n (v.getLsbD 31) * 2 ^ (f.eb + f.mb)
        | none => 0)
    | some l =>
      let e := max (-127) (min 127 (l - mxEmax code))
      let one := fun (v : Word) (r : Nat) => match val32 v with
        | .fin m x => match fpOf code with
          | some f => f.encode rnd r false true (v.getLsbD 31) m.natAbs (x - e)
          | none => saturate 8 (-127) 127 (v.getLsbD 31) (roundUnit rnd r m.natAbs (x - e) (-6))
        | _ => 0
      ((e + 127).toNat, List.zipWith one vs rs)

/-! ## Widening to FP32 (R82, R84, R90) -/

/-- An element times a scale byte. -/
def scaleTerm (x : Nat) : Term → Term
  | .fin m e => if x = 0xFF then .nan else .fin m (e + (x : Int) - 127)
  | t => if x = 0xFF then .nan else t

/-- An element of a format widened to FP32; for an MX format `x` is its scale byte. -/
def widen (code x v : Nat) : Word :=
  let t := elemValue code v
  termTo32 (elemNeg code v) (if isMx code then scaleTerm x t else t)

/-- Element `j` of a packed string of elements (R81). -/
def packedElem (code : Nat) (s : Nat) (j : Nat) : Nat := s / 2 ^ (j * elemBits code) % 2 ^ elemBits code

/-- A packed string of element codes (R81). -/
def packElems (code : Nat) : List Nat → Nat
  | [] => 0
  | v :: vs => v + 2 ^ elemBits code * packElems code vs

/-! ## Router lanes (R98, R148) -/

/-- The BF16 sum. -/
def bfAdd (a b : Nat) : Nat := addTerm bf16 (bf16.neg b) a (bf16.value b)

/-- A lane operation of the code of R142. -/
def laneOp (op : Nat) (a b : Nat) : Nat :=
  match op with
  | 1 => (fadd (BitVec.ofNat 32 a) (BitVec.ofNat 32 b)).toNat
  | 2 => bfAdd a b
  | 3 => fpPick fp32 true a b
  | _ => fpPick bf16 true a b

/-- The lanes of two lines combined (R148). -/
def laneLine (op : Nat) (a b : Line) : Line :=
  let w := if op = 1 ∨ op = 3 then 32 else 16
  (List.range (512 / w)).foldl (fun l j =>
    l ||| (BitVec.ofNat 512 (laneOp op (bits a (w * j + w - 1) (w * j)) (bits b (w * j + w - 1) (w * j))) <<< (w * j)))
    0#512

/-! ## Residues (R339) -/

/-- The residue of an exact value, modulo 7. -/
def residue (v : Int) : Nat := (v % 7).toNat
/-- A residue after a left shift by `k`: 2^k is 2^(k mod 3) modulo 7. -/
def shiftResidue (r k : Nat) : Nat := r * 2 ^ (k % 3) % 7
/-- The residue of a product and of a sum, from those of its parts. -/
def mulResidue (a b : Nat) : Nat := a * b % 7
def addResidue (l : List Nat) : Nat := l.foldl (fun a r => (a + r) % 7) 0
/-- The check of an exact sum against the residues carried to it. -/
def residueAgrees (sum : Int) (carried : List Nat) : Bool := residue sum = addResidue carried

/-! ## Array rows (R91 to R93, R106) -/

/-- A sum of exact products (R91, R92): a NaN operand or opposing infinities give NaN. -/
def sumTerms (l : List Term) : Term :=
  l.foldl (fun a t => match a, t with
    | .nan, _ => .nan
    | _, .nan => .nan
    | .inf x, .inf y => if x = y then .inf x else .nan
    | .inf x, .fin _ _ => .inf x
    | .fin _ _, .inf y => .inf y
    | .fin m1 e1, .fin m2 e2 => let (m, e) := addExact m1 e1 m2 e2; .fin m e) (.fin 0 0)

/-- Whether an operand is zero, so that its products do not contribute (R60). -/
def isZeroTerm : Term → Bool
  | .fin m _ => m == 0
  | _ => false

/-- What one row entry adds to one column: the addends in the order they are rounded, and whether a NaN scale decides
the result (R91, R92, R106). -/
def columnTerms (sela : Bool) (xa xb : Option Nat) (a b : List Term) : List Term :=
  if xa = some 0xFF ∨ xb = some 0xFF then [.nan]
  else
    let ps := (List.zip a b).filterMap fun p =>
      if isZeroTerm p.1 || isZeroTerm p.2 then none else some (mulTerm p.1 p.2)
    if ps.isEmpty then []
    else if sela then ps
    else match sumTerms ps with
      | .fin m e => [.fin m (e + (match xa with | some x => (x : Int) - 127 | none => 0)
          + (match xb with | some x => (x : Int) - 127 | none => 0))]
      | t => [t]

/-- An accumulator after a row entry (R91, R92). -/
def accumulate (ovr : Bool) (c : Word) (ts : List Term) : Word :=
  ts.foldl (fun c t => BitVec.ofNat 32 (addTerm fp32 false c.toNat t)) (if ovr then 0#32 else c)

end Sys2Proof.Machine
end

