-- ==== Sys2Proof/Machine/Operands.lean ====
section
/-!
DEFINITION. The operand forms of the tile's instruction words: fields, well-formedness, addresses, pipes, loops and the
sequential advance of the program counter (R46 to R57, R64, R65, R417 to R420).
-/
namespace Sys2Proof.Machine

/-! ## Fields (R47) -/

def wCls (w : Dword) : Nat := bits w 63 61
def wOp (w : Dword) : Nat := bits w 60 56

/-- Scalar fields (R52). -/
def sSd (w : Dword) : Nat := bits w 55 51
def sSa (w : Dword) : Nat := bits w 50 46
def sSb (w : Dword) : Nat := bits w 45 41
def sSel (w : Dword) : Bool := w.getLsbD 40
def sImm (w : Dword) : Nat := bits w 31 0
/-- Target or loop end: all of IMM where the format reserves the upper bits, which are then zero (R419). -/
def sTgt (w : Dword) : Nat := bits w 12 0

/-- Vector fields (R56). -/
def vVd (w : Dword) : Nat := bits w 55 52
def vVa (w : Dword) : Nat := bits w 51 48
def vVb (w : Dword) : Nat := bits w 47 44
def vVc (w : Dword) : Nat := bits w 43 40
def vSa (w : Dword) : Nat := bits w 39 35
def vFmt (w : Dword) : Nat := bits w 34 31
def vRnd (w : Dword) : Nat := bits w 30 29
def vImm (w : Dword) : Nat := bits w 15 0

/-- Array fields (R65). -/
def aArr (w : Dword) : Nat := bits w 55 54
def aGrp (w : Dword) : Nat := bits w 53 52
def aFmt (w : Dword) : Nat := bits w 51 48
def aFmt2 (w : Dword) : Nat := bits w 47 44
def aRnd (w : Dword) : Nat := bits w 47 46
def aZero (w : Dword) : Bool := w.getLsbD 45
def aSwap (w : Dword) : Bool := w.getLsbD 43
def aAcc (w : Dword) : Nat := bits w 42 41
def aRow (w : Dword) : Nat := bits w 40 34
def aM (w : Dword) : Nat := bits w 33 27
def aLine (w : Dword) : Nat := bits w 26 14
def aSa (w : Dword) : Nat := bits w 13 9

/-- Transfer fields (R70). -/
def xLine (w : Dword) : Nat := bits w 55 43
def xSa (w : Dword) : Nat := bits w 42 38
def xCount (w : Dword) : Nat := bits w 37 26
def xStride (w : Dword) : Nat := bits w 25 16
def xTag (w : Dword) : BitVec 16 := w.extractLsb' 0 16

/-- Token fields (R72). -/
def kGroup (w : Dword) : Nat := bits w 55 44
def kPay (w : Dword) : Nat := bits w 31 0

/-! ## Well-formedness (R48, R419, R420) -/

/-- Bits [55:0] have no bit outside the named fields, given as (high, low). -/
def onlyFields (w : Dword) (l : List (Nat × Nat)) : Bool :=
  (List.range 56).all fun i => !w.getLsbD i || l.any fun p => p.2 ≤ i && i ≤ p.1

/-- The fields of operand B (R419): with IMM_SEL 1 the immediate, else SB. -/
def bFields (w : Dword) : List (Nat × Nat) := (40, 40) :: (if sSel w then [(31, 0)] else [(45, 41)])

/-- Whether a class and opcode is a row of the tables (R48, R52, R56, R65, R70, R72). -/
def isRow (cls op : Nat) : Bool :=
  match cls with
  | 0 => op ≤ 0x18
  | 1 => op ≤ 0x12
  | 2 => 1 ≤ op && op ≤ 5
  | 3 => op ≤ 1
  | 4 => op ≤ 4
  | _ => false

/-- The scalar opcodes' fields (R419). -/
def scalarOk (w : Dword) : Bool :=
  let op := wOp w
  if op = 0 then onlyFields w [(15, 0)]
  else if op = 1 then onlyFields w ((55, 51) :: bFields w)
  else if op ≤ 0xF then onlyFields w ((55, 51) :: (50, 46) :: bFields w)
  else if op = 0x10 then onlyFields w [(55, 51), (50, 46), (31, 0)]
  else if op = 0x11 then onlyFields w [(50, 46), (45, 41), (31, 0)]
  else if op = 0x12 || op = 0x13 || op = 0x15 then onlyFields w [(50, 46), (12, 0)]
  else if op = 0x14 then onlyFields w [(12, 0)]
  else if op = 0x16 then onlyFields w [(55, 51)]
  else if op = 0x17 then onlyFields w [(31, 16), (12, 0)]
  else onlyFields w []

/-- The formats a vector opcode accepts (R49, R56). -/
def vectorFmtOk (op fmt : Nat) : Bool :=
  if op ≤ 2 || (4 ≤ op && op ≤ 7) then fmt = 0 || fmt = 6
  else if op = 9 || op = 0xA then 1 ≤ fmt && fmt ≤ 12
  else fmt = 0

/-- The vector opcodes' fields (R420) and formats (R56). VCVTN with the reserved RND 3 faults like a reserved field (DESIGN
CHOICE, log entry 137: R48 names RND = 3 for ADRAIN only). -/
def vectorOk (w : Dword) : Bool :=
  let op := wOp w
  let f := fun l => onlyFields w ((34, 31) :: l)
  vectorFmtOk op (vFmt w) &&
  (if op ≤ 2 || op = 4 || op = 5 then f [(55, 52), (51, 48), (47, 44)]
   else if op = 3 || op = 0x12 then f [(55, 52), (51, 48), (47, 44), (43, 40)]
   else if op = 9 then f [(55, 52), (51, 48), (30, 29)] && vRnd w ≠ 3
   else if op = 8 then f [(55, 52), (39, 35)]
   else if op = 0xF then f [(55, 52), (39, 35), (12, 0)]
   else if op = 0x10 then f [(51, 48), (39, 35), (12, 0)]
   else if op = 0x11 then f [(51, 48), (8, 0)]
   else f [(55, 52), (51, 48)])

/-- The formats the arrays take as operands and drain to (R49). -/
def arrayFmt (f : Nat) : Bool := (1 ≤ f && f ≤ 5) || (7 ≤ f && f ≤ 12)
def drainFmt (f : Nat) : Bool := f ≤ 12 && f ≠ 5 && f ≠ 6

/-- The number of groups of a split (R61). -/
def groups (split : Nat) : Nat := 2 ^ split

/-- The width of a group (R61). -/
def groupW (split : Nat) : Nat := 32 / 2 ^ split

/-- The array opcodes' fields, formats and group numbers (R48, R65); `split` is that of the named array. The reserved values
ACC 2 and 3 and SPLIT 3 fault like a reserved field (DESIGN CHOICE, log entry 137: R48 speaks of reserved fields). -/
def arrayOk (split : Nat) (w : Dword) : Bool :=
  let op := wOp w
  if op = 1 then onlyFields w [(55, 52)] && aGrp w ≤ 2
  else (aGrp w < groups split) &&
    (if op = 2 then onlyFields w [(55, 48), (26, 9)] && arrayFmt (aFmt w)
     else if op = 3 then onlyFields w [(55, 9)] && arrayFmt (aFmt w) && arrayFmt (aFmt2 w) && aAcc w ≤ 1
     else if op = 4 then onlyFields w [(55, 45), (40, 9)] && drainFmt (aFmt w) && aRnd w ≠ 3
       && (!isMx (aFmt w) || groupW split = 32)
     else onlyFields w [(55, 52), (40, 27)])

/-- The transfer opcodes' fields (R70). -/
def transferOk (w : Dword) : Bool := wOp w = 0 || onlyFields w [(55, 16)]

/-- The token opcodes' fields (R72). -/
def tokenOk (w : Dword) : Bool :=
  let op := wOp w
  if op = 0 then onlyFields w [(55, 44)]
  else if op = 1 || op = 2 then onlyFields w [(55, 44), (19, 0)]
  else if op = 3 then onlyFields w [(7, 0)]
  else onlyFields w [(15, 0)]

/-! ## Registers -/

/-- Scalar register `n`; S0 reads as zero (R52). -/
def Tile.sreg (t : Tile) (n : Nat) : Word := if n = 0 then 0#32 else t.sregs.look 0 n

/-- Vector register `n` (R56). -/
def Tile.vreg (t : Tile) (n : Nat) : VReg := t.vregs.look 0 n

/-- Lane `j` of a vector register (R56). -/
def lane (v : VReg) (j : Nat) : Word := v.extractLsb' (32 * j) 32

/-- The 64 lanes. -/
def lanes (v : VReg) : List Word := (List.range 64).map (lane v)

/-- A vector register from its lanes. -/
def ofLanes (l : List Word) : VReg :=
  BitVec.ofNat 2048 (l.foldr (fun w n => w.toNat + 2 ^ 32 * n) 0)

/-- Line `k` of a register taken as one block of 256 bytes (R56). -/
def vLine (v : VReg) (k : Nat) : Line := v.extractLsb' (512 * k) 512

/-- Array `a`. -/
def Tile.arr (t : Tile) (a : Nat) : MArray := t.arrays.look {} a
def Tile.setArr (t : Tile) (a : Nat) (m : MArray) : Tile := { t with arrays := t.arrays.put {} a m }

/-- Operand B (R52). -/
def opB (t : Tile) (w : Dword) : Word := if sSel w then BitVec.ofNat 32 (sImm w) else t.sreg (sSb w)

/-- An address formed from a scalar register and fields, exactly (R417). -/
def addr (t : Tile) (sa base : Nat) : Nat := (t.sreg sa).toNat + base

/-! ## Pending writes (R44) -/

/-- A write of latency `lat` from an instruction issued in this beat: it lands at the end of beat issue + lat − 1. -/
def Tile.later (t : Tile) (lat : Nat) (a : Act) : Tile :=
  { t with pend := t.pend ++ [{ land := t.beat + lat - 1, issue := t.beat, act := a }] }

/-! ## Pipes (R46) -/

/-- A pipe at a beat: commands past their last beat have left, and a pending one behind none takes the running place, from
which it starts at its start beat. -/
def Pipe.at (p : Pipe) (b : Nat) : Pipe :=
  let live := fun (c : Option PipeCmd) => c.filter fun c => decide (b ≤ c.last)
  match live p.run with
  | some c => { run := some c, wait := p.wait }
  | none => { run := live p.wait, wait := none }

/-- Whether a pipe holds a command at a beat. -/
def Pipe.busy (p : Pipe) (b : Nat) : Bool := (p.at b).run.isSome || (p.at b).wait.isSome

/-- Whether a pipe is full at a beat. -/
def Pipe.full (p : Pipe) (b : Nat) : Bool := (p.at b).run.isSome && (p.at b).wait.isSome

/-- The start beat of a command issued at a beat whose rule allows it from `earliest` (R46). -/
def Pipe.startOf (p : Pipe) (b earliest : Nat) : Nat :=
  match (p.at b).run with
  | some c => max earliest (c.last + 1)
  | none => earliest

/-- The pipe after the command enters; it occupies `dur` beats after its start beat. -/
def Pipe.enter (p : Pipe) (b earliest dur : Nat) : Pipe :=
  let s := p.startOf b earliest
  let c : PipeCmd := { start := s, last := s + dur }
  let q := p.at b
  if q.run.isSome then { q with wait := some c } else { q with run := some c }

/-- The pipe once a pending command has started (R46). -/
def Pipe.start (p : Pipe) (b : Nat) : Pipe :=
  match p.wait with
  | some c => if c.start ≤ b then { run := some c, wait := none } else p
  | none => p

/-! ## Sequencing (R52, R53) -/

/-- Where issue goes after the word at `p`, with the loops still active: at the end of an active loop, back to its
body or out of it, innermost first (R53). -/
def afterWord (p : Nat) : List LoopRec → Nat × List LoopRec
  | [] => (p + 1, [])
  | l :: ls =>
    if l.stop = p then
      if 1 < l.left then (l.start + 1, { l with left := l.left - 1, index := l.index + 1 } :: ls)
      else afterWord p ls
    else (p + 1, l :: ls)

/-- The loops that stay active after a jump: a target outside a body ends that loop and those nested in it (R53). -/
def keepLoops (tgt : Nat) : List LoopRec → List LoopRec
  | [] => []
  | l :: ls =>
    let k := keepLoops tgt ls
    if k.length < ls.length then k
    else if l.start < tgt ∧ tgt ≤ l.stop then l :: k
    else k

/-- The tile after a word that goes on in sequence, the next issue `gap` beats later. -/
def Tile.advance (t : Tile) (gap : Nat) : Tile :=
  let (pc, loops) := afterWord t.pc t.loops
  { t with pc := pc, loops := loops, nextIssue := t.beat + gap }

/-- The tile after a taken jump (R52, R53). -/
def Tile.jump (t : Tile) (tgt : Nat) : Tile :=
  { t with pc := tgt, loops := keepLoops tgt t.loops, nextIssue := t.beat + 3 }

/-! ## Causes of a tile fault: the bits of TIL_ERR (R75) -/

def cInvalidOp : Nat := 0
def cFormatPair : Nat := 1
def cAddrRange : Nat := 2
def cPipeOverrun : Nat := 3
def cSplitBusy : Nat := 4
def cLoopDepth : Nat := 5
def cBarrierTimeout : Nat := 6
def cPstoreEcc : Nat := 7
def cSwFault : Nat := 8

/-- The checks of a word in the order of R418: the first that fails names the cause. -/
def firstFault : List (Bool × Nat) → Option Nat
  | [] => none
  | (ok, c) :: l => if ok then firstFault l else some c

end Sys2Proof.Machine
end

