-- ==== Sys2Proof/Machine/Flags.lean ====
section
/-!
DEFINITION. Status and error recording: what a tile fault sets and sends, the scratchpad's counters and first-event
registers, and the conditions under which a tile issues (R42 to R45, R73, R115 to R120, R418).
-/
namespace Sys2Proof.Machine

/-- A tile fault at its present beat (R73, R418): the state, the cause, the word and the beat.  What the beat has still
to do is done by the region's beat, which then abandons every pipe. -/
def Tile.fault (t : Tile) (cause : Nat) (code : BitVec 16) : Tile :=
  { t with st := .faulted, err := setBit t.err cause, firstPc := t.pc, swCode := code, errBeat := t.beat, wait := none }

/-- A tile fault with its FAULT token to the hen (R73, R164). -/
def State.tileFault (s : State) (t cause : Nat) (code : BitVec 16) : State :=
  let b := (s.tile t).beat
  (s.modTile t fun x => x.fault cause code).raise (regionOf t) 0 cause t b false

/-- Whether a run announced for a beat that has come can open in a region (R180, R387). -/
def State.startDue (s : State) (r : Nat) : Bool :=
  let x := s.region r
  let q := s.part x.ctl.part
  match x.ctl.atStart with
  | some k => decide (k ≤ x.clk.count) && x.clk.on && x.ctl.assigned && q.img.isSome && (q.st == .starting || q.st == .running)
  | none => false

/-- Whether a resume comes before an announced end of the run, after which it has no effect (R170). -/
def HenCtl.resumes (c : HenCtl) (q : Nat) : Bool :=
  match c.atStop with
  | some (k, _) => decide (q < k)
  | none => true

/-- Whether an action announced to a region for a beat that has come still waits (R150, R168, R170, R180). -/
def State.announcedDue (s : State) (r : Nat) : Bool :=
  let x := s.region r
  let c := x.ctl
  s.startDue r ||
    (match c.atHold with | some h => decide (h ≤ c.sched) && c.run && !c.held | none => false) ||
    (match c.atResume with | some q => decide (q ≤ x.clk.count) && c.run && c.resumes q | none => false) ||
    (match c.atPSwap with | some w => decide (w < c.sched) && c.run | none => false) ||
    (match c.atTSwap with | some w => decide (w < x.clk.count) && x.planeOn | none => false) ||
    (match c.atStop with | some (k, _) => decide (k < x.clk.count) && c.run | none => false)

/-- Whether the region's schedule stands still for this tile: held, at the announced hold beat (R45, R170), no run in
progress, or at the end beat. -/
def State.stopped (s : State) (r : Nat) : Bool :=
  let c := (s.region r).ctl
  c.held || !c.run || (match c.atHold with | some h => decide (h ≤ c.sched) | none => false) ||
    (match c.atStop with | some (k, _) => decide (k ≤ (s.region r).clk.count) | none => false)

/-- Whether a tile issues in this beat (R42, R45, R55, R73, R175). -/
def State.issues (s : State) (t : Nat) : Bool :=
  let x := s.tile t
  x.st == .running && x.owned && !s.stopped (regionOf t) && decide (x.nextIssue ≤ x.beat)

/-- The read or write counters of the audit, with the first event (R119, R120). -/
def SpRegs.audit (p : SpRegs) (write : Bool) (line code beat : Nat) : SpRegs :=
  if !p.enabled then p
  else if write then
    { p with
      wrCount := sat16 (p.wrCount + 1), wrSeen := true,
      wrLine := if p.wrSeen then p.wrLine else line, wrCode := if p.wrSeen then p.wrCode else code,
      wrBeat := if p.wrSeen then p.wrBeat else beat }
  else
    { p with
      rdCount := sat16 (p.rdCount + 1), rdSeen := true,
      rdLine := if p.rdSeen then p.rdLine else line, rdCode := if p.rdSeen then p.rdCode else code,
      rdBeat := if p.rdSeen then p.rdBeat else beat }

/-- A refused request recorded (R115). -/
def SpRegs.refuse (p : SpRegs) (write : Bool) (bank code beat : Nat) : SpRegs :=
  { p with
    cCount := sat16 (p.cCount + 1), cSeen := true,
    cWrite := if p.cSeen then p.cWrite else write, cBank := if p.cSeen then p.cBank else bank,
    cLoser := if p.cSeen then p.cLoser else code, cBeat := if p.cSeen then p.cBeat else beat }

/-- The double-bit errors that a read found in the words of its line recorded (R117). -/
def SpRegs.double (p : SpRegs) (line beat n : Nat) : SpRegs :=
  { p with
    uncorr := sat16 (p.uncorr + n), ueSeen := true,
    ueLine := if p.ueSeen then p.ueLine else line, ueBeat := if p.ueSeen then p.ueBeat else beat }

/-- A tile marked OVERDUE by a fault (R338, R341). -/
def TestRegs.mark (r : TestRegs) : TestRegs :=
  match r.st with
  | .current => { r with st := .overdue }
  | .due => { r with st := .overdue }
  | _ => r

/-! ## Hold and error conditions of a hen (R166) -/

/-- Whether a token is run-scoped (R166). -/
def runScoped (k : Token) : Bool :=
  k.cls = 1 || k.cls = 7 || (k.cls = 2 && k.kind ≠ 3 && k.kind ≠ 4) || (k.cls = 5 && (k.kind = 1 || k.kind = 2))

/-- Whether a token is of a reserved class or kind, or of a reserved origin (R163, R164, R166, R346). -/
def reservedToken (k : Token) : Bool :=
  let src := k.src.toNat
  (60 ≤ src && src ≤ 62) ||
  (match k.cls.toNat with
   | 1 => decide (2 < k.kind.toNat)
   | 2 => decide (7 < k.kind.toNat)
   | 3 => decide (0 < k.kind.toNat)
   | 4 => decide (6 < k.kind.toNat)
   | 5 => decide (3 < k.kind.toNat)
   | 6 => decide (2 < k.kind.toNat)
   | 7 => decide (1 < k.kind.toNat)
   | _ => true)

/-- Whether a node of a region discards a token as stale (R166): a partition's or a run's that is not this region's
partition, a run's that is not open, or a device-scoped one that is not the controller's. -/
def HenCtl.isStale (c : HenCtl) (k : Token) : Bool :=
  if k.scope = 3 then k.src ≠ 63
  else if (k.scope = 2 || runScoped k) && !(c.assigned && decide (c.part = k.part.toNat)) then true
  else runScoped k && (!c.run || c.runGen ≠ tokRunGen k)

/-- A node of a region receives a token: it leaves the flight; a reserved one is discarded with RESERVED_TOKEN, a stale
one is counted, and any other acts (R166). `tile` is the unit of a token received at a tile's control node. -/
def State.receive (s : State) (r : Nat) (n : NodeId) (k : Token) (f : State → State) : State :=
  let s := s.landed n k
  let x := s.region r
  if !x.planeOn then s
  else if reservedToken k then
    s.henError r 3 (match n with | .tile t => t | _ => 0x7FFF) x.clk.count true
  else if x.ctl.isStale k then s.stale r
  else f s

end Sys2Proof.Machine
end

