-- ==== Sys2Proof/Machine/Issue.lean ====
section
/-!
DEFINITION. The issue of one instruction word by a tile: fetch, the checks in the order of R418, and the two ways a
meaning acts, on the tile alone or on the module (R42 to R51).
-/
namespace Sys2Proof.Machine

/-- The image flags of the partition that holds a region: Sela compatibility mode (R105) and audit mode (R120). -/
def State.imgFlag (s : State) (r bit : Nat) : Bool :=
  match (s.part (s.region r).ctl.part).img with
  | some i => i.flags.getLsbD bit
  | none => false

/-- Sela compatibility mode (R105, R384: image FLAGS bit 0). -/
def State.sela (s : State) (r : Nat) : Bool := s.imgFlag r 0

/-- The word at the program counter as the fetch path gives it, whether a double-bit error makes it unreadable, and
the state with the correction counted (R51).  Three or more wrong bits give a free choice and a free word (R116). -/
def State.fetch (s : State) (t : Nat) : Dword × Bool × State :=
  let x := s.tile t
  let w := x.prog.look 0 x.pc
  let counted := fun s : State => s.modTile t fun x => { x with psCorr := sat16 (x.psCorr + 1) }
  match x.progEcc.look .good x.pc with
  | .good => (w, false, s)
  | .single => (w, false, counted s)
  | .double => (w, true, s)
  | .many =>
    let (k, s1) := s.draw
    let (v, s2) := s1.draw
    if k.toNat % 3 = 0 then (w, true, s1)
    else if k.toNat % 3 = 1 then (v, false, counted s2)
    else (w, false, s1)

/-- Issue the word at the program counter of tile `t` if it is the row of the class and opcode.  A word that cannot be
read, a reserved class or opcode, or a program counter past the store faults whichever row is named (R48, R51, R418;
log entry 15). -/
def issueWord (cls op t : Nat) (body : Dword → State → State) (s : State) : Host.Outcome State Fault Refusal :=
  onUnit (t < 20000) s fun s =>
    due (s.issues t) s fun s =>
      if 6144 ≤ (s.tile t).pc then s.tileFault t cAddrRange 0
      else
        let (w, bad, s1) := s.fetch t
        if bad then s1.tileFault t cPstoreEcc 0
        else if !isRow (wCls w) (wOp w) then s1.tileFault t cInvalidOp 0
        else if wCls w = cls ∧ wOp w = op then body w s1
        else s

/-- A word that acts on its tile alone: the first failing check faults, else the tile changes. -/
def issueTile (cls op t : Nat) (checks : Bool → Dword → Tile → List (Bool × Nat)) (eff : Bool → Dword → Tile → Tile)
    (s : State) : Host.Outcome State Fault Refusal :=
  issueWord cls op t (fun w s =>
    let sela := s.sela (regionOf t)
    let x := s.tile t
    match firstFault (checks sela w x) with
    | some c => s.tileFault t c 0
    | none => s.setTile t (eff sela w x)) s

end Sys2Proof.Machine
end

