-- ==== Sys2Proof/Machine/Array.lean ====
section
/-!
DEFINITION. The array class (R59 to R69, R421).
-/
namespace Sys2Proof.Machine

/-- K depth, beats per A row and bytes per A row of an operand format (R59). -/
def depthOf (f : Nat) : Nat := if isMx f then 32 else 16
def beatsOf (f : Nat) : Nat :=
  match f with
  | 1 => 2 | 2 => 2 | 7 => 2 | 8 => 2 | 12 => 2 | _ => 1
def rowBytes (f : Nat) : Nat :=
  match f with
  | 1 => 32 | 2 => 32 | 7 => 32 | 8 => 32 | 12 => 32 | 9 => 24 | 10 => 24 | _ => 16

/-- Accepted operand pairs (R59). -/
def pairOk (a b : Nat) : Bool :=
  ((a = 3 || a = 4) && (b = 3 || b = 4)) || (a = b && (a = 1 || a = 2 || a = 5 || a = 12)) ||
  ((a = 7 || a = 8) && (b = 7 || b = 8)) || (9 ≤ a && a ≤ 11 && 9 ≤ b && b ≤ 11)

/-- Lines of a B block of a format in a group of width `w`: the elements, then the scales (R64). -/
def elemLines (w f : Nat) : Nat := (depthOf f * w * elemBits f + 511) / 512
def blockLines (w f : Nat) : Nat := elemLines w f + (if isMx f then 1 else 0)

/-- Bytes of an output row (R64). -/
def outBytes (w f : Nat) : Nat := w * elemBits f / 8

/-- Beats per drained row (R66). -/
def drainBeats (w f : Nat) : Nat := if f = 0 ∧ w = 32 then 2 else 1

/-- The base line of a command (R64, R417). -/
def arrBase (x : Tile) (w : Dword) : Nat := addr x (aSa w) (aLine w)

/-- The line after the last line of rows of `n` bytes, with their scale bytes in an MX format (R64). -/
def rowsEnd (base m n : Nat) (mx : Bool) : Nat :=
  let rows := base + (m * n + 63) / 64
  if mx then rows + (m + 63) / 64 else rows

/-- Group width and first column of the group a word names. -/
def wordW (x : Tile) (w : Dword) : Nat := groupW (x.arr (aArr w)).split
def wordCol (x : Tile) (w : Dword) : Nat := aGrp w * wordW x w

/-- A word's own fields (R48); Sela compatibility mode accepts codes 1 to 5 alone (R106; log entry 17). -/
def arrayWordOk (sela : Bool) (w : Dword) (x : Tile) : Bool :=
  arrayOk (x.arr (aArr w)).split w &&
  (!sela || (match wOp w with
    | 2 => decide (aFmt w ≤ 5)
    | 3 => decide (aFmt w ≤ 5 ∧ aFmt2 w ≤ 5)
    | _ => true))

/-- A pipe of an array for the group a word names. -/
def Tile.mulPipe (x : Tile) (a g : Nat) : Pipe := (x.arr a).mul.look {} g
def Tile.setMul (x : Tile) (a g : Nat) (p : Pipe) : Tile :=
  let m := x.arr a
  x.setArr a { m with mul := m.mul.put {} g p }

/-- Whether every pipe of an array is empty (R61). -/
def MArray.idle (m : MArray) (b : Nat) : Bool :=
  !m.bload.busy b && !m.drain.busy b && (List.range 4).all fun g => !(m.mul.look {} g).busy b

/-- ACFG (R61, R421): in effect at the beat after issue, so that it lands at the end of the issue beat. -/
def execAcfg (t : Nat) (s : State) : Host.Outcome State Fault Refusal :=
  issueTile 2 0x01 t
    (fun sela w x => [(arrayWordOk sela w x, cInvalidOp), ((x.arr (aArr w)).idle x.beat, cSplitBusy)])
    (fun _ w x => (x.later 1 (.acfg (aArr w) (aGrp w))).advance 1) s

/-- ALOADB (R64, R66, R421). -/
def execAloadb (t : Nat) (s : State) : Host.Outcome State Fault Refusal :=
  issueTile 2 0x02 t
    (fun sela w x =>
      [(arrayWordOk sela w x, cInvalidOp),
       (arrBase x w + blockLines (wordW x w) (aFmt w) ≤ 6144, cAddrRange),
       (!(x.arr (aArr w)).bload.full x.beat, cPipeOverrun)])
    (fun _ w x =>
      let a := aArr w
      let m := x.arr a
      let n := blockLines (wordW x w) (aFmt w)
      let b := m.bload.startOf x.beat (x.beat + 1)
      let reqs := (List.range n).map fun j =>
        { beat := b + j, code := 3 + a, line := arrBase x w + j, issue := x.beat,
          dest := RdDest.bline a (wordCol x w) (wordW x w) (aFmt w) j : RdReq }
      ({ x with rds := x.rds ++ reqs }.setArr a { m with bload := m.bload.enter x.beat (x.beat + 1) (n - 1) }).advance
        1) s

/-- AMUL (R59, R64, R66, R91, R106): each row's lines are read seven beats before it enters. -/
def execAmul (t : Nat) (s : State) : Host.Outcome State Fault Refusal :=
  issueTile 2 0x03 t
    (fun sela w x =>
      let fa := aFmt w
      [(arrayWordOk sela w x, cInvalidOp), (pairOk fa (aFmt2 w), cFormatPair),
       (aM w = 0 || rowsEnd (arrBase x w) (aM w) (rowBytes fa) (isMx fa) ≤ 6144, cAddrRange),
       (aM w = 0 || !(x.mulPipe (aArr w) (aGrp w)).full x.beat, cPipeOverrun)])
    (fun sela w x =>
      if aM w = 0 then x.advance 1
      else
        let a := aArr w
        let g := aGrp w
        let fa := aFmt w
        let step := (if sela then 4 else 1) * beatsOf fa
        let p := x.mulPipe a g
        let e0 := p.startOf x.beat (x.beat + 8)
        let row0 := 64 * arrBase x w
        let scale0 := 64 * (arrBase x w + (aM w * rowBytes fa + 63) / 64)
        let ents := (List.range (aM w)).map fun i =>
          { beat := e0 + i * step, arr := a, grp := g, fmtA := fa, fmtB := aFmt2 w, swap := aSwap w && i == 0,
            ovr := aAcc w == 1, row := (aRow w + i) % 128, rowByte := row0 + i * rowBytes fa,
            scaleByte := scale0 + i, issue := x.beat, lines := [] : Entry }
        let reqs := ents.flatMap fun (e : Entry) =>
          let l0 := e.rowByte / 64
          let l1 := (e.rowByte + rowBytes fa - 1) / 64
          let ls := (if l0 = l1 then [l0] else [l0, l1]) ++ (if isMx fa then [e.scaleByte / 64] else [])
          ls.map fun l => { beat := e.beat - 7, code := 7 + 4 * a + g, line := l, issue := x.beat,
                            dest := RdDest.arow a g e.beat : RdReq }
        ({ x with rds := x.rds ++ reqs, entries := x.entries ++ ents }.setMul a g
          (p.enter x.beat (x.beat + 8) (aM w * step - 1))).advance 1) s

/-- The checks ADRAIN and AZERO share: the group's drain pipe has room. -/
def drainRoom (w : Dword) (x : Tile) : Bool := aM w = 0 || !(x.arr (aArr w)).drain.full x.beat

/-- ADRAIN (R64, R66, R94). -/
def execAdrain (t : Nat) (s : State) : Host.Outcome State Fault Refusal :=
  issueTile 2 0x04 t
    (fun sela w x =>
      let f := aFmt w
      [(arrayWordOk sela w x, cInvalidOp),
       (aM w = 0 || rowsEnd (arrBase x w) (aM w) (outBytes (wordW x w) f) (isMx f) ≤ 6144, cAddrRange),
       (drainRoom w x, cPipeOverrun)])
    (fun _ w x =>
      if aM w = 0 then x.advance 1
      else
        let a := aArr w
        let m := x.arr a
        let f := aFmt w
        let q := drainBeats (wordW x w) f
        let ro := outBytes (wordW x w) f
        let b := m.drain.startOf x.beat (x.beat + 1)
        let scale0 := 64 * (arrBase x w + (aM w * ro + 63) / 64)
        let ops := (List.range (aM w)).map fun i =>
          { beat := b + i * q, arr := a, grp := aGrp w, fmt := f, rnd := aRnd w, zero := aZero w,
            row := (aRow w + i) % 128, outByte := 64 * arrBase x w + i * ro, scaleByte := scale0 + i,
            scaleBeat := b + aM w * q + 8, issue := x.beat : DrainOp }
        ({ x with drains := x.drains ++ ops }.setArr a
          { m with drain := m.drain.enter x.beat (x.beat + 1) (aM w * q - 1) }).advance 1) s

/-- AZERO (R66). -/
def execAzero (t : Nat) (s : State) : Host.Outcome State Fault Refusal :=
  issueTile 2 0x05 t
    (fun sela w x => [(arrayWordOk sela w x, cInvalidOp), (drainRoom w x, cPipeOverrun)])
    (fun _ w x =>
      if aM w = 0 then x.advance 1
      else
        let a := aArr w
        let m := x.arr a
        let b := m.drain.startOf x.beat (x.beat + 1)
        let zs := (List.range (aM w)).map fun i =>
          { land := b + i, issue := x.beat,
            act := Act.accZero a ((aRow w + i) % 128) (wordCol x w) (wordW x w) : Pend }
        ({ x with pend := x.pend ++ zs }.setArr a
          { m with drain := m.drain.enter x.beat (x.beat + 1) (aM w - 1) }).advance 1) s

end Sys2Proof.Machine
end

