-- ==== Sys2Proof/Machine/Transfer.lean ====
section
/-!
DEFINITION. The transfer class (R70, R71).
-/
namespace Sys2Proof.Machine

/-- Line `i` of a transfer (R70, R417). -/
def xferLine (x : Tile) (w : Dword) (i : Nat) : Nat := addr x (xSa w) (xLine w) + i * xStride w

/-- The checks of XOUT and XIN; a count of zero enters no pipe and names no line (R50, R70). -/
def xferChecks (pipe : Tile → Pipe) (_ : Bool) (w : Dword) (x : Tile) : List (Bool × Nat) :=
  [(transferOk w, cInvalidOp), (xCount w = 0 || xferLine x w (xCount w - 1) < 6144, cAddrRange),
   (xCount w = 0 || !(pipe x).full x.beat, cPipeOverrun)]

/-- XOUT (R70). -/
def execXout (t : Nat) (s : State) : Host.Outcome State Fault Refusal :=
  issueTile 3 0x00 t (xferChecks Tile.xout)
    (fun _ w x =>
      if xCount w = 0 then x.advance 1
      else
        let b := x.xout.startOf x.beat (x.beat + 1)
        let reqs := (List.range (xCount w)).map fun i =>
          { beat := b + i, code := 0, line := xferLine x w i, issue := x.beat, dest := RdDest.xout (xTag w) : RdReq }
        { x with rds := x.rds ++ reqs, xout := x.xout.enter x.beat (x.beat + 1) (xCount w - 1) }.advance 1) s

/-- XIN (R70). -/
def execXin (t : Nat) (s : State) : Host.Outcome State Fault Refusal :=
  issueTile 3 0x01 t (xferChecks Tile.xin)
    (fun _ w x =>
      if xCount w = 0 then x.advance 1
      else
        let b := x.xin.startOf x.beat (x.beat + 1)
        { x with caps := x.caps ++ (List.range (xCount w)).map fun i => (b + i, xferLine x w i),
                 xin := x.xin.enter x.beat (x.beat + 1) (xCount w - 1) }.advance 1) s

end Sys2Proof.Machine
end

