-- ==== Sys2Proof/Machine/TileBeat.lean ====
section
/-!
DEFINITION. One schedule beat of a tile core: captures, starts, array entries, drains, scratchpad ports and landings
(R42 to R46, R57, R66, R67, R70, R71, R109 to R121, R421).
-/
namespace Sys2Proof.Machine

/-- Insert by a key, after equal keys. -/
def insertBy {α : Type} (key : α → Nat) (a : α) : List α → List α
  | [] => [a]
  | b :: l => if key a < key b then a :: b :: l else b :: insertBy key a l

/-- A stable sort by a key. -/
def sortBy {α : Type} (key : α → Nat) (l : List α) : List α := l.foldl (fun acc a => insertBy key a acc) []

/-! ## Error protection of a line (R113, R116, R117) -/

/-- What a read of a line finds: the data delivered, words corrected, words with a double-bit error, and the free values
drawn for words with three or more wrong bits (R116). -/
structure LineRead where
  data : Line
  corr : Nat
  double : Nat
  free : Nat

/-- Word `k` of a line, read. -/
def readWord (x : Tile) (l k : Nat) (a : LineRead) : LineRead :=
  match x.spEcc.look .good (8 * l + k) with
  | .good => a
  | .single => { a with corr := a.corr + 1 }
  | .double => { a with double := a.double + 1 }
  | .many =>
    let c := (Config.freeValue a.free).toNat % 3
    if c = 0 then { a with double := a.double + 1, free := a.free + 1 }
    else if c = 1 then
      { a with
        data := mergeLine a.data ((Config.freeValue (a.free + 1)).setWidth 512 <<< (64 * k)) (maskOf (8 * k) 8),
        corr := a.corr + 1, free := a.free + 2 }
    else { a with free := a.free + 1 }

/-- A line read through the check. -/
def readLine (x : Tile) (l free : Nat) : LineRead :=
  let a : LineRead := { data := x.sp.look 0 l, corr := 0, double := 0, free := free }
  if x.spEcc.isEmpty then a else (List.range 8).foldl (fun a k => readWord x l k a) a

/-- The check bits of word `k` of a line after a write under a mask, and whether a correction is counted (R113). A word with
three or more wrong bits that is merged in part stays one, uncounted: the spec promises nothing for it (DESIGN CHOICE, log
entry 4). -/
def writeWord (m : BitVec 64) (l k : Nat) (a : Tab Ecc × Nat) : Tab Ecc × Nat :=
  let part := bits m (8 * k + 7) (8 * k)
  if part = 0 then a
  else if part = 255 then (a.1.put .good (8 * l + k) .good, a.2)
  else match a.1.look .good (8 * l + k) with
    | .single => (a.1.put .good (8 * l + k) .good, a.2 + 1)
    | _ => a

/-- A write that lands on a line (R112, R113, R118, R119). -/
def Tile.landLine (x : Tile) (l code : Nat) (m : BitVec 64) (v : Line) : Tile :=
  let st := x.lst.look {} l
  let (ecc, n) := if x.spEcc.isEmpty then ([], 0) else (List.range 8).foldl (fun a k => writeWord m l k a) (x.spEcc, 0)
  let p := if st.fill && !st.drain then x.spr.audit true l code x.beat else x.spr
  { x with
    sp := x.sp.put 0 l (mergeLine (x.sp.look 0 l) v m), spEcc := ecc,
    lst := x.lst.put {} l { fill := true, drain := false }, spr := { p with corr := sat16 (p.corr + n) } }

/-! ## B operands (R421) -/

/-- The element number `i` of a block from the lines loaded so far. -/
def blockElem (buf : Tab Line) (b i : Nat) : Nat :=
  let l := i * b / 512
  ((buf.look 0 l).toNat + (buf.look 0 (l + 1)).toNat * 2 ^ 512) / 2 ^ (i * b % 512) % 2 ^ b

/-- Element (k, n) put in the shadow word of its cell (R421). -/
def fillShadow (f : Nat) (k n v : Nat) (sh : Tab (BitVec 16)) : Tab (BitVec 16) :=
  let c := 32 * (k % 16) + n
  let old := sh.look 0 c
  let new : BitVec 16 :=
    if elemBits f = 16 then BitVec.ofNat 16 v
    else if depthOf f = 16 then BitVec.ofNat 16 v
    else setField old (if k < 16 then 0 else 8) 8 v
  sh.put 0 c new

/-- Line `j` of a B block lands in the shadow (R66, R421): the elements that end in it, or the scales. -/
def MArray.loadLine (m : MArray) (col w f j : Nat) (v : Line) : MArray :=
  let buf := m.bbuf.put 0 j v
  let b := elemBits f
  let m := { m with bbuf := buf }
  let m :=
    if isMx f then m
    else { m with sSha := (List.range w).foldl (fun t n => t.put 0x7F (col + n) 0x7F) m.sSha }
  if j < elemLines w f then
    let els := (List.range (depthOf f * w)).filter fun i => (i * b + b - 1) / 512 = j
    { m with bSha := els.foldl (fun sh i => fillShadow f (i / w) (col + i % w) (blockElem buf b i) sh) m.bSha }
  else { m with sSha := (List.range w).foldl (fun t n => t.put 0x7F (col + n) (lineByte v n)) m.sSha }

/-- Cells of two tables exchanged where the key is chosen. -/
def exchange {α : Type} [DecidableEq α] (d : α) (keys : List Nat) (a b : Tab α) : Tab α × Tab α :=
  keys.foldl (fun p k => (p.1.put d k (p.2.look d k), p.2.put d k (p.1.look d k))) (a, b)

/-- The swap of a group's shadow and active B (R65, R67, R421; log entry 19). -/
def MArray.swapB (m : MArray) (col w : Nat) : MArray :=
  let cells := (List.range 16).flatMap fun k => (List.range w).map fun n => 32 * k + col + n
  let (a, b) := exchange (0 : BitVec 16) cells m.bAct m.bSha
  let (sa, sb) := exchange (0x7F : Byte) ((List.range w).map fun n => col + n) m.sAct m.sSha
  { m with bAct := a, bSha := b, sAct := sa, sSha := sb }

/-- Element (k, n) of the active B in a format (R421). -/
def activeElem (m : MArray) (f k n : Nat) : Term :=
  let v := (m.bAct.look 0 (32 * (k % 16) + n)).toNat
  elemValue f ((if depthOf f = 32 ∧ 16 ≤ k then v / 256 else v) % 2 ^ elemBits f)

/-! ## The steps of a beat -/

/-- A captured word (R70, R71): written to its line, its sideband shown; a word with no capture is dropped. -/
def Tile.capture (x : Tile) (w : Option NWord) : Tile :=
  match x.caps.find? fun c => c.1 = x.beat, w with
  | some c, w =>
    let v := w.getD {}
    { x with
      caps := x.caps.filter fun c => c.1 ≠ x.beat, xsb := v.side,
      wrs := x.wrs ++ [{ beat := x.beat + 1, code := 0, line := c.2, issue := x.beat, mask := BitVec.allOnes 64,
                         data := v.data : WrReq }] }
  | none, some _ => { x with xdrop := sat16 (x.xdrop + 1) }
  | none, none => x

/-- The VST that starts in this beat (R57). -/
def Tile.startVst (x : Tile) : Tile :=
  match x.vsts.find? fun v => v.start = x.beat with
  | some v =>
    let reqs := (List.range 4).map fun k =>
      { beat := x.beat + 1 + k, code := 1, line := v.line + k, issue := v.issue, mask := BitVec.allOnes 64,
        data := vLine (x.vreg v.va) k : WrReq }
    { x with vsts := x.vsts.filter fun v => v.start ≠ x.beat, wrs := x.wrs ++ reqs }
  | none => x

/-- The A row of an entry, from the lines read for it. -/
def entryRow (e : Entry) : List Term :=
  let l0 := e.rowByte / 64
  let s := ((e.lines.look 0 l0).toNat + (e.lines.look 0 (l0 + 1)).toNat * 2 ^ 512) / 2 ^ (8 * (e.rowByte % 64))
  (List.range (depthOf e.fmtA)).map fun k => elemValue e.fmtA (packedElem e.fmtA s k)

/-- One A row enters its group (R66, R91). -/
def Tile.enterRow (sela : Bool) (x : Tile) (e : Entry) : Tile :=
  let m := x.arr e.arr
  let w := groupW m.split
  let col := e.grp * w
  let m := if e.swap then m.swapB col w else m
  let a := entryRow e
  let xa := if isMx e.fmtA then some (lineByte (e.lines.look 0 (e.scaleByte / 64)) (e.scaleByte % 64)).toNat else none
  let cols := (List.range w).map fun n =>
    let xb := if isMx e.fmtB then some (m.sAct.look 0x7F (col + n)).toNat else none
    columnTerms sela xa xb a ((List.range (depthOf e.fmtB)).map fun k => activeElem m e.fmtB k (col + n))
  let x := x.setArr e.arr m
  { x with pend := x.pend ++ [{ land := x.beat + 6, issue := e.issue, act := .acc e.arr e.row col e.ovr cols : Pend }] }

/-- The rows that enter in this beat. -/
def Tile.enterRows (sela : Bool) (x : Tile) : Tile :=
  let now := x.entries.filter fun e => e.beat = x.beat
  now.foldl (Tile.enterRow sela) { x with entries := x.entries.filter fun e => e.beat ≠ x.beat }

/-- Cells of the arrays that are not gated in this beat (R60, R333): of each entering row, the cell rows with a non-zero A
element by the columns with a non-zero B element. -/
def Tile.cellsOn (x : Tile) : Nat :=
  ((x.entries.filter fun e => e.beat = x.beat).map fun e =>
    let m0 := x.arr e.arr
    let w := groupW m0.split
    let col := e.grp * w
    let m := if e.swap then m0.swapB col w else m0
    let a := entryRow e
    let live := fun (t : Term) => t ≠ .fin 0 0 && (match t with | .fin m _ => m ≠ 0 | _ => true)
    let rows := ((List.range 16).filter fun k => live (a.getD k (.fin 0 0)) || live (a.getD (k + 16) (.fin 0 0))).length
    let cols := ((List.range w).filter fun n => (List.range (depthOf e.fmtB)).any fun k =>
      live (activeElem m e.fmtB k (col + n))).length
    rows * cols).sum

/-- Whether a vector instruction has issued in this beat (R333): it has left a landing, a store or a load behind. -/
def Tile.vectorOn (x : Tile) : Bool :=
  (x.pend.any fun p => p.issue = x.beat && (match p.act with
    | .vreg _ _ => true
    | .norm _ _ _ => true
    | _ => false)) || (x.vsts.any fun v => v.issue = x.beat) || x.rds.any fun q => q.issue = x.beat && (match q.dest with
    | .vline _ _ _ => true
    | _ => false)

/-- The bytes a drain writes at a byte address, as port requests (R64, R114). -/
def outWrites (beat code issue byte : Nat) (n : Nat) (v : Nat) : List WrReq :=
  let l0 := byte / 64
  let o := byte % 64
  let one := fun (k : Nat) =>
    let lo := if k = 0 then o else 0
    let hi := min 64 (o + n - 64 * k)
    { beat := beat, code := code, line := l0 + k, issue := issue, mask := maskOf lo (hi - lo),
      data := BitVec.ofNat 512 (v * 2 ^ (8 * o) / 2 ^ (512 * k)) : WrReq }
  (List.range ((o + n + 63) / 64)).map one

/-- One accumulator row is drained (R64, R66, R68, R94). -/
def Tile.drainRow (sela : Bool) (x : Tile) (d : DrainOp) : Tile :=
  let m := x.arr d.arr
  let w := groupW m.split
  let col := d.grp * w
  let vals := (List.range w).map fun n => m.acc.look 0 (32 * d.row + col + n)
  let (g, rs) := if d.rnd = 2 && d.fmt ≠ 0 then draws sela w x.gen else (x.gen, List.replicate w 0)
  let x := { x with gen := g }
  let reqs :=
    if isMx d.fmt then
      let (sc, els) := convertBlock d.fmt d.rnd vals rs
      outWrites (x.beat + 8) (3 + d.arr) d.issue d.outByte (outBytes w d.fmt) (packElems d.fmt els) ++
        outWrites d.scaleBeat (3 + d.arr) d.issue d.scaleByte 1 sc
    else
      let els := if d.fmt = 0 then vals.map BitVec.toNat
        else List.zipWith (fun v r => convert d.fmt d.rnd r sela v) vals rs
      outWrites (x.beat + 4) (3 + d.arr) d.issue d.outByte (outBytes w d.fmt) (packElems d.fmt els)
  let z := if d.zero then [{ land := x.beat, issue := d.issue, act := .accZero d.arr d.row col w : Pend }] else []
  { x with wrs := x.wrs ++ reqs, pend := x.pend ++ z }

/-- The rows drained in this beat, in array order (R89). -/
def Tile.drainRows (sela : Bool) (x : Tile) : Tile :=
  let now := sortBy DrainOp.arr (x.drains.filter fun d => d.beat = x.beat)
  now.foldl (Tile.drainRow sela) { x with drains := x.drains.filter fun d => d.beat ≠ x.beat }

/-- The delivery of a line that a port read at this beat (R111, R114). -/
def Tile.deliver (x : Tile) (q : RdReq) (v : Line) : Tile :=
  let put := fun (land : Nat) (a : Act) => { x with pend := x.pend ++ [{ land := land, issue := q.issue, act := a }] }
  match q.dest with
  | .sreg sd off => put (x.beat + 6) (.sreg sd (v.extractLsb' (8 * off) 32))
  | .vline vd k start => put (start + 10) (.vline vd k v)
  | .bline arr col w fmt j => put (x.beat + 6) (.bline arr col w fmt j v)
  | .arow arr grp entry =>
    { x with
      entries := x.entries.map fun e =>
        if e.arr = arr ∧ e.grp = grp ∧ e.beat = entry then { e with lines := e.lines.put 0 q.line v } else e }
  | .xout tag => { x with outq := x.outq ++ [(x.beat + 7, v, tag)] }

/-- Whether a request loses its bank to another (R110, R115): a lower code, then a lower line. -/
def loses (key bank : Nat → Nat) (q : Nat) (all : List Nat) : Bool :=
  all.any fun p => bank p = bank q && key p < key q

/-- A request as a number: its code and line. -/
def reqKey (code line : Nat) : Nat := code * 8192 + line

/-- The bank of a request's number (R109). -/
def keyBank (k : Nat) : Nat := k % 8192 % 12

/-- A read request at its port beat, granted or refused (R115 to R120).  The pair carries the tile with the free values
drawn, and the double-bit errors found. -/
def Tile.serveRead (keys : List Nat) (a : Tile × Nat × Nat) (q : RdReq) : Tile × Nat × Nat :=
  let (x, free, bad) := a
  let k := reqKey q.code q.line
  if loses id keyBank k keys then
    ({ x with spr := x.spr.refuse false (q.line % 12) q.code x.beat }.deliver q 0, free, bad)
  else
    let r := readLine x q.line free
    let st := x.lst.look {} q.line
    let p := if st.fill then x.spr else x.spr.audit false q.line q.code x.beat
    let p := { p with corr := sat16 (p.corr + r.corr) }
    let p := if r.double = 0 then p else p.double q.line x.beat r.double
    ({ x with spr := p, lst := x.lst.put {} q.line { st with drain := true } }.deliver q r.data, r.free, bad + r.double)

/-- The reads of this beat, in the order of code and line. -/
def Tile.serveReads (x : Tile) (free : Nat) : Tile × Nat × Nat :=
  let now := sortBy (fun q => reqKey q.code q.line) (x.rds.filter fun q => q.beat = x.beat)
  let keys := now.map fun q => reqKey q.code q.line
  now.foldl (Tile.serveRead keys) ({ x with rds := x.rds.filter fun q => q.beat ≠ x.beat }, free, 0)

/-- Requests of one requester to one line in one beat are one request. -/
def mergeWrites : List WrReq → List WrReq
  | [] => []
  | q :: l =>
    match mergeWrites l with
    | [] => [q]
    | p :: r =>
      if p.code = q.code ∧ p.line = q.line then
        { p with mask := p.mask ||| q.mask, data := mergeLine q.data p.data p.mask } :: r
      else q :: p :: r

/-- A write request at its port beat: granted, it lands one beat later (R112, R115). -/
def Tile.serveWrite (keys : List Nat) (x : Tile) (q : WrReq) : Tile :=
  if loses id keyBank (reqKey q.code q.line) keys then
    { x with spr := x.spr.refuse true (q.line % 12) q.code x.beat }
  else
    { x with
      pend := x.pend ++ [{ land := x.beat + 1, issue := q.issue, act := .line q.line q.code q.mask q.data : Pend }] }

/-- The writes of this beat. -/
def Tile.serveWrites (x : Tile) : Tile :=
  let now := mergeWrites (sortBy (fun q => reqKey q.code q.line) (x.wrs.filter fun q => q.beat = x.beat))
  let keys := now.map fun q => reqKey q.code q.line
  now.foldl (Tile.serveWrite keys) { x with wrs := x.wrs.filter fun q => q.beat ≠ x.beat }

/-- A landing (R44); `x0` is the tile at the start of the beat, which accumulators and norms are read from. -/
def Tile.land (x0 : Tile) (x : Tile) (p : Pend) : Tile :=
  match p.act with
  | .sreg sd v => if sd = 0 then x else { x with sregs := x.sregs.put 0 sd v }
  | .vreg vd v => { x with vregs := x.vregs.put 0 vd v }
  | .vline vd k v => { x with vregs := x.vregs.put 0 vd (setField (x.vreg vd) (512 * k) 512 v.toNat) }
  | .norm tag kind v =>
    { x with
      norms := x.norms.put 0 (2 * tag + kind) (fadd (x0.norms.look 0 (2 * tag + kind)) v),
      normNew := if x.normNew.contains tag then x.normNew else tag :: x.normNew }
  | .normZero tags =>
    { x with
      norms := tags.foldl (fun n k => (n.put 0 (2 * k) 0).put 0 (2 * k + 1) 0) x.norms,
      normNew := x.normNew.filter fun k => !tags.contains k }
  | .bline arr col w fmt j v => x.setArr arr ((x.arr arr).loadLine col w fmt j v)
  | .acfg arr split =>
    x.setArr arr { x.arr arr with split := split, bAct := [], bSha := [], sAct := [], sSha := [] }
  | .acc arr row col ovr cols =>
    let m := x.arr arr
    let old := (x0.arr arr).acc
    let ts := (List.range cols.length).zip cols
    x.setArr arr { m with
      acc := ts.foldl (fun a p => a.put 0 (32 * row + col + p.1)
        (accumulate ovr (old.look 0 (32 * row + col + p.1)) p.2)) m.acc }
  | .accZero arr row col w =>
    let m := x.arr arr
    x.setArr arr { m with acc := (List.range w).foldl (fun a n => a.put 0 (32 * row + col + n) 0) m.acc }
  | .line l code mask v => x.landLine l code mask v

/-- The order of landings in one beat: zero settings, then by issue beat, then lines by code and number (R44, R67,
R120). -/
def landKey (p : Pend) : Nat :=
  match p.act with
  | .accZero .. => 0
  | .line l code _ _ => 2 ^ 80 + reqKey code l
  | _ => p.issue + 1

/-- The landings of this beat. -/
def Tile.landings (x0 x : Tile) : Tile :=
  let now := sortBy landKey (x.pend.filter fun p => p.land = x.beat)
  now.foldl (Tile.land x0) { x with pend := x.pend.filter fun p => p.land ≠ x.beat }

/-- Every pipe abandoned, with what was on its way (R73, R134). -/
def Tile.abandon (x : Tile) : Tile :=
  { x with
    pend := [], rds := [], wrs := [], entries := [], drains := [], vsts := [], caps := [], outq := [],
    vmem := {}, xout := {}, xin := {},
    arrays := x.arrays.foldl (fun t p => t.put {} p.1 { p.2 with bload := {}, drain := {}, mul := [] }) [] }

/-- The word on the Local input at this beat (R70, R71). -/
def Tile.localIn (x : Tile) : NWord :=
  match x.outq.find? fun q => q.1 = x.beat with
  | some q => { data := q.2.1, side := q.2.2 }
  | none => {}

/-- One schedule beat of a tile core (R42 to R46): the tile after it, the free values drawn, and the double-bit errors its
reads found.  `w` is the line the router delivers on the Local output. -/
def Tile.coreBeat (sela : Bool) (w : Option NWord) (free : Nat) (x : Tile) : Tile × Nat × Nat :=
  let x1 := ((x.capture w).startVst.enterRows sela).drainRows sela
  let (x2, free, bad) := x1.serveReads free
  let x3 := Tile.landings x x2.serveWrites
  let x4 := { x3 with
    outq := x3.outq.filter fun q => q.1 ≠ x3.beat, beat := x3.beat + 1 }
  (if x4.st == .faulted then x4.abandon else x4, free, bad)

end Sys2Proof.Machine
end

