-- ==== Sys2Proof/Machine/Router.lean ====
section
/-!
DEFINITION. The data network: slot tables, words, border queues, late words and the router's part of a beat
(R138 to R158).
-/
namespace Sys2Proof.Machine

/-! ## Positions and fields -/

/-- The period of a bank for the partition or for transit (R141). -/
def Router.period (x : Router) (transit bank : Bool) : Nat :=
  match transit, bank with
  | false, false => x.pp0
  | false, true => x.pp1
  | true, false => x.tp0
  | true, true => x.tp1

/-- The entries of a bank. -/
def Router.bank (x : Router) (b : Bool) : Tab Dword := if b then x.bank1 else x.bank0

/-- The active bank that a position follows: the Local output's for the partition, the lowest transit-owned output's
for transit (R141). -/
def Router.posBank (x : Router) (transit : Bool) : Bool :=
  if transit then
    match [0, 1, 2, 3].find? fun d => x.tOut.getLsbD d with
    | some d => x.active.getLsbD d
    | none => x.active.getLsbD 0
  else x.active.getLsbD 4

/-- SPOS (R141): counted from the last swap while the partition's tables are in effect, else as they left it. -/
def Router.sposAt (x : Router) (c : HenCtl) : Nat :=
  if c.tables then (((c.sched : Int) - c.posBase) % (x.period false (x.posBank false) : Int)).toNat else x.spos

/-- TPOS (R141). -/
def Router.tposAt (x : Router) (c : HenCtl) (count : Nat) : Nat :=
  (((count : Int) - c.tBase) % (x.period true (x.posBank true) : Int)).toNat

/-- The field of an output in an entry (R142). -/
def entryField (e : Dword) (o : Nat) : Nat := bits e (12 * o + 11) (12 * o)

/-- Whether an output is transit-owned (R140). -/
def Router.transit (x : Router) (o : Nat) : Bool := o < 4 && x.tOut.getLsbD o

/-- The field an output applies in this beat, if its owner's tables are in effect (R139, R151). -/
def Router.applied (x : Router) (c : HenCtl) (count o : Nat) : Option Nat :=
  let e := fun (pos : Nat) => entryField ((x.bank (x.active.getLsbD o)).look 0 pos) o
  if x.transit o then some (e (x.tposAt c count))
  else if c.tables && !c.held then some (e (x.sposAt c))
  else none

/-- The sources and operation of a field (R142). -/
def fSrcA (f : Nat) : Nat := f % 8
def fSrcB (f : Nat) : Nat := f / 8 % 8
def fOp (f : Nat) : Nat := f / 64 % 8

/-- The fields applied in this beat, by output. -/
def Router.fields (x : Router) (c : HenCtl) (count : Nat) : List (Nat × Nat) :=
  (List.range 5).filterMap fun o => (x.applied c count o).map fun f => (o, f)

/-- Whether some applied field names an input (R144, R147). -/
def namesInput (fs : List (Nat × Nat)) (i : Nat) : Bool :=
  fs.any fun p => fSrcA p.2 = i + 1 || fSrcB p.2 = i + 1

/-! ## Inputs -/

/-- The state of an I/O-to-half direction (R40, R351). -/
def Units.laneState (u : Units) (d dir : Nat) : Nat :=
  let here := fun (w : WireId) => match w with
    | .iodLane e f _ => e = d && f = dir
    | _ => false
  if u.laneDown.contains (d, dir) then 3 else if u.badWires.any here then 2
  else if u.spared.any fun q => here q.1 then 1 else 0

/-- The state of the link on a port: the worse of its two directions; an edge tile's outward port reports the link to its
edge router, which at an I/O die is the I/O-to-half link, and is DOWN toward an unfitted site (R27, R39). -/
def State.linkState (s : State) (t : Nat) (d : Dir) : Nat :=
  let own := s.units.links.look 0 (4 * t + dirNo d)
  match edgeOf t d with
  | some (e, _) =>
    if !edgeFitted s.mgt.fuses e then 3
    else match e with
      | .hbm _ => own
      | .iod k => max own (max (s.units.laneState k 0) (s.units.laneState k 1))
  | none => match neighbour t d with
    | some u => max own (s.units.links.look 0 (4 * u + dirNo (opposite d)))
    | none => own

/-- Whether the link on a side of a tile is DOWN in the as-built map (R27, R157). -/
def State.linkDown (s : State) (t : Nat) (d : Dir) : Bool := 3 ≤ s.linkState t d

/-- Whether an input is transit-owned (R140): the output that feeds it is. -/
def State.inTransit (s : State) (t : Nat) (d : Dir) : Bool :=
  match neighbour t d with
  | some u => (s.router u).transit (dirNo (opposite d))
  | none => false

/-- RTR_SLACK of an input (R145). -/
def Router.slack (x : Router) : Dir → Nat
  | .n => x.slackN.toNat | .e => x.slackE.toNat | .s => x.slackS.toNat | .w => x.slackW.toNat | .l => 0

/-- The key of a border queue. -/
def bqKey (d : Dir) (transit : Bool) : Nat := dirNo d + if transit then 4 else 0

/-- What a border queue presents for word `n`: the word, and whether it is late (R146, R147). -/
def BorderQ.present (q : BorderQ) (n : Int) (down : Bool) : NWord × Bool :=
  if n < 0 then ({}, false)
  else if down then ({}, true)
  else
    let k := n.toNat
    if q.arrived ≤ k || q.gaps.any fun g => g.1 ≤ k && k < g.2 then ({}, true)
    else match q.held.find? fun w => w.1 = k with
      | some w => (w.2, false)
      | none => ({}, false)

/-- The word number due at a beat of the receiver's count (R146). -/
def dueWord (count a slack : Nat) : Int := (count : Int) - a - slack

/-- What an input of a router carries in this beat, and whether the word is late (R144 to R147). -/
def State.input (s : State) (t : Nat) (d : Dir) : NWord × Bool :=
  let x := s.router t
  let r := s.region (regionOf t)
  let tr := s.inTransit t d
  let c := if tr then r.clk.count else r.ctl.sched
  match allowance t d with
  | some a => (x.bq.look {} (bqKey d tr)).present (dueWord c a (x.slack d)) (s.linkDown t d)
  | none =>
    if s.linkDown t d then ({}, true)
    else match x.ins.find? fun w => w.side = d && w.transit = tr && w.beat = c with
      | some w => (w.word, false)
      | none => ({}, false)

/-- Whether the tiles of a region are switched off (R156, R194). -/
def Region.dark (r : Region) : Bool := r.pwr.st == .dark || r.pwr.st == .isolated

/-- The five inputs in the order of R142, the Local input idle over dark tiles (R156). -/
def State.inputs (s : State) (t : Nat) : List (NWord × Bool) :=
  let r := s.region (regionOf t)
  [s.input t .n, s.input t .e, s.input t .s, s.input t .w,
    (if r.dark || r.ctl.held || !r.ctl.run then {} else (s.tile t).localIn, false)]

/-- A late word recorded and reported once a beat (R147, R157). -/
def State.lateWord (s : State) (t i : Nat) (transit : Bool) (beat : Nat) : State :=
  let x := s.router t
  let key := i + if transit then 4 else 0
  if x.assessed.contains (key, beat) then s
  else
    (s.setRouter t { x with
      late := setBit x.late i, lateCount := sat16 (x.lateCount + 1),
      lateBeat := if x.lateValid then x.lateBeat else beat,
      lateTransit := if x.lateValid then x.lateTransit else transit, lateValid := true,
      assessed := (key, beat) :: x.assessed }).raise (regionOf t) 2 1 t beat transit

/-- Late words of the inputs that applied fields name. -/
def State.lateWords (s : State) (t : Nat) (fs : List (Nat × Nat)) : State :=
  let r := s.region (regionOf t)
  forAll [0, 1, 2, 3] s fun i s =>
    if namesInput fs i && (s.input t (dirOf i)).2 then
      let tr := s.inTransit t (dirOf i)
      s.lateWord t i tr (if tr then r.clk.count else r.ctl.sched)
    else s

/-! ## Outputs -/

/-- The word a field drives (R143, R148): idle without a first source. -/
def drive (ins : List (NWord × Bool)) (f : Nat) : NWord :=
  let at_ := fun (k : Nat) => ((ins.getD (k - 1) ({}, false)).1 : NWord)
  if fSrcA f = 0 then {}
  else if fOp f = 0 then at_ (fSrcA f)
  else { data := laneLine (fOp f) (at_ (fSrcA f)).data (at_ (fSrcB f)).data, side := (at_ (fSrcA f)).side }

/-- A word put on an output at this beat (R145, R146, R157): to the neighbour's input two beats later, over a border as
the word of the sender's count, or to the edge; an idle word is implicit. -/
def State.sendWord (s : State) (t o : Nat) (transit : Bool) (w : NWord) : State :=
  let r := s.region (regionOf t)
  let c := if transit then r.clk.count else r.ctl.sched
  let d := dirOf o
  if w = {} || s.linkDown t d then s
  else match edgeOf t d with
    | some (e, p) =>
      s.modEdge e fun g =>
        let q := g.ports.look {} p
        { g with ports := g.ports.put {} p { q with bq := { q.bq with sent := q.bq.sent ++ [(c, w)] } } }
    | none =>
      match neighbour t d with
      | none => s
      | some u =>
        if regionOf u = regionOf t then
          s.modRouter u fun y => { y with
            ins := y.ins ++ [{ beat := c + 2, side := opposite d, transit := transit, word := w }] }
        else
          s.modRouter u fun y =>
            let q := y.bq.look {} (bqKey (opposite d) transit)
            { y with bq := y.bq.put {} (bqKey (opposite d) transit) { q with sent := q.sent ++ [(c, w)] } }

/-- An applied field acts (R144, R145, R148): the Local output delivers a line where the field has a source. -/
def State.actField (s : State) (t : Nat) (ins : List (NWord × Bool)) (p : Nat × Nat) : State :=
  let w := drive ins p.2
  if p.1 = 4 then
    if fSrcA p.2 = 0 then s
    else
      let c := (s.region (regionOf t)).ctl.sched
      s.modRouter t fun y => { y with
        ins := y.ins ++ [{ beat := c + 2, side := .l, transit := false, word := w }] }
  else s.sendWord t p.1 ((s.router t).transit p.1) w

/-- Words whose beat has passed leave the inputs and the border queues (R144, R146). -/
def State.pruneInputs (s : State) (t : Nat) (sched : Bool) : State :=
  let r := s.region (regionOf t)
  let gone := fun (transit : Bool) (b : Nat) =>
    if transit then b ≤ r.clk.count else sched && b ≤ r.ctl.sched
  s.modRouter t fun y => { y with
    ins := y.ins.filter fun w => !gone w.transit w.beat,
    assessed := y.assessed.filter fun a => !gone (4 ≤ a.1) a.2,
    bq := (List.range 8).foldl (fun tb k =>
      let q := tb.look {} k
      let d := dirOf (k % 4)
      let c := if k < 4 then r.ctl.sched else r.clk.count
      let n := dueWord c ((allowance t d).getD 0) (y.slack d)
      if (k < 4 && !sched) || q.held.isEmpty then tb
      else tb.put {} k { q with held := q.held.filter fun w => n < (w.1 : Int) }) y.bq }

/-- One beat of a router (R139): every output applies one field. -/
def State.routerBeat (t : Nat) (s : State) : State :=
  let r := s.region (regionOf t)
  let fs := (s.router t).fields r.ctl r.clk.count
  let ins := s.inputs t
  let s := s.lateWords t fs
  let s := fs.foldl (fun s p => s.actField t ins p) s
  s.pruneInputs t (r.ctl.run && !r.ctl.held)

/-! ## Border queues -/

/-- The count of the side that sends into a border queue (R146). -/
def State.senderCount (s : State) (t : Nat) (d : Dir) (transit : Bool) : Option Nat :=
  let count := fun (r : Nat) =>
    if transit then (s.region r).clk.count else if (s.region r).ctl.run then (s.region r).ctl.sched else 0
  match edgeOf t d with
  | some _ => if transit then none else some (count (regionOf t))
  | none => (neighbour t d).map fun u => count (regionOf u)

/-- The queue after word `arrived` arrives, before the beat in which number `now` is due: discarded when its beat has
passed or when the queue has no room, which is an overrun (R146, R147).  The last beat has removed number `now - 1`. -/
def BorderQ.arrive (q : BorderQ) (now : Int) : BorderQ × Bool :=
  let n := q.arrived
  let ovr : Bool := decide (now - 1 + 128 < (n : Int))
  let w := q.sent.find? fun w => w.1 = n
  let p := { q with arrived := n + 1, sent := q.sent.filter fun w => w.1 ≠ n }
  (match w with
    | some w => if (n : Int) < now ∨ ovr then p else { p with held := p.held ++ [w] }
    | none => p, ovr)

/-- Whether a region's partition-owned border inputs take words: from the announcement of a run to its end, so that words
of a neighbour that has started are stored before the region's own run-start beat (R146). -/
def HenCtl.receives (c : HenCtl) : Bool := c.run || c.atStart.isSome

/-- A word arrives at a router's border input (R146, R147). -/
def State.arriveRouter (s : State) (t : Nat) (side : Dir) (transit : Bool) : State :=
  match allowance t side, s.senderCount t side transit with
  | some a, some sent =>
    let x := s.router t
    let q := x.bq.look {} (bqKey side transit)
    due (q.arrived < sent && !s.linkDown t side && (transit || (s.region (regionOf t)).ctl.receives)) s fun s =>
      let r := s.region (regionOf t)
      let c := if transit then r.clk.count else if r.ctl.run then r.ctl.sched else 0
      let (q, ovr) := q.arrive (dueWord c a (x.slack side))
      let s := s.modRouter t fun y => { y with bq := y.bq.put {} (bqKey side transit) q }
      due ovr s fun s =>
        (s.modRouter t fun y => { y with
          ovr := setBit y.ovr (dirNo side), overCount := sat16 (y.overCount + 1) }).raise
          (regionOf t) 2 2 t c transit
  | _, _ => s

/-- The allowance and slack of an edge router's input (R145): the slack is that of the tile's input facing the edge, for
the spec names no register of the edge router's own (log entry 20). -/
def State.edgeDue (s : State) (t : Nat) (side : Dir) : Int :=
  dueWord (s.region (regionOf t)).ctl.sched ((allowance t side).getD 0) ((s.router t).slack side)

/-- The run that a region's tokens carry: its partition and RUNGEN. -/
def State.runOf (s : State) (r : Nat) : Nat × BitVec 8 := let c := (s.region r).ctl; (c.part, c.runGen)

/-- A word arrives at an edge router's port (R146, R147). -/
def State.arriveEdge (s : State) (t : Nat) (side : Dir) : State :=
  match edgeOf t side with
  | some (e, p) =>
    let q := ((s.edge e).ports.look {} p).bq
    let c := (s.region (regionOf t)).ctl
    due (q.arrived < c.sched && c.run && !s.linkDown t side) s fun s =>
      let (q, ovr) := q.arrive (s.edgeDue t side)
      let s := s.modEdge e fun g => let y := g.ports.look {} p; { g with ports := g.ports.put {} p { y with bq := q } }
      due ovr s fun s => s.raiseEdge e c.part c.runGen 2 2 c.sched false
  | none => s

/-- BORDER_WORD_ARRIVAL (R146, R147): the next word sent arrives. -/
def execBorderWordArrival (t : Nat) (side : Dir) (kind : BorderKind) (s : State) :
    Host.Outcome State Fault Refusal :=
  onUnit (t < 20000) s fun s =>
    match kind with
    | .sched => s.arriveRouter t side false
    | .transit => s.arriveRouter t side true
    | .edge => s.arriveEdge t side

/-- A late word at an edge port (R147), reported once a beat; the edge has no register of its own for it (log entry
20). -/
def State.lateEdge (s : State) (e : EdgeId) (p : Nat) : State :=
  let (t, _) := edgeTile e p
  let c := (s.region (regionOf t)).ctl
  let y := (s.edge e).ports.look {} p
  if y.lateAt = some c.sched then s
  else
    (s.modEdge e fun g =>
      { g with ports := g.ports.put {} p { y with lateAt := some c.sched } }).raiseEdge e c.part c.runGen 2 1 c.sched false

/-! ## Swaps (R150, R151) -/

/-- The outputs of a set take the other bank. -/
def Router.swap (x : Router) (transit : Bool) : Router :=
  let outs := (List.range 5).filter fun o => x.transit o = transit
  { x with active := outs.foldl (fun a o => a ^^^ (1#5 <<< o)) x.active }

/-- TRANSIT_SWAP_BEAT (R150). -/
def execTransitSwapBeat (r : Nat) (s : State) : Host.Outcome State Fault Refusal :=
  onUnit (r < 40) s fun s =>
    let x := s.region r
    match x.ctl.atTSwap with
    | some w =>
      due (w < x.clk.count && x.planeOn) s fun s =>
        let s := s.modCtl r fun c => { c with atTSwap := none, tBase := x.clk.count }
        forAll (regionTiles r) s fun t s => s.modRouter t fun y =>
          if [0, 1, 2, 3].any y.transit then { y.swap true with tSwaps := (y.tSwaps + 1) % 65536 } else y
    | none => s

end Sys2Proof.Machine
end

