-- ==== Sys2Proof/Machine/EdgeBeat.lean ====
section
/-!
DEFINITION. The edge tables and staging in a beat (R209 to R211, R214, R217).
-/
namespace Sys2Proof.Machine

/-- The share of a partition at an edge (R209). -/
def Edge.shareOf (g : Edge) (p : Nat) : Option (Nat × Share) :=
  if g.share0.valid && g.share0.part = p then some (0, g.share0)
  else if g.share1.valid && g.share1.part = p then some (1, g.share1)
  else none

/-- Share 0 or 1. -/
def Edge.share (g : Edge) (i : Nat) : Share := if i = 0 then g.share0 else g.share1

/-- Lines of a share (R209). -/
def Share.lines (h : Share) : Nat := h.mib * 16384

/-- First staging line of a share. -/
def Share.first (h : Share) : Nat := h.base * 16384

/-- An edge entry's fields (R210, R260); bits 21 and 20 are reserved, zero, at an HBM site. -/
def eOp (e : BitVec 32) : Nat := bits e 1 0
def eInc (e : BitVec 32) : Bool := e.getLsbD 2
def eLine (e : BitVec 32) : Nat := bits e 21 3

/-- The entry a port applies and the line it uses, relative to the share (R210, R211). -/
def EPort.entry (p : EPort) : BitVec 32 := (if p.active then p.bank1 else p.bank0).look 0 p.pos
def EPort.line (p : EPort) (h : Share) : Nat :=
  let e := p.entry
  (eLine e + if eInc e then p.off else 0) % h.lines

/-- The descriptors of a share, with their numbers from 0. -/
def Edge.shareDescs (g : Edge) (h : Share) : List (Nat × OxDesc) :=
  (List.range h.descCount).map fun i =>
    (i, g.descs.look ⟨0, 0, 0, 0, 0, 0, 0, 0⟩ (h.descBase + i))

/-- The key of a descriptor's count of completed passes. -/
def servedKey (share desc : Nat) : Nat := share * 4096 + desc

/-- Whether a descriptor covers a line of its share (R212). -/
def coversLine (d : OxDesc) (l : Nat) : Bool :=
  d.stageLine.toNat ≤ l && l < d.stageLine.toNat + d.lines.toNat

/-- The number of passes of a descriptor whose beat `from_` has come: pass k at from_ + k × period (R213). -/
def passesDue (from_ period b : Nat) : Nat :=
  if b < from_ then 0 else if period = 0 then 1 else (b - from_) / period + 1

/-- Whether a line is pending for a kind, or its pass is overdue, at a beat (R214). -/
def Edge.blocked (g : Edge) (i : Nat) (h : Share) (kind l b : Nat) : Bool :=
  (g.shareDescs h).any fun p =>
    let d := p.2
    d.kind.toNat = kind && coversLine d l &&
      (let n := passesDue d.start.toNat h.period b
       let m := passesDue d.deadline.toNat h.period b
       m < n || g.served.look 0 (servedKey i p.1) < m)

/-- An event of the staging and ox status recorded: a bit, its count, and the first beat (R214, R215, R225). -/
def Edge.event (g : Edge) (share beat : Nat) : Edge :=
  { g with
    beat := if g.beatValid then g.beat else beat % 2 ^ 48,
    beatShare := if g.beatValid then g.beatShare else share = 1, beatValid := true }

/-- A staging MISS, recorded once a beat (R214). -/
def State.stagingMissAt (s : State) (e : EdgeId) (p i : Nat) : State :=
  let c := (s.region (regionOf (edgeTile e p).1)).ctl
  let y := (s.edge e).ports.look {} p
  if y.assessed = some c.sched then s
  else
    (s.modEdge e fun g =>
      let g := g.event i c.sched
      { g with miss := true, missCount := sat16 (g.missCount + 1),
               ports := g.ports.put {} p { y with assessed := some c.sched } }).raiseEdge e c.part c.runGen 2 0x30 c.sched
      false

/-- Whether the access a port makes in this beat meets a pending or late line (R214). -/
def State.portMisses (s : State) (e : EdgeId) (p : Nat) : Option Nat :=
  let g := s.edge e
  let c := (s.region (regionOf (edgeTile e p).1)).ctl
  let y := g.ports.look {} p
  match g.shareOf c.part with
  | some (i, h) =>
    let op := eOp y.entry
    if c.tables && !c.held && (op = 1 || op = 2) && g.blocked i h op (y.line h) c.sched then some i else none
  | none => none

/-- The position and running offset after a beat (R141, R211). -/
def EPort.next (p : EPort) (h : Share) : EPort :=
  let per := if p.active then p.per1 else p.per0
  let step := if p.active then p.step1 else p.step0
  if p.pos + 1 < per then { p with pos := p.pos + 1 } else { p with pos := 0, off := (p.off + step) % h.lines }

/-- One beat of an edge port (R210, R211, R214): READ sends a staging line to the tile, WRITE stores the word that the
border queue presents. -/
def State.edgePortBeat (s : State) (e : EdgeId) (p : Nat) : State :=
  let (t, side) := edgeTile e p
  let c := (s.region (regionOf t)).ctl
  let g := s.edge e
  let y := g.ports.look {} p
  match g.shareOf c.part with
  | none => s
  | some (_, h) =>
    let op := eOp y.entry
    let l := h.first + y.line h
    let miss := s.portMisses e p
    let n := s.edgeDue t side
    let (w, late) := y.bq.present n (s.linkDown t side)
    let s := match miss with
      | some i => s.stagingMissAt e p i
      | none => s
    let s := if op = 2 && late then s.lateEdge e p else s
    let s :=
      if op = 1 && miss.isNone && !s.linkDown t side then
        let v := g.lines.look 0 l
        if v = 0 then s
        else s.modRouter t fun x =>
          let q := x.bq.look {} (bqKey side false)
          { x with bq := x.bq.put {} (bqKey side false) { q with sent := q.sent ++ [(c.sched, { data := v, side := 0 })] } }
      else if op = 2 && miss.isNone then s.modEdge e fun g => { g with lines := g.lines.put 0 l w.data }
      else s
    s.modEdge e fun g =>
      let y := (g.ports.look ({} : EPort) p).next h
      { g with ports := g.ports.put {} p { y with bq := { y.bq with held := y.bq.held.filter fun x => n < (x.1 : Int) } } }

/-- Every edge. -/
def allEdges : List EdgeId := (List.range 16).map EdgeId.hbm ++ (List.range 4).map EdgeId.iod

/-- Ports of an edge (R26, R210, R260). -/
def edgePorts : EdgeId → Nat
  | .hbm _ => 25
  | .iod _ => 50

/-- The regions that face an edge. -/
def edgeRegions (e : EdgeId) : List Nat :=
  ((List.range (edgePorts e)).map fun p => regionOf (edgeTile e p).1).eraseDups

/-- The ports of an edge that face a region, those with no entry among them: their position advances too (R210). -/
def portsFacing (e : EdgeId) (r : Nat) : List Nat := (List.range (edgePorts e)).filter fun p => regionOf (edgeTile e p).1 = r

/-- A change of every edge port that faces a region and serves a share of its partition. -/
def State.onPorts (s : State) (r : Nat) (f : Share → EPort → EPort) : State :=
  allEdges.foldl (fun s e =>
    match (s.edge e).shareOf (s.region r).ctl.part with
    | some (_, h) => s.modEdge e fun g =>
        { g with ports := (portsFacing e r).foldl (fun tb p => tb.put {} p (f h (tb.look {} p))) g.ports }
    | none => s) s

/-- The edge ports that face a region, in one beat. -/
def State.edgesBeat (s : State) (r : Nat) : State :=
  allEdges.foldl (fun s e =>
    if ((s.edge e).shareOf (s.region r).ctl.part).isSome then
      (portsFacing e r).foldl (fun s p => s.edgePortBeat e p) s
    else s) s

/-- PARTITION_SWAP_BEAT (R150): the swap beat has passed; the new banks are active from position 0, the edge tables
with offset 0 (R210, R211). -/
def execPartitionSwapBeat (r : Nat) (s : State) : Host.Outcome State Fault Refusal :=
  onUnit (r < 40) s fun s =>
    let c := (s.region r).ctl
    match c.atPSwap with
    | some w =>
      due (w < c.sched && c.run) s fun s =>
        let s := s.modCtl r fun c => { c with atPSwap := none, posBase := c.sched }
        let s := forAll (regionTiles r) s fun t s => s.modRouter t fun x =>
          { x.swap false with pSwaps := (x.pSwaps + 1) % 65536 }
        s.onPorts r fun _ p => { p with active := !p.active, pos := 0, off := 0 }
    | none => s

/-- STAGING_MISS (R214): the access of this beat meets a pending or late line. -/
def execStagingMiss (e : EdgeId) (ep : Nat) (s : State) : Host.Outcome State Fault Refusal :=
  onUnit (match e with | .hbm x => x < 16 && ep < 25 | .iod d => d < 4 && ep < 50) s fun s =>
    match s.portMisses e ep with
    | some i => s.stagingMissAt e ep i
    | none => s

/-- BORDER_WORD_LATE (R147): the word due on the input in this beat has not arrived and a field names it; or, at the
edge router opposite the side, an entry stores it. -/
def execBorderWordLate (t : Nat) (side : Dir) (edge : Bool) (s : State) : Host.Outcome State Fault Refusal :=
  onUnit (t < 20000) s fun s =>
    let r := s.region (regionOf t)
    if edge then
      match edgeOf t side with
      | some (e, p) =>
        let y := (s.edge e).ports.look {} p
        due (r.ctl.tables && !r.ctl.held && ((s.edge e).shareOf r.ctl.part).isSome && eOp y.entry = 2 &&
          (y.bq.present (s.edgeDue t side) (s.linkDown t side)).2) s fun s => s.lateEdge e p
      | none => s
    else
      let tr := s.inTransit t side
      let fs := (s.router t).fields r.ctl r.clk.count
      due (r.planeOn && side ≠ .l && namesInput fs (dirNo side) && (s.input t side).2) s fun s =>
        s.lateWord t (dirNo side) tr (if tr then r.clk.count else r.ctl.sched)

end Sys2Proof.Machine
end

