-- ==== Sys2Proof/Machine/TokenUnit.lean ====
section
/-!
DEFINITION. The token class (R72, R99, R171, R175, R320) and the events of a wait.
-/
namespace Sys2Proof.Machine

/-- The member tiles of a barrier group of the partition that holds a region, from its image (R171). -/
def State.members (s : State) (r g : Nat) : List Nat :=
  match (s.part (s.region r).ctl.part).img with
  | some i => (i.barriers.filter fun b => b.group = g).flatMap fun b => b.members
  | none => []

/-- A token sent by a tile's control node to its hen (R167). -/
def State.tileSend (s : State) (t : Nat) (cls kind : BitVec 4) (group : Nat) (pay : BitVec 96) : State :=
  let r := regionOf t
  let c := (s.region r).ctl
  s.fly (.hen r) { cls := cls, kind := kind, group := BitVec.ofNat 12 group, scope := 0,
                   src := BitVec.ofNat 6 r, part := BitVec.ofNat 4 c.part, pay := pay }

/-- The arrival of a tile at a group (R171, R175): a member that is not outstanding sends ARRIVE; another error is
recorded with a FAULT token. -/
def State.arriveAt (s : State) (t g : Nat) : State :=
  let r := regionOf t
  let x := s.tile t
  if !(s.members r g).contains t then s.henError r 5 t x.beat false
  else if x.outst.contains g then s.henError r 1 t x.beat false
  else (s.modTile t fun x => { x with outst := g :: x.outst }).tileSend t 1 0 g
    (payOf x.beat 0 (s.region r).ctl.runGen.toNat)

/-- A tile that starts to wait (R72): it looks for its release from the next beat on. -/
def Tile.startWait (x : Tile) (w : Dword) : Tile :=
  { x.advance 1 with st := .waiting, wait := some { pc := x.pc, group := kGroup w, limit := bits w 19 0, ticks := 0 } }

/-- The check of a token word. -/
def tokenFault (w : Dword) (t : Nat) (s : State) (f : State → State) : State :=
  if tokenOk w then f s else s.tileFault t cInvalidOp 0

/-- TARR (R72). -/
def execTarr (t : Nat) (s : State) : Host.Outcome State Fault Refusal :=
  issueWord 4 0x00 t (fun w s => tokenFault w t s fun s =>
    (s.arriveAt t (kGroup w)).modTile t fun x => x.advance 1) s

/-- TWAIT (R72). -/
def execTwait (t : Nat) (s : State) : Host.Outcome State Fault Refusal :=
  issueWord 4 0x01 t (fun w s => tokenFault w t s fun s => s.modTile t fun x => x.startWait w) s

/-- TSYNC (R72): the arrival and the wait in one word. -/
def execTsync (t : Nat) (s : State) : Host.Outcome State Fault Refusal :=
  issueWord 4 0x02 t (fun w s => tokenFault w t s fun s =>
    (s.arriveAt t (kGroup w)).modTile t fun x => x.startWait w) s

/-- The norm points of the partition that holds a region (R99, R336). -/
def State.isNormPoint (s : State) (r phase : Nat) : Bool :=
  match (s.part (s.region r).ctl.part).img with
  | some i => match i.policy with
    | some p => p.normPoints.contains phase
    | none => false
  | none => false

/-- The payload of a NORM token (R164). -/
def normPay (w u : Word) (index phase runGen : Nat) : BitVec 96 :=
  pack [(0, w.toNat), (32, u.toNat), (64, index), (80, phase), (88, runGen)]

/-- A norm report (R99): the pairs written since the last one, in ascending tag order, and the end of the report. -/
def State.normReport (s : State) (t phase index : Nat) : State :=
  let x := s.tile t
  let g := (s.region (regionOf t)).ctl.runGen.toNat
  let tags := (List.range 256).filter fun k => x.normNew.contains k
  let s := forAll tags s fun k s =>
    s.tileSend t 7 0 k (normPay (x.norms.look 0 (2 * k)) (x.norms.look 0 (2 * k + 1)) index phase g)
  let s := s.tileSend t 7 1 0 (normPay 0 0 index phase g)
  s.modTile t fun x => x.later 1 (.normZero tags)

/-- TPHASE (R72, R99, R320). -/
def execTphase (t : Nat) (s : State) : Host.Outcome State Fault Refusal :=
  issueWord 4 0x03 t (fun w s => tokenFault w t s fun s =>
    let ph := bits w 7 0
    let s := (s.modTile t fun x => { x.advance 1 with phase := ph }).tileSend t 6 0 0 (BitVec.ofNat 96 ph)
    match (s.tile t).normIndex with
    | some i => if s.isNormPoint (regionOf t) ph then s.normReport t ph i else s
    | none => s) s

/-- TRAISE (R72, R73). -/
def execTraise (t : Nat) (s : State) : Host.Outcome State Fault Refusal :=
  issueWord 4 0x04 t (fun w s => tokenFault w t s fun s => s.tileFault t cSwFault (w.extractLsb' 0 16)) s

/-- Whether a pipe's pending command starts at a beat. -/
def Pipe.starts (p : Pipe) (b : Nat) : Bool :=
  match p.wait with
  | some c => c.start ≤ b
  | none => false

/-- A tile with one of its pipes changed (R46). -/
def Tile.modPipe (x : Tile) (f : Pipe → Pipe) : PipeId → Tile
  | .bload a => let m := x.arr a; x.setArr a { m with bload := f m.bload }
  | .mul a g => let m := x.arr a; x.setArr a { m with mul := m.mul.put {} g (f (m.mul.look {} g)) }
  | .drain a => let m := x.arr a; x.setArr a { m with drain := f m.drain }
  | .vmem => { x with vmem := f x.vmem }
  | .xout => { x with xout := f x.xout }
  | .xin => { x with xin := f x.xin }

/-- PIPE_PENDING_START (R46): the pending command becomes the running one at its start beat. -/
def execPipePendingStart (t : Nat) (q : PipeId) (s : State) : Host.Outcome State Fault Refusal :=
  onUnit (t < 20000) s fun s =>
    due (!(s.region (regionOf t)).ctl.held) s fun s => s.modTile t fun x => x.modPipe (fun p => p.start x.beat) q

/-- Whether the limit of a wait has passed in ticks (R72). -/
def Wait.expired (w : Wait) : Bool := 0 < w.limit && decide (w.limit ≤ w.ticks)

/-- BARRIER_TIMEOUT (R72, R75): the limit has passed in ticks; the faulting word is the one that began the wait. In a
hold the fault comes at the resume (R45; log entry 18). -/
def execBarrierTimeout (t : Nat) (s : State) : Host.Outcome State Fault Refusal :=
  onUnit (t < 20000) s fun s =>
    match (s.tile t).wait with
    | some w => due ((s.tile t).st == .waiting && !s.stopped (regionOf t) && w.expired) s
        fun s => (s.modTile t fun x => { x with pc := w.pc }).tileFault t cBarrierTimeout 0
    | none => s

/-- Whether a waiting tile's latched resume beat has come, not before the beat after the wait (R175), and before its limit
has passed (R72). A latch holds the beat plus one, so that 0 is an empty latch. -/
def Tile.released (x : Tile) : Bool :=
  match x.wait with
  | some w =>
    let l := x.latch.look 0 w.group
    x.st == .waiting && 0 < l && decide (l ≤ x.beat + 1) && decide (x.nextIssue ≤ x.beat) && !w.expired
  | none => false

/-- RESUME_ISSUE (R175). -/
def execResumeIssue (t : Nat) (s : State) : Host.Outcome State Fault Refusal :=
  onUnit (t < 20000) s fun s =>
    due (!s.stopped (regionOf t) && (s.tile t).released) s fun s => s.modTile t fun x =>
      { x with
        st := .running, wait := none, nextIssue := x.beat,
        latch := match x.wait with
          | some w => x.latch.drop w.group
          | none => x.latch }

end Sys2Proof.Machine
end

