-- ==== Sys2Proof/Machine/Clock.lean ====
section
/-!
DEFINITION. The region's clock and its beat, rooster ticks, droop, slip, resynchronisation, the device rate and the
reference (R183 to R197).
-/
namespace Sys2Proof.Machine

/-! ## Fractions -/

/-- A fraction in lowest terms. -/
def fracOf (n : Int) (d : Nat) : Frac := let g := Nat.gcd n.natAbs d; ⟨n / (g : Int), d / g⟩
def Frac.add (a b : Frac) : Frac := fracOf (a.num * b.den + b.num * a.den) (a.den * b.den)
def Frac.lt (a b : Frac) : Bool := a.num * b.den < b.num * a.den
def Frac.le (a b : Frac) : Bool := a.num * b.den ≤ b.num * a.den
def Frac.min (a b : Frac) : Frac := if a.le b then a else b
/-- Rounded toward −∞. -/
def Frac.floor (a : Frac) : Int := a.num / (a.den : Int)
def fracInt (n : Int) : Frac := ⟨n, 1⟩

/-! ## The oscillator (R183 to R185, R190) -/

/-- The sprint ceiling (R184). -/
def sprintCeil (f top : Nat) : Frac := fracOf (Nat.min (Nat.min (1300 * 12) (13 * f)) (top * 12)) 12

/-- The rate the oscillator aims at (R190). -/
def targetRate (f top : Nat) (trim : Int) (slowing : Bool) (lag : Frac) : Frac :=
  let set : Int := Nat.min f top
  if (fracInt 0).lt lag then sprintCeil f top
  else if slowing then fracOf (set * 1990) 2000
  else (fracOf (set * (2000 + trim)) 2000).min (fracInt top)

/-- The rate while the droop detector is tripped, `k` steps down (R185, R312). -/
def droopRate (f top k : Nat) : Frac := (fracOf (f * (40 - k)) 40).min (fracInt top)

/-- The rate now. -/
def HenClk.rate (k : HenClk) : Frac := ⟨k.curNum, k.curDen⟩
def HenClk.setRate (k : HenClk) (r : Frac) : HenClk := { k with curNum := r.num.toNat, curDen := r.den }

/-- The oscillator follows its target; while the rate rises after a droop it only falls to the target here, for it rises
once a beat (R185, R190). -/
def HenClk.retarget (k : HenClk) (f top : Nat) : HenClk :=
  let slowing := if k.lag.lt (fracInt (-2)) then true else if (fracInt 0).le k.lag then false else k.slowing
  let k := { k with slowing := slowing }
  let tgt := targetRate f top k.trim slowing k.lag
  if k.tripped then k.setRate (droopRate f top k.slowed)
  else if k.rising then (if tgt.le k.rate then { k with rising := false, slowed := 0 }.setRate tgt else k)
  else k.setRate tgt

/-- The rate of the next beat: a rise after a droop goes one step of F/40 on, the last step being smaller (R185). -/
def HenClk.nextRate (k : HenClk) (f top : Nat) : HenClk :=
  let k := if k.rising && !k.tripped then k.setRate (k.rate.add (fracOf f 40)) else k
  k.retarget f top

/-- The largest lag shown (R198). -/
def HenClk.noteLag (k : HenClk) : HenClk :=
  { k with
    maxLag := max k.maxLag k.lag.floor,
    st := if k.st == .locked && (fracInt 1200).le k.lag then .resync else k.st }

/-- The count and the estimate after one beat (R186, R190). -/
def HenClk.beat (k : HenClk) (f top : Nat) : HenClk :=
  let gain := fracOf ((f : Int) * k.curDen - k.curNum) k.curNum
  ({ k with count := k.count + 1, lag := k.lag.add gain }.noteLag).nextRate f top

/-! ## Errors of CLK_ERR -/

def HenClk.error (k : HenClk) (bit : Nat) : HenClk :=
  { k with
    err := setBit k.err bit, errCount := sat16 (k.errCount + 1),
    errBeat := if k.errValid then k.errBeat else k.count, errValid := true }

/-! ## The region's beat -/

/-- The core beat of a tile with its router's Local output and its fault token (R117). -/
def State.tileBeat (s0 : State) (r t : Nat) (s : State) : State :=
  let x := s.tile t
  if !x.owned then s
  else
    let w := ((s0.router t).ins.find? fun w => w.side = .l && w.beat = x.beat).map InWord.word
    let (y, free, bad) := x.coreBeat (s.sela r) w s.free
    let s := { s.setTile t y with free := free }
    forAll (List.range bad) s fun _ s => s.raise r 1 1 t x.beat false

/-- A line that the router delivers on the Local output of a tile no run owns is dropped and counted (R71). -/
def State.dropLocal (s0 : State) (t : Nat) (s : State) : State :=
  let b := (s0.region (regionOf t)).ctl.sched
  if !(s0.tile t).owned && (s0.router t).ins.any fun w => w.side = .l && w.beat = b then
    s.modTile t fun x => { x with xdrop := sat16 (x.xdrop + 1) }
  else s

/-- The table keys of a region's tiles. -/
def keysIn {α : Type} (tb : Tab α) (r : Nat) : List Nat := (tb.map (·.1)).filter fun t => regionOf t = r

/-- What a beat adds to the telemetry frame (R333): `cells` and `vecs` of the region's tiles; a held beat lasts the inverse
of the rate, here in whole femtoseconds. -/
def Telemetry.count (q : Telemetry) (k : HenClk) (held : Bool) (cells vecs : Nat) : Telemetry :=
  let mhz := k.rate.floor.toNat
  { q with
    beats := q.beats + 1, heldFs := if held then q.heldFs + 10 ^ 9 * k.curDen / k.curNum else q.heldFs,
    held := q.held || held, droop := q.droop || k.tripped || k.rising,
    minMhz := some (match q.minMhz with
      | some m => Nat.min m mhz
      | none => mhz),
    cells := q.cells + cells, vecs := q.vecs + vecs }

/-- One beat of a region whose clock runs: routers, edge ports, tile cores, then the counts and the oscillator. -/
def State.beatOf (s : State) (r : Nat) : State :=
  let x := s.region r
  let moving := x.ctl.run && !x.ctl.held
  let on := if moving && !x.dark then (keysIn s.tiles r).filter fun t => (s.tile t).owned else []
  let s1 := if x.planeOn then forAll (keysIn s.routers r) s State.routerBeat else s
  let s2 := if moving then s1.edgesBeat r else s1
  let s3 := if moving && !x.dark then forAll (keysIn s2.tiles r) s2 (fun t s' => State.tileBeat s r t s') else s2
  let s4 := if moving && !x.dark then forAll (keysIn s.routers r) s3 (fun t s' => State.dropLocal s t s') else s3
  s4.modRegion r fun y =>
    { y with
      clk := y.clk.beat s.mgt.fMhz y.pwr.topMhz,
      ctl := if moving then { y.ctl with sched := y.ctl.sched + 1 } else y.ctl,
      tlm := y.tlm.count x.clk x.ctl.held (on.map fun t => (s.tile t).cellsOn).sum
        (on.filter fun t => (s.tile t).vectorOn).length }

/-- REGION_BEAT (R139, R186): a region whose clock is on makes one beat, once every action announced for a beat that has
come has taken place (R168, R170). -/
def execRegionBeat (r : Nat) (s : State) : Host.Outcome State Fault Refusal :=
  onUnit (r < 40) s fun s => due ((s.region r).clk.on && !s.announcedDue r) s fun s => s.beatOf r

/-! ## Ticks -/

/-- The waits of a region's tiles count a tick, up to the release (R72, R175). -/
def State.countWaits (s : State) (r : Nat) : State :=
  forAll (keysIn s.tiles r) s fun t s =>
    match (s.tile t).wait with
    | some w =>
      if (s.tile t).latch.look 0 w.group = 0 then
        s.modTile t fun x => { x with wait := some { w with ticks := w.ticks + 1 } }
      else s
    | none => s

/-- One current sample folded into a learned current (R321): the value is normalised to 1,200 MHz and kept in 0.1 A. -/
def Learn.sample (l : Learn) (v : Frac) : Learn :=
  let n := l.n + 1
  let d := if n ≤ 16 then n else 16
  { l with n := n, value := l.value.add (let x := v.add ⟨-l.value.num, l.value.den⟩; fracOf x.num (x.den * d)) }

/-- V_set(F) in mV, as a fraction (R311). -/
def vSetOf (f : Nat) : Frac := fracOf (550 * 600 + 150 * ((f : Int) - 600)) 600

/-- k(F) of R321. -/
def kOf (f : Nat) : Frac := let v := vSetOf f; fracOf (f * v.num) (1200 * 700 * v.den)

/-- The quotient of a number by a positive fraction. -/
def divFrac (n : Nat) (k : Frac) : Frac := fracOf ((n : Int) * k.den) k.num.toNat

/-- A hen learns from its current sample, in 0.1 A: for its phase, or for the held state (R321). -/
def HenPwr.learnFrom (p : HenPwr) (held : Bool) (f amps : Nat) : HenPwr :=
  let v := divFrac amps (kOf f)
  if held then { p with heldLearn := p.heldLearn.sample v }
  else { p with learn := p.learn.put {} p.phase ((p.learn.look {} p.phase).sample v) }

/-- A BUDGET received for the interval `n` that has begun is the current one (R322, R332). -/
def HenPwr.beginInterval (p : HenPwr) (n : Nat) : HenPwr :=
  match p.nextBudget with
  | some b => if b.1 = n % 256 then
      { p with budget := b.2.1, duty := b.2.2, interval := n % 65536, nextBudget := none } else p
  | none => p

/-! ### The tick tree (R188, R189) -/

/-- Where the tick of an input comes from, by the code of CLK_TICKPATH: a hen, or I/O die 0 itself (`some none`).
The centre crossing joins the hens at the end of the centre join that XJOIN names. -/
def Units.tickFrom (u : Units) (r c : Nat) : Option (Option Nat) :=
  match c with
  | 0 => if r < 30 then some (some (r + 10)) else none
  | 1 => if r % 10 < 9 then some (some (r + 1)) else none
  | 2 => if 10 ≤ r then some (some (r - 10)) else none
  | 3 => if 0 < r % 10 then some (some (r - 1)) else none
  | 4 => if r = 0 || r = 10 then some none else none
  | 5 =>
    let w := if u.xjoin then 4 else 34
    if u.northBad && u.southBad then none
    else if r = w then some (some (w + 1)) else if r = w + 1 then some (some w) else none
  | _ => none

/-- The better of two candidates (parent, hops, delay): the lower accumulated delay, then the lower code. -/
def betterPath (a : Option (Nat × Nat × Nat)) (b : Nat × Nat × Nat) : Option (Nat × Nat × Nat) :=
  match a with
  | none => some b
  | some a => if b.2.2 < a.2.2 || (b.2.2 = a.2.2 && b.1 < a.1) then some b else some a

/-- The best path of a hen over the inputs whose source has a path: (parent, hops, accumulated delay). -/
def Units.bestPath (u : Units) (ins : List (Nat × Nat × Nat)) (r : Nat) (path : Nat → Option (Nat × Nat)) :
    Option (Nat × Nat × Nat) :=
  ins.foldl (fun best i =>
    if i.1 ≠ r then best
    else match u.tickFrom r i.2.1 with
      | some none => betterPath best (i.2.1, 1, i.2.2)
      | some (some q) => match path q with
        | some p => betterPath best (i.2.1, p.1 + 1, p.2 + i.2.2)
        | none => best
      | none => best) none

/-- The tree, one hop farther each time: hens that have no path yet take the best one over hens that have. -/
def Units.tickTree (u : Units) (ins : List (Nat × Nat × Nat)) : Nat → Tab (Nat × Nat × Nat)
  | 0 => []
  | n + 1 =>
    let old := Units.tickTree u ins n
    let path := fun (q : Nat) => (old.find? fun e => e.1 = q).map fun e => (e.2.2.1, e.2.2.2)
    (List.range 40).foldl (fun tb r =>
      if old.any fun e => e.1 = r then tb
      else match u.bestPath ins r path with
        | some p => Tab.ins tb r p
        | none => tb) old

/-- The earliest valid input of a hen at a tick at which the inputs `dead` bring none (R189). -/
def State.earliest (s : State) (dead : List (Nat × Nat)) (r : Nat) : Option (Nat × Nat × Nat) :=
  s.units.bestPath (s.mgt.tickIns.filter fun i => !dead.contains (i.1, i.2.1)) r fun q =>
    some ((s.region q).clk.hops, (s.region q).clk.delay)

/-- Whether a hen receives a real tick: from its parent, or, having missed one, from any input (R189). -/
def State.ticked (s : State) (dead : List (Nat × Nat)) (r : Nat) : Bool :=
  let k := (s.region r).clk
  if k.switchDue then (s.earliest dead r).isSome else !dead.contains (r, k.parent)

/-- A hen without its oscillator: its expected count goes on, so that a resynchronisation finds the count the other regions
hold (R190, R194). -/
def HenClk.unfed (k : HenClk) (f : Nat) : HenClk := { k with expect := k.expect + f }

/-- A hen receives a real tick (R189, R190, R193): E advances, LAG is measured, the trim moves one step, and after a
missed tick the earliest valid input becomes the parent. -/
def State.realTick (s : State) (dead : List (Nat × Nat)) (amps : List (Nat × Nat)) (r : Nat) : State :=
  let f := s.mgt.fMhz
  let x := s.region r
  let k := x.clk
  let e := k.expect + f
  let lag : Int := (e : Int) - k.count
  let st := match k.st with
    | .holdover => ClkSt.resync
    | c => c
  let k1 := { k with
    expect := e, tick := s.now, lag := fracInt lag, synth := 0, st := st,
    resyncDue := k.resyncDue || k.st == ClkSt.resync || (k.st == ClkSt.acquire && s.mgt.originSet),
    trim := max (-10) (min 10 (if lag > 0 then k.trim + 1 else if lag < 0 then k.trim - 1 else k.trim)) }
  let k1 := (k1.noteLag).retarget f x.pwr.topMhz
  let s := (s.modClk r fun _ => k1).countWaits r
  let s := match amps.find? fun a => a.1 = r with
    | some a => s.modPwr r fun p => p.learnFrom x.ctl.held f a.2
    | none => s
  let s := s.modPwr r fun p => p.beginInterval (s.now / 100)
  match (if k.switchDue then s.earliest dead r else none) with
  | some p =>
    (s.modClk r fun k => { k with
      switchDue := false, parent := p.1, hops := p.2.1, delay := p.2.2 }.error 3).raise r 2 0x10 0x7FFF k.count true
  | none => s

/-- The tick number moves on: by one, not at all while a backward correction lasts, or with a step forward; the rest of an
offset is slewed by at most 1 ns a tick (R196). -/
def Mgt.tickOn (m : Mgt) : Mgt :=
  let slew := m.slewPs - max (-1000) (min 1000 m.slewPs)
  if 0 < m.freeze then { m with freeze := m.freeze - 1, slewPs := slew }
  else { m with nextTick := m.nextTick + 1 + m.step, step := 0, slewPs := slew }

/-- ROOSTER_TICK (R187, R190): device time moves on, and every hen that a valid input reaches receives the tick; the inputs
`dead`, as (region, code), bring none.  A hen whose plane has no feed marks nothing. -/
def execRoosterTick (dead : List (Nat × Nat)) (amps : List (Nat × Nat)) (s : State) : Host.Outcome State Fault Refusal :=
  onUnit true s fun s =>
    due (s.mgt.pwrOk && !s.mgt.darkened) s fun s =>
      let s := s.modMgt Mgt.tickOn
      forAll (List.range 40) s fun r s' =>
        if !(s.region r).clk.on then s'.modClk r fun k => k.unfed s.mgt.fMhz
        else if s.ticked dead r then s'.realTick dead amps r else s'

/-- TICK_MISS (R189): a synthetic tick; sixteen in a row enter HOLDOVER. -/
def execTickMiss (r : Nat) (s : State) : Host.Outcome State Fault Refusal :=
  onUnit (r < 40) s fun s =>
    due (s.region r).clk.on s fun s =>
      (s.modClk r fun k =>
        let n := k.synth + 1
        { k with
          expect := k.expect + s.mgt.fMhz, tick := k.tick + 1, synth := n, switchDue := true,
          st := if 16 ≤ n then .holdover else k.st }.error 1).countWaits r

/-! ## Slip (R191) -/

/-- A HOLD_REQ or RESUME_REQ token from a hen to the lead hen of its partition (R164, R167). -/
def State.askLead (s : State) (r kind beat reasons : Nat) : State :=
  let c := (s.region r).ctl
  match s.leadOf c.part with
  | some l => s.henSend r (.hen l)
      { cls := 2, kind := BitVec.ofNat 4 kind, group := 0, scope := 1, src := BitVec.ofNat 6 r,
        part := BitVec.ofNat 4 c.part, pay := payOf beat reasons c.runGen.toNat }
  | none => s

/-- EPOCH_MARK (R191, R193): the count is a multiple of 4,096 not yet tested. -/
def execEpochMark (r : Nat) (s : State) : Host.Outcome State Fault Refusal :=
  onUnit (r < 40) s fun s =>
    let x := s.region r
    let k := x.clk
    due (k.on && k.count % 4096 = 0 && k.epochAt ≠ some k.count) s fun s =>
      let s := s.modClk r fun k => { k with epochAt := some k.count }
      let s := if x.pwr.topMhz < s.mgt.fMhz then s.modClk r fun k => k.error 4 else s
      if (fracInt 24).lt k.lag then
        if x.ctl.assigned && x.ctl.run then
          if x.ctl.held && k.slipOut then s
          else (s.modClk r fun k => { k with slipReqs := sat16 (k.slipReqs + 1), slipOut := true }.error 0).askLead r 6 0 2
        else s.modClk r fun k => k.error 0
      else s

/-- SLIP_RECOVERED (R191): LAG ≤ 0 withdraws the request. -/
def execSlipRecovered (r : Nat) (s : State) : Host.Outcome State Fault Refusal :=
  onUnit (r < 40) s fun s =>
    let k := (s.region r).clk
    due (k.slipOut && k.lag.le (fracInt 0)) s fun s =>
      (s.modClk r fun k => { k with slipOut := false }).askLead r 7 0 2

/-! ## Resynchronisation (R192) -/

/-- What a tile has under way keeps its relative beats when the schedule count jumps, by `j` of a new count (log entry
21). -/
def Tile.shift (x : Tile) (j : Nat → Nat) : Tile :=
  let pipe := fun (p : Pipe) =>
    let c := fun (c : PipeCmd) => { start := j c.start, last := j c.last : PipeCmd }
    { run := p.run.map c, wait := p.wait.map c : Pipe }
  { x with
    beat := j x.beat, nextIssue := j x.nextIssue,
    pend := x.pend.map fun p => { p with land := j p.land, issue := j p.issue },
    rds := x.rds.map fun q => { q with
      beat := j q.beat, issue := j q.issue,
      dest := match q.dest with
        | .vline vd k st => .vline vd k (j st)
        | .arow a g e => .arow a g (j e)
        | d => d },
    wrs := x.wrs.map fun q => { q with beat := j q.beat, issue := j q.issue },
    entries := x.entries.map fun e => { e with beat := j e.beat, issue := j e.issue },
    drains := x.drains.map fun d => { d with beat := j d.beat, issue := j d.issue, scaleBeat := j d.scaleBeat },
    vsts := x.vsts.map fun v => { v with start := j v.start, issue := j v.issue },
    caps := x.caps.map fun c => (j c.1, c.2),
    outq := x.outq.map fun q => (j q.1, q.2),
    vmem := pipe x.vmem, xout := pipe x.xout, xin := pipe x.xin,
    arrays := x.arrays.foldl (fun tb p => tb.put {} p.1
      { p.2 with bload := pipe p.2.bload, drain := pipe p.2.drain,
                 mul := p.2.mul.foldl (fun m q => m.put {} q.1 (pipe q.2)) [] }) [] }

/-- A border queue whose words are discarded. `jump` is its sender's count before and after: numbers a jump forward skips
never arrive, and numbers a jump backward repeats arrive again. -/
def BorderQ.discard (q : BorderQ) (jump : Option (Nat × Nat)) : BorderQ :=
  match jump with
  | none => { q with held := [] }
  | some (a, b) =>
    if a ≤ b then { q with held := [], gaps := q.gaps ++ [(a, b)] }
    else { q with held := [], arrived := Nat.min q.arrived b, sent := q.sent.filter fun w => w.1 < b,
                  gaps := q.gaps.filter fun g => g.1 < b }

/-- A router whose region's counts jump: its border queues are empty (those of an edge have a sender that jumps with the
region), words between two of the region's routers keep their relative beats (log entry 21), and SPOS steps while no
partition table is in effect too (R151, R192). -/
def Router.shift (x : Router) (t : Nat) (tables : Bool) (delta : Int) (sched count : Nat → Nat) (a : Nat) : Router :=
  { x with
    bq := x.bq.foldl (fun tb p => tb.put {} p.1
      (p.2.discard (if p.1 < 4 && (edgeOf t (dirOf p.1)).isSome then some (a, sched a) else none))) [],
    ins := x.ins.map fun w => { w with beat := if w.transit then count w.beat else sched w.beat },
    spos := if tables then x.spos else (((x.spos : Int) + delta) % (x.period false (x.posBank false) : Int)).toNat }

/-- The border queues of a region in either direction are discarded, and its routers follow its counts (R192). -/
def State.flushBorders (s : State) (r : Nat) (delta : Int) (sched count : Nat → Nat) : State :=
  let x := s.region r
  let s := forAll (keysIn s.routers r) s fun t s =>
    let s := s.modRouter t fun y => y.shift t x.ctl.tables delta sched count x.ctl.sched
    forAll [0, 1, 2, 3] s fun i s =>
      match neighbour t (dirOf i) with
      | some u =>
        if regionOf u = r then s
        else s.modRouter u fun y =>
          let d := opposite (dirOf i)
          let fix := fun (y : Router) (tr : Bool) (g : Nat × Nat) =>
            let q := y.bq.look {} (bqKey d tr)
            if q = {} then y else { y with bq := y.bq.put {} (bqKey d tr) (q.discard (some g)) }
          fix (fix y false (x.ctl.sched, sched x.ctl.sched)) true (x.clk.count, count x.clk.count)
      | none => s
  allEdges.foldl (fun s e => s.modEdge e fun g => { g with
    ports := g.ports.foldl (fun tb p =>
      if regionOf (edgeTile e p.1).1 = r then
        tb.put {} p.1 { p.2 with bq := p.2.bq.discard (some (x.ctl.sched, sched x.ctl.sched)) }
      else tb) g.ports }) s

/-- The routers whose transit-owned inputs lose words to a resynchronisation of a region (R337): the region's own over its
borders, and those on the other side. -/
def State.transitLost (s : State) (r : Nat) : List Nat :=
  let lost := fun (t : Nat) (d : Dir) => !((s.router t).bq.look {} (bqKey d true)).held.isEmpty
  (regionTiles r).flatMap fun t => ([0, 1, 2, 3] : List Nat).flatMap fun i =>
    match neighbour t (dirOf i) with
    | some u =>
      if regionOf u = r then []
      else (if lost t (dirOf i) then [t] else []) ++ if lost u (opposite (dirOf i)) then [u] else []
    | none => []

/-- A port's position after the schedule moves by `delta` beats, with an offset step at each wrap (R210, R211). -/
def EPort.jump (p : EPort) (lines : Nat) (delta : Int) : EPort :=
  let per : Int := if p.active then p.per1 else p.per0
  let step : Int := if p.active then p.step1 else p.step0
  let n : Int := p.pos + delta
  { p with pos := (n % per).toNat, off := (((p.off : Int) + step * (n / per)) % (lines : Int)).toNat }

/-- The edge tables that face a region follow SPOS (R192, R210). -/
def State.jumpPorts (s : State) (r : Nat) (delta : Int) : State := s.onPorts r fun h p => p.jump h.lines delta

/-- An action announced for a beat that a jump from `a` to `b` passes over is late and takes place at the new count
(R169, R193). -/
def State.passedOver (s : State) (r a b : Nat) (region : Bool) (at_ : Option Nat) (f : HenCtl → HenCtl) : State :=
  match at_ with
  | some k => if a ≤ k && k < b then (s.modCtl r f).henError r 0 0x7FFF b region else s
  | none => s

/-- The resume beats that a tile has latched, for a jump of its schedule count from `a` to `b` (R169, R175, R193). A latch
holds the beat plus one. -/
def State.passedLatches (s : State) (r a b t : Nat) : State :=
  (s.tile t).latch.foldl (fun s l =>
    if a < l.2 && l.2 ≤ b then
      (s.modTile t fun x => { x with latch := x.latch.put 0 l.1 (b + 1) }).henError r 0 t b false
    else s) s

/-- The late actions of a jump of the region count from `n` to `m` and of the schedule count from `a` to `b`. -/
def State.passedAll (s : State) (r n m a b : Nat) : State :=
  let c := (s.region r).ctl
  let s := s.passedOver r n m true c.atStart fun c => { c with atStart := some m }
  let s := s.passedOver r a b false c.atHold fun c => { c with atHold := some b, holdBeat := b }
  let s := s.passedOver r n m true c.atResume fun c => { c with atResume := some m, resumeBeat := m }
  let s := s.passedOver r a b false c.atPSwap fun c => { c with atPSwap := some b }
  let s := s.passedOver r n m true c.atTSwap fun c => { c with atTSwap := some m }
  let s := s.passedOver r n m true (c.atStop.map (·.1)) fun c => { c with atStop := c.atStop.map fun q => (m, q.2) }
  forAll (keysIn s.tiles r) s fun t s => s.passedLatches r a b t

/-- RESYNC (R192, R193): at the real tick after lock loss the count is set to E, and SPOS and TPOS step with it. In a hold
the schedule count stays where the hold stopped it (DESIGN CHOICE, log entry 21: R192 names the region beat count alone). -/
def execResync (r : Nat) (s : State) : Host.Outcome State Fault Refusal :=
  onUnit (r < 40) s fun s =>
    let x := s.region r
    let k := x.clk
    due (k.on && k.resyncDue) s fun s =>
      let jump := fun (b : Nat) => b + k.expect - k.count
      let delta : Int := (k.expect : Int) - k.count
      let moving := x.ctl.run && !x.ctl.held
      let sched := fun (b : Nat) => if moving then jump b else b
      let lost := s.transitLost r
      let s := s.flushBorders r delta sched jump
      let s := if x.ctl.tables then s.jumpPorts r delta else s
      let s := if moving then forAll (keysIn s.tiles r) s fun t s =>
          s.modTile t fun y => if y.owned then y.shift jump else y
        else s
      let s := s.modRegion r fun y =>
        { y with
          clk := { y.clk with count := k.expect, lag := fracInt 0, st := .locked, resyncDue := false }.error 2,
          ctl := if moving then { y.ctl with sched := sched y.ctl.sched }
            else { y.ctl with posBase := y.ctl.posBase - delta } }
      let s := (s.passedAll r k.count k.expect x.ctl.sched (sched x.ctl.sched)).raise r 2 0x11 0x7FFF k.expect true
      lost.foldl (fun s t => s.raise (regionOf t) 2 1 t (s.region (regionOf t)).clk.count true) s

/-! ## Droop (R185, R312) -/

/-- DROOP_TRIP (R312): the rail is `mv` below its set point; one step of F/40 for each 5 mV past 30. -/
def execDroopTrip (r : Nat) (mv : Nat) (s : State) : Host.Outcome State Fault Refusal :=
  onUnit (r < 40) s fun s =>
    let x := s.region r
    due (x.clk.on && 30 ≤ mv) s fun s =>
      let k := Nat.min 8 ((mv - 30) / 5)
      s.modRegion r fun y => { y with
        clk := { y.clk with tripped := true, rising := false, slowed := k, droops := sat16 (y.clk.droops + 1) }.setRate
          (droopRate s.mgt.fMhz x.pwr.topMhz k),
        tlm := { y.tlm with droops := y.tlm.droops + 1, droop := true } }

/-- DROOP_CLEAR (R185): the first rising beat is one step up. -/
def execDroopClear (r : Nat) (s : State) : Host.Outcome State Fault Refusal :=
  onUnit (r < 40) s fun s =>
    let x := s.region r
    due (x.clk.on && x.clk.tripped) s fun s =>
      s.modClk r fun c => { c with tripped := false, rising := true }.nextRate s.mgt.fMhz x.pwr.topMhz

/-! ## The device rate and the reference -/

/-- F_CHANGE (R183): at the announced tick, before that tick is marked, every hen applies the new F. -/
def execFChange (s : State) : Host.Outcome State Fault Refusal :=
  onUnit true s fun s =>
    match s.mgt.fNext with
    | some (k, f) => due (k ≤ s.now + 1) s fun s => s.modMgt fun m => { m with fMhz := f, fNext := none }
    | none => s

/-- Whether a run is RUNNING, WAITING or HELD, or announced (R195; log entry 22). -/
def State.anyRun (s : State) : Bool :=
  (List.range 16).any fun p => let st := (s.part p).st; st == .running || st == .starting || st == .ending

/-- FIXED_CLOCK_APPLY (R183, R195): at a tick with no run the requested mode takes effect; to turn it on, F first moves to
FIXED_MHZ by an announcement 2 ticks ahead. -/
def execFixedClockApply (s : State) : Host.Outcome State Fault Refusal :=
  onUnit true s fun s =>
    due (s.mgt.modeWait && !s.anyRun) s fun s =>
      s.modMgt fun m =>
        if m.fixed && m.fMhz ≠ m.fixedMhz then
          { m with fNext := match m.fNext with
            | some q => if q.2 = m.fixedMhz then some q else some (m.nextTick + 2, m.fixedMhz)
            | none => some (m.nextTick + 2, m.fixedMhz) }
        else { m with modeWait := false, fixedOn := m.fixed, fNext := if m.fixed then none else m.fNext }

/-- REF_LOST (R187). -/
def execRefLost (s : State) : Host.Outcome State Fault Refusal :=
  onUnit true s fun s =>
    due (s.mgt.pwrOk && !s.mgt.refLost) s fun s =>
      (s.modMgt fun m => { m with refLost := true }).raiseEdge (.iod 0) 0 0 5 1 s.now false

/-- REF_RESTORED (R187, R407): a host port that waits for the reference trains. -/
def execRefRestored (s : State) : Host.Outcome State Fault Refusal :=
  onUnit true s fun s => due s.mgt.refLost s fun s => s.modMgt fun m => { m with
    refLost := false, pcieTraining := m.pcieTraining || m.pcieWait, pcieWait := false }

/-- FABRIC_LOCK_LOSS (R197): no valid time frame for 1 s. -/
def execFabricLockLoss (s : State) : Host.Outcome State Fault Refusal :=
  onUnit true s fun s =>
    due (s.mgt.fabricLock && decide (s.mgt.frameTime + 1000000 ≤ s.now)) s fun s =>
      (s.modMgt fun m => { m with fabricLock := false, lockSince := none }).raiseEdge (.iod 0) 0 0 6 0x20 s.now false

end Sys2Proof.Machine
end

