-- ==== Sys2Proof/Machine/Report.lean ====
section
/-!
DEFINITION. What the module reports: host events and completions, the field defect log, CPER records and unit states
(R298, R355 to R358, R373, R374, R392).
-/
namespace Sys2Proof.Machine

/-! ## Events and completions (R373, R374, R392) -/

/-- An event of a function: its bit is set, and a 0-to-1 transition that is not masked sends MSI-X vector 1. -/
def State.event (s : State) (f bit : Nat) : State :=
  let x := s.fn f
  let s := s.modFn f fun x => { x with events := setBit x.events bit }
  if !x.events.getLsbD bit && x.mask.getLsbD bit then { s with msix := s.msix ++ [(f, 1)] } else s

/-- Entries of a function's completion ring. -/
def Fn.cqSize (x : Fn) : Nat := 2 ^ x.cqLog

/-- The completion ring is full (R374). -/
def Fn.cqFull (x : Fn) : Bool := (x.cqTail + 1) % x.cqSize = x.cqHead

/-- The 32 bytes of a completion (R375). -/
def cqBytes (x : Fn) (e : CqEntry) : List Byte :=
  leBytes 2 e.cid.toNat ++ leBytes 1 e.status ++ leBytes 1 e.detail ++ leBytes 2 e.head ++ leBytes 2 0 ++
    leBytes 8 e.result.toNat ++ leBytes 8 e.info.toNat ++ leBytes 7 0 ++ leBytes 1 (b2n x.cqPhase)

/-- A completion is written to the ring (R373) with MSI-X vector 0 (R363), or waits while the ring is full or off (log
entry 23). -/
def State.complete (s : State) (f : Nat) (e : CqEntry) : State :=
  let x := s.fn f
  if x.cqFull || !x.cqOn then s.modFn f fun x => { x with waitCq := x.waitCq ++ [e] }
  else
    let at_ := x.cqBase.toNat * 4096 + 32 * x.cqTail
    let s := { s with host := writeBytes s.host at_ (cqBytes x e), msix := s.msix ++ [(f, 0)] }
    s.modFn f fun x =>
      let t := (x.cqTail + 1) % x.cqSize
      { x with cqTail := t, cqPhase := if t = 0 then !x.cqPhase else x.cqPhase }

/-- Completions that waited are written while there is room. -/
def State.drainCq (s : State) (f : Nat) : Nat → State
  | 0 => s
  | n + 1 =>
    let x := s.fn f
    match x.waitCq with
    | [] => s
    | e :: es =>
      if x.cqFull || !x.cqOn then s
      else State.drainCq ((s.modFn f fun x => { x with waitCq := es }).complete f e) f n

/-- A completion with a status and nothing else. -/
def doneWith (cid : BitVec 16) (status detail : Nat) : CqEntry :=
  { cid := cid, head := 0, status := status, detail := detail, result := 0, info := 0 }

/-- Whether every command of a ring that has started has completed (R375). -/
def Fn.idle (x : Fn) : Bool := x.busy.isNone && x.dmas.isEmpty && x.unreg.isEmpty

/-- Whether a running command uses a window (R377); an IMAGE_LOAD does. -/
def Fn.uses (x : Fn) (w : Nat) : Bool :=
  (x.dmas.any fun d => d.window = w) ||
  (match x.busy with
   | some c => c.entry.opcode = 5 && c.entry.window.toNat = w
   | none => false)

/-- Unregistrations whose window no command uses any more complete (R377). -/
def State.unregDone (s : State) (f : Nat) : State :=
  (s.fn f).unreg.foldl (fun s w =>
    match w.2 with
    | some (cid, head) =>
      if (s.fn f).uses w.1 then s
      else (s.modFn f fun x => { x with unreg := x.unreg.drop w.1 }).complete f
        { doneWith (BitVec.ofNat 16 cid) 0 0 with head := head }
    | none => s) s

/-- Refused commands at the front of a ring's queue complete in ring order (R375, R376). -/
def State.rejects (s : State) (f : Nat) : Nat → State
  | 0 => s
  | n + 1 =>
    let x := s.fn f
    match x.queue with
    | [] => s
    | q :: qs =>
      match q.rej with
      | some (st, d) =>
        if q.entry.flags.getLsbD 0 && !x.idle then s
        else State.rejects ((s.modFn f fun x => { x with queue := qs }).complete f
          { doneWith q.entry.cid st d with head := q.head }) f n
      | none => s

/-- What follows when a command of a ring has completed. -/
def State.ringOn (s : State) (f : Nat) : State :=
  let s := s.unregDone f
  s.rejects f (s.fn f).queue.length

/-- The ring command of a function that has started is done. -/
def State.finish (s : State) (f : Nat) (e : CqEntry) : State :=
  let h := match (s.fn f).busy with
    | some c => c.head
    | none => 0
  ((s.modFn f fun x => { x with busy := none }).complete f { e with head := h }).ringOn f

/-! ## The field defect log (R298) -/

/-- A finding is logged once per unit and transition. -/
def State.log (s : State) (kind finding index : Nat) : State :=
  let i := BitVec.ofNat 32 index
  if s.mgt.fdl.any fun e => e.kind = kind && e.finding = finding && e.index = i then s
  else s.modMgt fun m => { m with
    fdl := m.fdl ++ [{ boot := m.boot, kind := kind, finding := finding, index := i,
                       time := if m.originSet then s.now % 2 ^ 32 else 0 : FdlEntry }] }

/-- Whether the log holds a finding of a unit. -/
def State.logged (s : State) (kind finding index : Nat) : Bool :=
  s.mgt.fdl.any fun e => e.kind = kind && e.finding = finding && e.index = BitVec.ofNat 32 index

/-- The INDEX of a seam group, a bridge wire and an I/O-to-half lane. -/
def seamIndex (g : SeamGroup) : Nat :=
  g.tile + b2n g.northSouth * 2 ^ 15 + b2n g.toLower * 2 ^ 16 + g.group * 2 ^ 17
def bridgeIndex (w : Nat × Nat × Nat) : Nat := w.1 + w.2.1 * 32 + w.2.2 * 64
def laneIndex (w : Nat × Nat × Nat) : Nat := w.1 + w.2.1 * 4 + w.2.2 * 8
def phaseIndex (r p : Nat) : Nat := r + p * 64
def channelIndex (x c : Nat) : Nat := x + c * 16
def stagingIndex : EdgeId → Nat
  | .hbm x => 2 * x
  | .iod d => 1 + 2 * d

/-! ## CPER records (R355, R356) -/

/-- A finding to export, before it is timed. -/
structure Finding where
  source : Nat
  kind : Nat := 0xFF
  cause : Nat := 0
  unitKind : Nat := 0
  finding : Nat := 0
  action : Nat := 0
  unit : Nat := 0
  part : Nat := 0
  attributed : Bool := false
  runGen : BitVec 8 := 0
  beat : Nat := 0
  regionBeat : Bool := false
  severity : Nat := 0
  published : Bool := false
  deriving DecidableEq, Repr

/-- The GEN of the next publication (R34): even, and never back to zero. -/
def nextGen (g : BitVec 32) : Nat := if 0xFFFFFFFE ≤ g.toNat then 2 else g.toNat / 2 * 2 + 2

/-- A record is held for merging: one with equal SOURCE, KIND, CAUSE and UNIT takes it in within 1 s (R356). -/
def State.cper (s : State) (f : Finding) : State :=
  let u := BitVec.ofNat 32 f.unit
  let same := fun c : Cper => c.source = f.source && c.kind = f.kind && c.cause = f.cause && c.unit = u &&
    decide (s.now ≤ c.time + 1000000)
  if s.mgt.cperHeld.any same then
    s.modMgt fun m => { m with cperHeld := m.cperHeld.map fun c => if same c then { c with count := c.count + 1 } else c }
  else
    s.modMgt fun m => { m with
      cperHeld := m.cperHeld ++ [{
        source := f.source, kind := f.kind, cause := f.cause, unitKind := f.unitKind, finding := f.finding,
        action := f.action, unit := u, part := f.part, attributed := f.attributed, runGen := f.runGen, time := s.now,
        beat := f.beat, regionBeat := f.regionBeat, count := 1, severity := f.severity,
        mapGen := if f.published then nextGen m.gen else 0 : Cper }] }

/-- Bytes of the identifiers of R355, in the order the standard stores a GUID. -/
def guid (a b c : Nat) (d : List Nat) : List Byte :=
  leBytes 4 a ++ leBytes 2 b ++ leBytes 2 c ++ d.map (BitVec.ofNat 8)

def guidCreator : List Byte := guid 0x1D6A0F93 0x52C4 0x4B7E [0x9E, 0x81, 0x3A, 0x5F, 0x2C, 0x70, 0xB4, 0xD6]
def guidSection : List Byte := guid 0x4E9B2C71 0x8A3D 0x4F60 [0xB5, 0xE2, 0x17, 0xC0, 0xD9, 0xA4, 0x6F, 0x38]
/-- The UEFI-defined CMC and MCE notification types (PRESUMED, from UEFI: log entry 24). -/
def guidCmc : List Byte := guid 0x2DCE8BB1 0xBDD7 0x450E [0xB9, 0xAD, 0x9C, 0xF4, 0xEB, 0xD4, 0xF8, 0x90]
def guidMce : List Byte := guid 0xE8F56FFE 0x919C 0x4CC5 [0xBA, 0x88, 0x65, 0xAB, 0xE1, 0x49, 0x13, 0xBB]

/-- The Urwiler section of R356. -/
def cperSection (m : Mgt) (c : Cper) : List Byte :=
  leBytes 2 1 ++ leBytes 1 c.source ++ leBytes 1 c.kind ++ leBytes 1 c.cause ++ leBytes 1 c.unitKind ++
    leBytes 1 c.finding ++ leBytes 1 c.action ++ leBytes 4 c.unit.toNat ++
    leBytes 1 (c.part + 16 * b2n c.attributed) ++ leBytes 1 c.runGen.toNat ++ leBytes 2 m.devId.toNat ++
    leBytes 8 c.time ++ leBytes 8 (c.beat % 2 ^ 48 + b2n c.regionBeat * 2 ^ 48) ++ leBytes 4 c.count ++
    leBytes 4 c.mapGen ++ leBytes 24 0

/-- The record: header of 128 bytes, section descriptor of 72, and the section (R355). The places of the header's and
descriptor's fields are UEFI's (log entry 24). -/
def cperRecord (m : Mgt) (c : Cper) : List Byte :=
  leBytes 4 0x52455043 ++ leBytes 2 0x0101 ++ leBytes 4 0xFFFFFFFF ++ leBytes 2 1 ++ leBytes 4 c.severity ++
    leBytes 4 1 ++ leBytes 4 264 ++ leBytes 8 0 ++ leBytes 16 m.fuses.serial.toNat ++ leBytes 16 0 ++ guidCreator ++
    (if c.severity = 2 then guidCmc else guidMce) ++ leBytes 8 m.cperId ++ leBytes 4 0 ++ leBytes 8 0 ++ leBytes 12 0 ++
    leBytes 4 200 ++ leBytes 4 64 ++ leBytes 2 0x0101 ++ leBytes 2 0 ++ leBytes 4 0 ++ guidSection ++ leBytes 16 0 ++
    leBytes 4 c.severity ++ leBytes 20 0 ++ cperSection m c

/-- A record placed on the export queue; the CPER event is raised when the queue leaves EMPTY (R355, R392). -/
def State.exportCper (s : State) (c : Cper) : State :=
  let empty := s.mgt.cperq.items.isEmpty
  let s := s.modMgt fun m => { m with cperId := m.cperId + 1 }
  let s := s.modMgt fun m => { m with cperq := m.cperq.push (linesOf (cperRecord m c) 5) }
  if empty && !s.mgt.cperq.items.isEmpty then s.event 0 4 else s

/-- CPER_MERGE_RELEASE (R356): the oldest record held for 1 s goes out. -/
def execCperMergeRelease (s : State) : Host.Outcome State Fault Refusal :=
  onUnit true s fun s =>
    match s.mgt.cperHeld with
    | [] => s
    | c :: cs =>
      due (c.time + 1000000 ≤ s.now) s fun s => (s.modMgt fun m => { m with cperHeld := cs }).exportCper c

/-! ## Unit states (R36 to R39, R297, R422) -/

/-- STATE of a tile core. -/
def State.tileState (s : State) (t : Nat) : Nat := s.units.tiles.look 0 t

/-- A tile found FAILED (2) or RETIRED (3): FAULTY and FAILED stand, RETIRED may become FAILED (R38, R297);
`source` is the SOURCE of its record (R356). -/
def State.tileBad (s : State) (t found : Nat) (source : Nat := 7) : State :=
  let old := s.tileState t
  if old = 0 || (old = 3 && found = 2) then
    ((s.modUnits fun u => { u with tiles := u.tiles.put 0 t found }).log 1 found t).cper
      { source := source, unitKind := 1, finding := found, unit := t, published := true }
  else s

/-- ROUTER_OK of a tile (R37, R422). -/
def State.routerOk (s : State) (t : Nat) : Bool :=
  !s.units.badRouters.contains t && !s.units.planeLost.contains (regionOf t)

/-- A router found bad for life: a failed test (2) or the residue rule (3) (R422). -/
def State.routerBad (s : State) (t found : Nat) (source : Nat := 7) : State :=
  if s.units.badRouters.contains t then s
  else
    ((s.modUnits fun u => { u with badRouters := t :: u.badRouters }).log 2 found t).cper
      { source := source, unitKind := 2, finding := found, unit := t, published := true }

/-- A link state as sent from a tile's port; it never improves (R423). -/
def State.linkTo (s : State) (t : Nat) (d : Dir) (st : Nat) : State :=
  s.modUnits fun u =>
    let k := 4 * t + dirNo d
    { u with links := u.links.put 0 k (max (u.links.look 0 k) st) }

end Sys2Proof.Machine
end

