-- ==== Sys2Proof/Machine/TileRegs.lean ====
section
/-!
DEFINITION. The TIL, TST and RTR registers of a tile as they read (R75, R122, R158, R359).
-/
namespace Sys2Proof.Machine

/-- The STATE code of R74; a running or waiting tile of a held region reads HELD. -/
def tileCode (st : TileSt) (held : Bool) : Nat :=
  match st with
  | .idle => 0
  | .loaded => 1
  | .running => if held then 4 else 2
  | .waiting => if held then 4 else 3
  | .halted => 5
  | .faulted => 6
  | .scrub => 7

/-- What a view of a protected word shows: whether it is found uncorrectable, and the free word shown where three or
more bits are wrong (R116, log entry 4). -/
def eccView (e : Ecc) (free : Nat) : Bool × Bool :=
  match e with
  | .good => (false, false)
  | .single => (false, false)
  | .double => (true, false)
  | .many => ((Config.freeValue free).getLsbD 0, (Config.freeValue free).getLsbD 1)

/-- The program store word a selection shows, and UE (R75). -/
def Tile.psView (x : Tile) (free : Nat) : Dword × Bool :=
  let a := x.psSel.toNat
  if 6144 ≤ a then (0, false)
  else
    let v := eccView (x.progEcc.look .good a) free
    (if v.2 then Config.freeValue (free + 1) else x.prog.look 0 a, v.1)

/-- A byte of TIL_ARRAY. -/
def arrayByte (x : Tile) (a : Nat) : Nat :=
  let m := x.arr a
  m.split + 4 * b2n (m.bload.busy x.beat) + 8 * b2n (m.drain.busy x.beat) +
    16 * ((List.range 4).map fun g => 2 ^ g * b2n ((m.mul.look {} g).busy x.beat)).sum

/-- TIL_ARRAY. -/
def Tile.arrays4 (x : Tile) : Dword :=
  pack [(0, arrayByte x 0), (8, arrayByte x 1), (16, arrayByte x 2), (24, arrayByte x 3)]

/-- The TIL registers (R75). -/
def State.tilReg (s : State) (t off : Nat) : Dword :=
  let x := s.tile t
  let r := regionOf t
  match off with
  | 0x000 => pack [(0, t), (16, r)]
  | 0x008 => pack [(0, tileCode x.st (s.region r).ctl.held), (3, x.loops.length), (16, x.pc % 8192)]
  | 0x010 => BitVec.ofNat 64 x.beat
  | 0x018 => pack [(0, x.err.toNat), (16, x.firstPc % 8192), (32, x.swCode.toNat)]
  | 0x020 => BitVec.ofNat 64 x.errBeat
  | 0x028 => pack [(0, x.psSel.toNat), (13, b2n (x.psView s.free).2)]
  | 0x030 => (x.psView s.free).1
  | 0x038 => x.arrays4
  | 0x040 => pack [(0, x.xsb.toNat), (16, x.xdrop), (32, x.psCorr)]
  | _ => 0

/-- The code of a test state (R359). -/
def testCode : TestSt → Nat
  | .current => 0
  | .due => 1
  | .overdue => 2
  | .lapsed => 3
  | .testing => 4
  | .suspect => 5

/-- The scratchpad registers (R122). -/
def spReg (x : Tile) (off : Nat) : Dword :=
  let p := x.spr
  match off with
  | 0x800 => pack [(0, b2n p.enabled), (1, b2n p.rdSeen), (2, b2n p.wrSeen), (16, p.rdCount), (32, p.wrCount)]
  | 0x808 => pack [(0, p.rdLine), (16, p.rdCode)]
  | 0x810 => BitVec.ofNat 64 p.rdBeat
  | 0x818 => pack [(0, p.wrLine), (16, p.wrCode)]
  | 0x820 => BitVec.ofNat 64 p.wrBeat
  | 0x828 => pack [(0, b2n p.cSeen), (1, b2n p.cWrite), (2, p.cBank), (6, p.cLoser), (16, p.cCount)]
  | 0x830 => BitVec.ofNat 64 p.cBeat
  | 0x838 => pack [(0, p.corr), (16, p.uncorr), (32, p.ueLine), (45, b2n p.ueSeen)]
  | 0x840 => BitVec.ofNat 64 p.ueBeat
  | 0x848 => pack [(0, p.lineSel.toNat)]
  | 0x850 =>
    if 6144 ≤ p.lineSel.toNat then 0
    else let l := x.lst.look {} p.lineSel.toNat; pack [(0, b2n l.fill), (1, b2n l.drain)]
  | _ => 0

/-- Whether the start-up test has tested a tile's core: its block did not trip (R296). -/
def State.bistTested (s : State) (t : Nat) : Bool :=
  0 < s.mgt.bistRuns && (match s.units.bist with | some b => !b.tripped.contains (regionOf t) | none => false)

/-- The device time of a tile's last completed test; stage 5 counts as one at the origin tick (R341). -/
def State.lastTest (s : State) (t : Nat) : Nat :=
  let l := (s.tile t).test.last
  if s.bistTested t then max l s.mgt.bistTime else l

/-- LAST_RESULT and WHERE of a tile's last test (R359). -/
def State.lastResult (s : State) (t : Nat) : Nat × Nat :=
  let p := (s.tile t).test
  if s.bistTested t && (p.result = 0 || p.last < s.mgt.bistTime) then
    (if (match s.units.bist with | some b => b.tiles.contains t | none => false) then 2 else 1, 3)
  else (p.result, p.place)

/-- The TST registers (R122, R359). -/
def State.tstReg (s : State) (t off : Nat) : Dword :=
  let x := s.tile t
  let p := x.test
  match off with
  | 0x858 => pack [(0, b2n p.arrSeen), (1, b2n p.rtrSeen), (2, p.array), (4, p.port), (16, p.arrCount), (32, p.rtrCount)]
  | 0x860 => pack [(0, p.resBeat % 2 ^ 48), (48, b2n p.resRegion), (63, b2n p.resValid)]
  | 0x868 => pack [(0, testCode p.st), (3, b2n p.unpaired), (4, (s.lastResult t).1),
      (6, (s.lastResult t).2), (16, p.partner), (32, sat16 (p.tests + b2n (s.bistTested t) * s.mgt.bistRuns))]
  | 0x870 => BitVec.ofNat 64 (s.lastTest t)
  | _ => spReg x off

/-- The transit-owned inputs of a tile's router (R140). -/
def State.tIn (s : State) (t : Nat) : Nat :=
  ([0, 1, 2, 3].map fun i => 2 ^ i * b2n (s.inTransit t (dirOf i))).sum

/-- The RTR registers (R158). -/
def State.rtrReg (s : State) (t off : Nat) : Dword :=
  let x := s.router t
  let r := s.region (regionOf t)
  match off with
  | 0x100 => pack [(0, x.tOut.toNat), (8, s.tIn t), (16, x.active.toNat), (24, b2n (s.routerOk t)),
      (25, b2n r.pwr.feedOwn), (26, b2n r.pwr.feedNb)]
  | 0x108 => pack [(0, x.pp0), (16, x.pp1), (32, x.tp0), (48, x.tp1)]
  | 0x110 => pack [(0, x.sposAt r.ctl), (16, x.tposAt r.ctl r.clk.count)]
  | 0x118 => pack [(0, x.selPos.toNat), (16, b2n x.selBank)]
  | 0x120 => (x.bank x.selBank).look 0 x.selPos.toNat
  | 0x128 => pack [(0, x.last), (3, b2n x.refused), (16, x.count)]
  | 0x130 => pack [(0, x.slackN.toNat), (8, x.slackE.toNat), (16, x.slackS.toNat), (24, x.slackW.toNat)]
  | 0x138 => pack [(0, x.late.toNat), (4, x.ovr.toNat), (16, x.lateCount), (32, x.overCount)]
  | 0x140 => pack [(0, x.lateBeat % 2 ^ 62), (62, b2n x.lateTransit), (63, b2n x.lateValid)]
  | 0x148 => pack [(0, x.pSwaps), (16, x.tSwaps)]
  | _ => 0

end Sys2Proof.Machine
end

