-- ==== Sys2Proof/Machine/Control.lean ====
section
/-!
DEFINITION. The control network: express injection, barriers, announcements, holds, swaps and credits (R159 to R182).
-/
namespace Sys2Proof.Machine

/-! ## Receiving -/

/-- A hen receives a token of one class and kind; a token of another row is not this command's (log entry 1). A token of a
reserved class, kind or origin has no row of its own: whichever row brings it, it is discarded with RESERVED_TOKEN (R166). -/
def henToken (cls kind r : Nat) (k : Token) (s : State) (f : State → State) : Host.Outcome State Fault Refusal :=
  onUnit (r < 40) s fun s =>
    due ((k.cls.toNat = cls && k.kind.toNat = kind) || reservedToken k) s fun s => s.receive r (.hen r) k f

/-! ## Express injection (R161, R165, R167) -/

/-- The class order of R165. -/
def classOrder : List Nat := [2, 1, 4, 5, 6, 3, 7]

/-- The next token of an express queue: the first class waiting, in arrival order within it. Where tokens of several inputs
meet inside the mesh is a matter of timing, left out (log entry 141). -/
def nextToken (q : List Token) : Option Token :=
  match classOrder.find? fun c => q.any fun k => k.cls.toNat = c with
  | some c => q.find? fun k => k.cls.toNat = c
  | none => none

/-- The member tiles of a group of a partition's image. -/
def State.membersOf (s : State) (p g : Nat) : List Nat :=
  match (s.part p).img with
  | some i => (i.barriers.filter fun b => b.group = g).flatMap fun b => b.members
  | none => []

/-- The hen that a scope-1 token to the lead hen of a partition goes to. -/
def State.leadNodes (s : State) (p : Nat) : List NodeId :=
  match s.leadOf p with
  | some l => [.hen l]
  | none => []

/-- REQ of a REPORT (R326). -/
def repReq (k : Token) : Nat := bits k.pay 47 46

/-- The regions of a partition that hold no member of a group, each by its lowest tile, at whose node its hen's record of a
RELEASE is kept (R164, R182; log entry 131). -/
def State.bareTiles (s : State) (p g : Nat) : List Nat :=
  let ms := s.membersOf p g
  (s.partRegions p).filterMap fun r => if ms.any fun t => regionOf t = r then none else (regionTiles r).head?

/-- The nodes a token injected by a node goes to (R164, R167). A hen has latched its own announcement; the members of a group
of one region have had their RELEASE inside it; DONE goes to the coordinator whose GRANT the sender holds. -/
def State.dests (s : State) (n : NodeId) (k : Token) : List NodeId :=
  let p := k.part.toNat
  let hens := ((s.partRegions p).map NodeId.hen).filter fun h => h ≠ n
  match k.cls.toNat, k.kind.toNat with
  | 1, 1 => [.hen (regionOf (tokArg k % 2 ^ 15))]
  | 1, 2 =>
    let ms := s.membersOf p k.group.toNat
    let here := ms.all fun t => nodeRegion n = some (regionOf t)
    ((if here then [] else ms) ++ s.bareTiles p k.group.toNat).map NodeId.tile
  | 2, 3 => (List.range 40).map NodeId.hen
  | 2, 6 => s.leadNodes p
  | 2, 7 => s.leadNodes p
  | 2, _ => hens
  | 4, _ => [.mc]
  | 5, 1 => hens
  | 5, 2 => match n with
    | .hen r => [.hen (s.region r).test.coordRegion]
    | _ => []
  | 5, _ => [.mc]
  | 6, 1 => [.hen (bits k.pay 5 0)]
  | 6, 2 => .mc :: (if repReq k = 0 then [] else s.leadNodes p)
  | 7, _ => s.leadNodes p
  | _, _ => []

/-- The token leaves for its nodes. -/
def State.inject (s : State) (n : NodeId) (k : Token) : State := (s.dests n k).foldl (fun s d => s.fly d k) s

/-- The beats an edge node counts: those of a region that faces it and whose clock runs; none while none does (log entry
65). -/
def State.edgeCount (s : State) (e : EdgeId) : Option Nat :=
  ((edgeRegions e).find? fun r => (s.region r).clk.on).map fun r => (s.region r).clk.count

/-- Whether a node that last injected at one beat may inject at another: 16 beats lie between them (R161). -/
def mayInject (last now : Option Nat) : Bool :=
  match last, now with
  | some a, some b => decide (a + 16 ≤ b ∨ b < a)
  | _, _ => true

/-- An edge node injects its next token. -/
def State.edgeInject (s : State) (e : EdgeId) (n : NodeId) : State :=
  let now := s.edgeCount e
  match nextToken (s.edge e).queue with
  | some k => due (mayInject (s.edge e).lastInject now) s fun s =>
      (s.modEdge e fun g => { g with queue := g.queue.erase k, lastInject := now }).inject n k
  | none => s

/-- EXPRESS_TOKEN_INJECT (R161): a node injects at most one token every 16 beats. The controller counts as I/O die 0 does. -/
def execExpressTokenInject (n : NodeId) (s : State) : Host.Outcome State Fault Refusal :=
  match n with
  | .hen r => onUnit (r < 40) s fun s =>
      let x := s.region r
      match nextToken x.ctl.queue with
      | some k =>
        due (x.planeOn && (match x.ctl.lastInject with | some b => decide (b + 16 ≤ x.clk.count) | none => true)) s
          fun s => (s.modCtl r fun c => { c with queue := c.queue.erase k, lastInject := some x.clk.count }).inject n k
      | none => s
  | .site x => onUnit (x < 16) s fun s => s.edgeInject (.hbm x) n
  | .iod d => onUnit (d < 4) s fun s => s.edgeInject (.iod d) n
  | .mc => onUnit true s fun s =>
      let now := s.edgeCount (.iod 0)
      match nextToken s.mgt.queue with
      | some k => due (mayInject s.mgt.lastInject now) s fun s =>
          (s.modMgt fun m => { m with queue := m.queue.erase k, lastInject := now }).inject n k
      | none => s
  | .tile t => onUnit (t < 20000) s id

/-! ## Barriers (R171 to R175) -/

/-- The regions that hold members of a group, ascending. -/
def State.groupRegions (s : State) (r g : Nat) : List Nat :=
  let ms := s.members r g
  (List.range 40).filter fun q => ms.any fun t => regionOf t = q

/-- The least of a list of tiles. -/
def leastTile (l : List Nat) : Option Nat :=
  l.foldl (fun a t => match a with | some b => some (min b t) | none => some t) none

/-- The bellwether of a group as a region's hen knows it (R172). -/
def State.bellwether (s : State) (r g : Nat) : Option Nat :=
  match ((s.region r).ctl.bars.look {} g).bellwether with
  | some t => some t
  | none => leastTile (s.members r g)

/-- A hen's record of a group changed. -/
def State.modBar (s : State) (r g : Nat) (f : HenBar → HenBar) : State :=
  s.modCtl r fun c => { c with bars := c.bars.put {} g (f (c.bars.look {} g)) }

/-- The barrier latency L (R173). -/
def barrierL (rs : List Nat) : Nat :=
  if rs.length ≤ 1 then 32 else if rs.all westRegion || rs.all fun r => !westRegion r then 128 else 160

/-- A partition-scoped token of a hen. -/
def State.henToken (s : State) (r : Nat) (cls kind : BitVec 4) (group scope : Nat) (pay : BitVec 96) : Token :=
  { cls := cls, kind := kind, group := BitVec.ofNat 12 group, scope := BitVec.ofNat 2 scope, src := BitVec.ofNat 6 r,
    part := BitVec.ofNat 4 (s.region r).ctl.part, pay := pay }

/-- The bellwether's hen takes in a region's completion; when every region is in, it sends RELEASE at A + L (R173) to every
node of the partition: to the members of a group of one region directly, else by its express channel. -/
def State.collect (s : State) (r g from_ beat : Nat) : State :=
  let s := s.modBar r g fun b => { b with done := b.done.filter (fun d => d.1 ≠ from_) ++ [(from_, beat)] }
  let rs := s.groupRegions r g
  let b := (s.region r).ctl.bars.look {} g
  if rs.all fun q => b.done.any fun d => d.1 = q then
    let a := (b.done.map (·.2)).foldl max 0
    let k := s.henToken r 1 2 g 2 (payOf (a + barrierL rs) 0 (s.region r).ctl.runGen.toNat)
    let s := s.modBar r g fun b => { b with done := [] }
    let s := if rs.length ≤ 1 then (s.members r g).foldl (fun s t => s.fly (.tile t) k) s else s
    if (s.partRegions (s.region r).ctl.part).length ≤ 1 then s else s.henQueue r k
  else s

/-- A hen whose region is complete reports to the bellwether (R171). -/
def State.sendDone (s : State) (r g : Nat) : State :=
  let b := (s.region r).ctl.bars.look {} g
  match s.bellwether r g with
  | some t =>
    if regionOf t = r then s.collect r g r b.latest
    else s.henQueue r (s.henToken r 1 1 g 1 (payOf b.latest t (s.region r).ctl.runGen.toNat))
  | none => s

/-- ARRIVE (R171). -/
def execArrive (r : Nat) (k : Token) (s : State) : Host.Outcome State Fault Refusal :=
  henToken 1 0 r k s fun s =>
    let g := k.group.toNat
    let n := ((s.members r g).filter fun t => regionOf t = r).length
    let b := nearBeat (s.region r).ctl.sched (tokBeat k)
    let s := s.modBar r g fun h => { h with arrived := h.arrived + 1, latest := max h.latest b }
    if ((s.region r).ctl.bars.look {} g).arrived = n then
      (s.modBar r g fun h => { h with complete := true }).sendDone r g
    else s

/-- REGION_DONE (R173): the hen of the bellwether's region passes it on; another hen has no such tile. -/
def execRegionDone (r : Nat) (k : Token) (s : State) : Host.Outcome State Fault Refusal :=
  henToken 1 1 r k s fun s =>
    let g := k.group.toNat
    match s.bellwether r g with
    | some t =>
      due (regionOf t = r && (s.groupRegions r g).contains k.src.toNat) s fun s =>
        s.collect r g k.src.toNat (nearBeat (s.region r).ctl.sched (tokBeat k))
    | none => s

/-- The place of a region among the regions of a group (R174). -/
def place (rs : List Nat) (r : Nat) : Nat := (rs.takeWhile fun q => q ≠ r).length

/-- The staggered resume beat of a member (R174). -/
def resumeAt (bRel q t : Nat) : Nat := bRel + 4 * q + 8 * ((t % 200 + t / 200) % 4)

/-- RELEASE (R169, R174, R175): the first release of an episode to reach a region resets the hen's counts. In a region
without members its hen counts the release and shows its beat (R182). -/
def execRelease (t : Nat) (k : Token) (s : State) : Host.Outcome State Fault Refusal :=
  onUnit (t < 20000) s fun s =>
    due ((k.cls = 1 && k.kind = 2) || reservedToken k) s fun s =>
      let r := regionOf t
      s.receive r (.tile t) k fun s =>
        let g := k.group.toNat
        if !((s.members r g).any fun u => regionOf u = r) then
          s.modBar r g fun h => { h with
            releases := (h.releases + 1) % 65536, bRel := nearBeat (s.region r).ctl.sched (tokBeat k) }
        else due ((s.members r g).contains t) s fun s =>
          let now := (s.region r).ctl.sched
          let b := nearBeat now (tokBeat k)
          let s := s.modBar r g fun h =>
            if h.complete then
              { h with arrived := 0, latest := 0, complete := false, releases := (h.releases + 1) % 65536, bRel := b }
            else h
          let s := if b < now then s.henError r 0 t now false else s
          let at_ := resumeAt b (place (s.groupRegions r g) r) t
          let at_ := if at_ < now then now + 1 else at_
          s.modTile t fun x => { x with outst := x.outst.erase g, latch := x.latch.put 0 g (at_ + 1) }

/-- BELLWETHER_ELECTION (R172): the plane of the bellwether's region has stopped; the member with the next lowest id
whose ROUTER_OK is set takes over, and complete regions report again. -/
def execBellwetherElection (p g : Nat) (s : State) : Host.Outcome State Fault Refusal :=
  onUnit (p < 16 && g < 4096) s fun s =>
    match s.leadOf p with
    | none => s
    | some l =>
      match s.bellwether l g with
      | none => s
      | some old =>
        due (!(s.region (regionOf old)).planeOn) s fun s =>
          match leastTile ((s.members l g).filter fun t => old < t && s.routerOk t) with
          | none => s
          | some t =>
            let rs := (s.partRegions p).filter fun r => (s.region r).planeOn
            let s := forAll rs s fun r s => s.modBar r g fun b => { b with bellwether := some t, done := [] }
            forAll (rs.filter fun r => ((s.region r).ctl.bars.look {} g).complete) s fun r s => s.sendDone r g

/-! ## Announced beats (R168 to R170) -/

/-- HOLD (R168, R169): a late one takes the next schedule beat. -/
def execHold (r : Nat) (k : Token) (s : State) : Host.Outcome State Fault Refusal :=
  henToken 2 0 r k s fun s =>
    let c := (s.region r).ctl
    let h := nearBeat c.sched (tokBeat k)
    let late := h < c.sched
    let h' := if late then c.sched + 1 else h
    let s := s.modCtl r fun c => { c with
      atHold := some h', holdBeat := h', hstate := if c.held then c.hstate else .announced }
    if late then s.henError r 0 0x7FFF c.sched false else s

/-- RESUME (R168, R169). -/
def execResume (r : Nat) (k : Token) (s : State) : Host.Outcome State Fault Refusal :=
  henToken 2 1 r k s fun s =>
    let n := (s.region r).clk.count
    let q := nearBeat n (tokBeat k)
    let late := q < n
    let q' := if late then n + 1 else q
    let s := s.modCtl r fun c => { c with
      atResume := some q', resumeBeat := q', hstate := if c.held then .resuming else c.hstate }
    if late then s.henError r 0 0x7FFF n true else s

/-- P_SWAP (R150, R168, R169). -/
def execPSwap (r : Nat) (k : Token) (s : State) : Host.Outcome State Fault Refusal :=
  henToken 2 2 r k s fun s =>
    let n := (s.region r).ctl.sched
    let w := nearBeat n (tokBeat k)
    let s := s.modCtl r fun c => { c with atPSwap := some (if w < n then n + 1 else w) }
    if w < n then s.henError r 0 0x7FFF n false else s

/-- T_SWAP (R150, R168, R169): the payload names the regions that swap. -/
def execTSwap (r : Nat) (k : Token) (s : State) : Host.Outcome State Fault Refusal :=
  henToken 2 3 r k s fun s =>
    due ((tokArg k).testBit r) s fun s =>
      let n := (s.region r).clk.count
      let w := nearBeat n (tokBeat k)
      let s := s.modCtl r fun c => { c with atTSwap := some (if w < n then n + 1 else w) }
      if w < n then s.henError r 0 0x7FFF n true else s

/-- RUN_START (R166, R168, R169): only the controller announces it, with any RUNGEN. -/
def execRunStartToken (r : Nat) (k : Token) (s : State) : Host.Outcome State Fault Refusal :=
  henToken 2 4 r k s fun s =>
    if k.src ≠ 63 then s.stale r
    else
      let n := (s.region r).clk.count
      let b := nearBeat n (tokBeat k)
      let s := s.modCtl r fun c => { c with atStart := some (if b < n then n + 1 else b), runGen := tokRunGen k }
      if b < n then s.henError r 0 0x7FFF n true else s

/-- RUN_STOP (R168, R169, R180). -/
def execRunStop (r : Nat) (k : Token) (s : State) : Host.Outcome State Fault Refusal :=
  henToken 2 5 r k s fun s =>
    let n := (s.region r).clk.count
    let b := nearBeat n (tokBeat k)
    let s := s.modCtl r fun c => { c with atStop := some (if b < n then n + 1 else b, tokArg k % 8) }
    if b < n then s.henError r 0 0x7FFF n true else s

/-! ## Holds (R45, R170, R176) -/

/-- A hen queues a token for every hen of its partition. -/
def State.announce (s : State) (r : Nat) (kind : BitVec 4) (beat arg : Nat) : State :=
  s.henQueue r (s.henToken r 2 kind 0 2 (payOf beat arg (s.region r).ctl.runGen.toNat))

/-- HOLD_REQ at the lead hen (R176), whose own announcement it latches at once. -/
def State.holdRequest (s : State) (r h reasons : Nat) : State :=
  let c := (s.region r).ctl
  if !(c.lead && c.run) then s
  else
    let rs := c.reasons ||| BitVec.ofNat 8 reasons
    let stopped : Bool := c.hstate == .held || c.hstate == .resuming
    let earliest := (if stopped then c.holdBeat else c.sched) + 96
    let open_ : Bool := c.hstate == .running || c.hstate == .resuming
    let s := s.modCtl r fun c => { c with reasons := rs }
    let s :=
      if open_ then
        let n := max h earliest
        (s.modCtl r fun c => { c with hstate := .announced, annHold := n, atHold := some n, holdBeat := n }).announce
          r 0 n rs.toNat
      else if h ≠ 0 ∧ h < (if c.hstate == .held then c.holdBeat else c.annHold) then s.henError r 2 0x7FFF c.sched false
      else s
    let st := (s.region r).ctl.hstate
    if (st == .running || st == .announced) && h ≠ 0 && decide (h < earliest) then s.henError r 2 0x7FFF c.sched false else s

/-- RESUME_REQ at the lead hen (R176). -/
def State.resumeRequest (s : State) (r reasons : Nat) : State :=
  let c := (s.region r).ctl
  if c.lead && c.run then s.modCtl r fun c => { c with reasons := c.reasons &&& ~~~ BitVec.ofNat 8 reasons } else s

/-- HOLD_REQ (R176). -/
def execHoldReq (r : Nat) (k : Token) (s : State) : Host.Outcome State Fault Refusal :=
  henToken 2 6 r k s fun s =>
    let h := if tokBeat k = 0 then 0 else nearBeat (s.region r).ctl.sched (tokBeat k)
    s.holdRequest r h (tokArg k % 256)

/-- RESUME_REQ (R176). -/
def execResumeReq (r : Nat) (k : Token) (s : State) : Host.Outcome State Fault Refusal :=
  henToken 2 7 r k s fun s => s.resumeRequest r (tokArg k % 256)

/-- RESUME_ANNOUNCE (R176). -/
def execResumeAnnounce (r : Nat) (s : State) : Host.Outcome State Fault Refusal :=
  onUnit (r < 40) s fun s =>
    let x := s.region r
    let c := x.ctl
    due (x.planeOn && c.lead && c.run && c.hstate == .held && c.reasons = 0) s fun s =>
      let q := x.clk.count + 96
      (s.modCtl r fun c => { c with hstate := .resuming, atResume := some q, resumeBeat := q }).announce r 1 q 0

/-! ### Test pauses within a hold (R346, R347) -/

/-- A TEST token's payload (R347). -/
def testPay (r n : Nat) (failed : Bool) (runGen : Nat) : BitVec 96 :=
  pack [(0, r), (8, n), (22, b2n failed), (88, runGen)]

/-- The tiles of a region in given test states. -/
def State.testTiles (s : State) (r : Nat) (f : TestSt → Bool) : List Nat :=
  (keysIn s.tiles r).filter fun t => f (s.tile t).test.st

def isDue (t : TestSt) : Bool := t == .due || t == .overdue || t == .lapsed || t == .suspect
def isOverdue (t : TestSt) : Bool := t == .overdue || t == .lapsed

/-- Where a test runs (R344, R345): its WHERE code, the first line of the test area where a window names one, whether it takes
in the routers' outputs, and whether a rerun has room. -/
structure TestPlace where
  place : Nat
  area : Option Nat := none
  routers : Bool := false
  roomy : Bool := true
  deriving DecidableEq, Repr

/-- A tile's in-field test begins (R341 to R345, R359), with its partner `u`; the tiles of one opportunity start in four groups,
8 beats apart (R342). One whose rerun was left over runs it now. -/
def State.startTest (s : State) (t u : Nat) (w : TestPlace) : State :=
  let b := (s.region (regionOf t)).clk.count + 8 * ((t % 200 + t / 200) % 4)
  s.modTile t fun x => { x with test := { x.test with
    before := x.test.st, hit := false, st := .testing, unpaired := u = t, partner := u, place := w.place, opened := s.now,
    reran := x.test.rerunDue, rerunDue := false, beganAt := b, area := w.area, routers := w.routers, roomy := w.roomy } }

/-- Whether a tile can be tested: GOOD, and not HALTED, FAULTED or still to be scrubbed (R349). -/
def State.testable (s : State) (t : Nat) : Bool :=
  s.tileState t = 0 && match (s.tile t).st with
    | .halted => false
    | .faulted => false
    | .scrub => false
    | _ => true

/-- Whether a partner can be tested with a tile: testable, and not itself under test (R343). -/
def State.canPair (s : State) (t : Nat) : Bool := s.testable t && (s.tile t).test.st ≠ .testing

/-- The tile across the pair of R343. -/
def pairOf (t : Nat) : Nat := if t % 2 = 0 then t + 1 else t - 1

/-- The partner among the tiles under test when the pair tile is not available: the nearest in the row of the region,
then the lower x; the tile itself if there is none (R343). -/
def nearestIn (l : List Nat) (t : Nat) : Nat :=
  let row := l.filter fun u => u ≠ t && u / 200 = t / 200
  let key := fun u => (if u < t then t - u else u - t) * 200 + u % 200
  match row with
  | [] => t
  | a :: l => l.foldl (fun b u => if key u < key b then u else b) a

/-- The tests of one opportunity: every tile of the list, with partners (R343). A SUSPECT tile takes another partner than
before; one whose rerun is left over takes the same. -/
def State.startTests (s : State) (l : List Nat) (w : TestPlace) : State :=
  let good := l.filter s.testable
  forAll good s fun t s =>
    let x := (s.tile t).test
    if x.st == .testing then s
    else
      let other := fun (u : Nat) => !(x.st == .suspect && u = x.partner)
      let u := if x.rerunDue then x.partner else pairOf t
      let near := (good ++ s.testTiles (regionOf t) (· == .testing)).filter other
      if u ≠ t && s.canPair u && other u then (s.startTest t u w).startTest u t w
      else s.startTest t (nearestIn near t) w

/-- A hen's part in a pause ends: the coordinator notes it, another hen sends DONE (R346). -/
def State.pauseDone (s : State) (r n : Nat) (failed : Bool) : State :=
  let x := s.region r
  if x.test.coord then
    let s := s.modTest r fun t => { t with waiting := t.waiting.erase r }
    if (s.region r).test.waiting.isEmpty then
      (forAll (s.partRegions x.ctl.part) s fun q s => s.modTest q fun t => { t with pending := false, coord := false }).askLead
        r 7 0 4
    else s
  else
    (s.modTest r fun t => { t with failed := false }).henSend r (.hen x.test.coordRegion)
      (s.henToken r 5 2 0 1 (testPay r n failed x.ctl.runGen.toNat))

/-- The tests of a region are abandoned with no result: the tiles keep their state (R349). In a pause the hen has nothing left to
test and reports so (R346). -/
def State.abandonTests (s : State) (r : Nat) : State :=
  let l := s.testTiles r (· == .testing)
  let s := forAll l s fun t s => s.modTile t fun x => { x with test := { x.test with st := x.test.before, hit := false } }
  let h := (s.region r).test
  if h.pending && l.any fun t => (s.tile t).test.place = 2 then
    (s.modTest r fun h => { h with tested := 0, failed := false }).pauseDone r h.tested h.failed
  else s

/-- HOLD_BEAT (R45, R170, R176): the schedule beat H has come; in a test pause every hen starts its tests (R346). -/
def execHoldBeat (r : Nat) (s : State) : Host.Outcome State Fault Refusal :=
  onUnit (r < 40) s fun s =>
    let c := (s.region r).ctl
    match c.atHold with
    | some h =>
      due (h ≤ c.sched && c.run && !c.held) s fun s =>
        let s := s.modCtl r fun c => { c with
          held := true, atHold := none, holdBeat := c.sched, holds := (c.holds + 1) % 65536, hstate := .held }
        due (s.region r).test.pending s fun s =>
          let l := (s.testTiles r isDue).filter s.testable
          if l.isEmpty || (s.region r).dark then s.pauseDone r 0 false else s.startTests l { place := 2 }
    | none => s

/-- RESUME_BEAT (R170, R176): region beat Q has come. A hold not yet taken does not take place, and a
resume that an end of the run precedes has no effect (R170). -/
def execResumeBeat (r : Nat) (s : State) : Host.Outcome State Fault Refusal :=
  onUnit (r < 40) s fun s =>
    let x := s.region r
    let c := x.ctl
    match c.atResume with
    | some q =>
      due (q ≤ x.clk.count && c.run && c.resumes q) s fun s =>
        if c.held then
          s.modCtl r fun c => { c with
            held := false, atResume := none, hstate := if c.atHold.isSome then .announced else .running }
        else
          match c.atHold with
          | some _ =>
            (s.modCtl r fun c => { c with atHold := none, atResume := none, hstate := .running }).henError r 0 0x7FFF c.sched
              false
          | none => s.modCtl r fun c => { c with atResume := none }
    | none => s

/-! ## Runs and swaps announced by others (R180) -/

/-- The count the controller announces from: the largest of the partition's regions (log entry 25). -/
def State.aheadCount (s : State) (rs : List Nat) : Nat := (rs.map fun r => (s.region r).clk.count).foldl max 0

/-- A SCHEDULE token of the controller. -/
def mcToken (kind : BitVec 4) (scope p : Nat) (pay : BitVec 96) : Token :=
  { cls := 2, kind := kind, group := 0, scope := BitVec.ofNat 2 scope, src := 63, part := BitVec.ofNat 4 p, pay := pay }

/-- The controller announces RUN_START (R180, R387). -/
def State.announceStart (s : State) (p : Nat) : State :=
  let k := s.aheadCount (s.partRegions p) + 96
  s.mcQueue (mcToken 4 2 p (payOf k 0 ((s.part p).runNo.toNat % 256)))

/-- The controller announces RUN_STOP with a REASON, once a run (R180; log entry 26). -/
def State.announceStop (s : State) (p reason : Nat) : State :=
  match (s.part p).stopAt with
  | some _ => s
  | none =>
    let k := s.aheadCount (s.partRegions p) + 96
    (s.modPart p fun x => { x with stopAt := some (k, reason) }).mcQueue
      (mcToken 5 2 p (payOf k reason ((s.part p).runNo.toNat % 256)))

/-- The lead hen announces P_SWAP (R180). -/
def State.announcePSwap (s : State) (l w : Nat) : State :=
  (s.modCtl l fun c => { c with atPSwap := some w }).announce l 2 w 0

/-- PARTITION_SWAP_REQUEST (R180): on the image's request, not before the beat of R168. -/
def execPartitionSwapRequest (p beat : Nat) (s : State) : Host.Outcome State Fault Refusal :=
  onUnit (p < 16) s fun s =>
    match s.leadOf p, (s.part p).img with
    | some l, some i =>
      due (s.running p && i.ownSwaps && (s.region l).ctl.run) s fun s =>
        s.announcePSwap l (max beat ((s.region l).ctl.sched + 96))
    | _, _ => s

/-- TRANSIT_SWAP_REQUEST (R180): the controller announces T_SWAP for the fabric manager. -/
def execTransitSwapRequest (regions : BitVec 40) (beat : Nat) (s : State) : Host.Outcome State Fault Refusal :=
  onUnit true s fun s =>
    due s.mgt.ready s fun s =>
      s.mcQueue (mcToken 3 3 0 (payOf (max beat (s.aheadCount (List.range 40) + 96)) regions.toNat 0))

/-- A reserved token at a node that is no hen: discarded, with a CONTROL fault (R166). The spec gives the controller no unit
number: the fault carries 0x7FFF, as one that belongs to no tile, and device time in BEAT (DESIGN CHOICE, log entry 65). -/
def State.reservedAtMc (s : State) : State := s.fly .mc (faultTok .mc 0 0 4 3 0x7FFF s.now false)

end Sys2Proof.Machine
end

