-- ==== Sys2Proof/Machine/Norm.lean ====
section
/-!
DEFINITION. Norm reports at the lead hen and the records it emits (R99 to R101).
-/
namespace Sys2Proof.Machine

/-- The contributing tiles of a partition's run as (norm index, tile), in the image's order (R99). -/
def State.contributors (s : State) (p : Nat) : List (Nat × Nat) :=
  match (s.part p).img with
  | some i => i.programs.filterMap fun g => g.norm.map fun n => (n, g.tile)
  | none => []

/-- A partition's collection for a phase id changed. -/
def State.modNorm (s : State) (p ph : Nat) (f : NormOcc → NormOcc) : State :=
  s.modPart p fun x => { x with norm := x.norm.put {} ph (f (x.norm.look {} ph)) }

/-- A NORM token at a hen: the lead hen takes it, another passes it on (R167). -/
def normToken (kind r : Nat) (k : Token) (s : State) (f : Nat → State → State) : Host.Outcome State Fault Refusal :=
  henToken 7 kind r k s fun s =>
    let p := (s.region r).ctl.part
    match s.leadOf p with
    | some l => if l = r then f p s else s.henQueue r { k with scope := 1 }
    | none => s

/-- NORM_PAIR (R99, R164). -/
def execNormPair (r : Nat) (k : Token) (s : State) : Host.Outcome State Fault Refusal :=
  normToken 0 r k s fun p s =>
    let i := bits k.pay 78 64
    s.modNorm p (bits k.pay 87 80) fun o =>
      let n := o.ends.look 0 i + 1
      if n < o.occurrence then o
      else { o with pairs := o.pairs ++ [(n, i, k.group.toNat % 256, k.pay.extractLsb' 0 32, k.pay.extractLsb' 32 32)] }

/-- NORM_END (R99, R164). -/
def execNormEnd (r : Nat) (k : Token) (s : State) : Host.Outcome State Fault Refusal :=
  normToken 1 r k s fun p s =>
    let i := bits k.pay 78 64
    s.modNorm p (bits k.pay 87 80) fun o => { o with ends := o.ends.put 0 i (o.ends.look 0 i + 1) }

/-- Whether a value is a NaN. -/
def isNan32 (w : Word) : Bool := val32 w == .nan

/-- The flags of a record (R100, R101). -/
def normFlags (limit w ratio : Word) (incomplete : Bool) : Nat :=
  let ovr := limit <<< 1 ≠ 0 && !isNan32 ratio && !isNan32 limit && decide (fpKey fp32 limit.toNat < fpKey fp32 ratio.toNat)
  b2n ovr + 2 * b2n incomplete + 4 * b2n (w = 0) + 8 * b2n (isNan32 ratio)

/-- The 32 bytes of a record (R100). -/
def normRecord (time occ ph tag flags : Nat) (w u ratio : Word) (contrib : Nat) : List Byte :=
  leBytes 8 time ++ leBytes 4 occ ++ leBytes 1 ph ++ leBytes 1 tag ++ leBytes 1 flags ++ leBytes 1 0 ++
    leBytes 4 w.toNat ++ leBytes 4 u.toNat ++ leBytes 4 ratio.toNat ++ leBytes 2 contrib ++ leBytes 2 0

/-- NORM_LIMIT of a partition's image (R101, R385). -/
def State.normLimit (s : State) (p : Nat) : Word :=
  match (s.part p).img with
  | some i => match i.policy with
    | some q => q.normLimit
    | none => 0
  | none => 0

/-- One record of an occurrence: the tag's values summed in ascending norm index (R99). -/
def State.emitNorm (s : State) (p ph occ : Nat) (incomplete : Bool) (pairs : List (Nat × Nat × Nat × Word × Word))
    (tag : Nat) : State :=
  let mine := sortBy (fun q => q.2.1) (pairs.filter fun q => q.2.2.1 = tag)
  let w := mine.foldl (fun a q => fadd a q.2.2.2.1) 0#32
  let u := mine.foldl (fun a q => fadd a q.2.2.2.2) 0#32
  let ratio := normRatio u w
  let flags := normFlags (s.normLimit p) w ratio incomplete
  let rec_ := normRecord s.now occ ph tag flags w u ratio mine.length
  let s := s.modPart p fun x => { x with normq := x.normq.push [lineOf rec_] }
  if flags % 2 = 1 || 8 ≤ flags then s.event (p + 1) 1 else s

/-- Reports of a phase id that a tile has ended and that are still on their way to the lead hen (R99, R167). -/
def State.normOnWay (s : State) (p phase index : Nat) : Nat :=
  let its := fun (k : Token) => k.cls = 7 && k.kind = 1 && k.part.toNat = p && bits k.pay 87 80 = phase && bits k.pay 78 64 = index
  (s.flight.filter fun q => its q.2).length +
    ((List.range 40).map fun r => ((s.region r).ctl.queue.filter its).length).sum

/-- A tile that will issue nothing more in its run: FAULTED or HALTED, now or at its end beat. -/
def Tile.over (x : Tile) : Bool :=
  x.st == .halted || x.st == .faulted || (x.st == .scrub && (x.endSt = 5 || x.endSt = 6))

/-- NORM_RECORD_EMIT (R99): every contributor has reported this occurrence, or one faulted or halted before it did. -/
def execNormRecordEmit (p phase : Nat) (s : State) : Host.Outcome State Fault Refusal :=
  onUnit (p < 16 && phase < 256) s fun s =>
    let o := (s.part p).norm.look {} phase
    let cs := s.contributors p
    let ended := fun (c : Nat × Nat) => decide (o.occurrence ≤ o.ends.look 0 c.1)
    let gone := fun (c : Nat × Nat) =>
      (s.tile c.2).over && decide (o.ends.look 0 c.1 + s.normOnWay p phase c.1 < o.occurrence)
    let pairs := o.pairs.filter fun q => q.1 = o.occurrence
    due (!cs.isEmpty && (!pairs.isEmpty || cs.any ended) && (cs.all ended || cs.any gone)) s fun s =>
      let tags := (List.range 256).filter fun t => pairs.any fun q => q.2.2.1 = t
      let s := forAll tags s fun t s => s.emitNorm p phase o.occurrence (!cs.all ended) pairs t
      s.modNorm p phase fun o =>
        { o with occurrence := o.occurrence + 1, pairs := o.pairs.filter fun q => q.1 ≠ o.occurrence }

end Sys2Proof.Machine
end

