-- ==== Sys2Proof/Machine/Scalar.lean ====
section
/-!
DEFINITION. The scalar class (R52 to R55, R419): one meaning per opcode over the shared forms of this file.
-/
namespace Sys2Proof.Machine

/-- The only check of a word with no address. -/
def scalarChecks (_ : Bool) (w : Dword) (_ : Tile) : List (Bool × Nat) := [(scalarOk w, cInvalidOp)]

/-- An operation of S[SA] and B written to S[SD] (R52). -/
def aluWord (op lat : Nat) (f : Word → Word → Word) (t : Nat) (s : State) : Host.Outcome State Fault Refusal :=
  issueTile 0 op t scalarChecks
    (fun _ w x => (x.later lat (.sreg (sSd w) (f (x.sreg (sSa w)) (opB x w)))).advance 1) s

/-- A comparison as a word. -/
def flagWord (b : Bool) : Word := if b then 1#32 else 0#32

/-- NOP (R52). -/
def execNop (t : Nat) (s : State) : Host.Outcome State Fault Refusal :=
  issueTile 0 0x00 t scalarChecks (fun _ w x => x.advance (1 + bits w 15 0)) s

/-- MOV (R52). -/
def execMov (t : Nat) (s : State) : Host.Outcome State Fault Refusal := aluWord 0x01 1 (fun _ b => b) t s
/-- ADD (R52). -/
def execAdd (t : Nat) (s : State) : Host.Outcome State Fault Refusal := aluWord 0x02 1 (fun a b => a + b) t s
/-- SUB (R52). -/
def execSub (t : Nat) (s : State) : Host.Outcome State Fault Refusal := aluWord 0x03 1 (fun a b => a - b) t s
/-- MUL (R52). -/
def execMul (t : Nat) (s : State) : Host.Outcome State Fault Refusal := aluWord 0x04 3 (fun a b => a * b) t s
/-- AND (R52). -/
def execAnd (t : Nat) (s : State) : Host.Outcome State Fault Refusal := aluWord 0x05 1 (fun a b => a &&& b) t s
/-- OR (R52). -/
def execOr (t : Nat) (s : State) : Host.Outcome State Fault Refusal := aluWord 0x06 1 (fun a b => a ||| b) t s
/-- XOR (R52). -/
def execXor (t : Nat) (s : State) : Host.Outcome State Fault Refusal := aluWord 0x07 1 (fun a b => a ^^^ b) t s
/-- SHL (R52). -/
def execShl (t : Nat) (s : State) : Host.Outcome State Fault Refusal :=
  aluWord 0x08 1 (fun a b => a <<< (bits b 4 0)) t s
/-- SHR (R52). -/
def execShr (t : Nat) (s : State) : Host.Outcome State Fault Refusal :=
  aluWord 0x09 1 (fun a b => a >>> (bits b 4 0)) t s
/-- SRA (R52). -/
def execSra (t : Nat) (s : State) : Host.Outcome State Fault Refusal :=
  aluWord 0x0A 1 (fun a b => a.sshiftRight (bits b 4 0)) t s
/-- MIN (R52). -/
def execMin (t : Nat) (s : State) : Host.Outcome State Fault Refusal :=
  aluWord 0x0B 1 (fun a b => if a.slt b then a else b) t s
/-- MAX (R52). -/
def execMax (t : Nat) (s : State) : Host.Outcome State Fault Refusal :=
  aluWord 0x0C 1 (fun a b => if a.slt b then b else a) t s
/-- CMPLT (R52). -/
def execCmplt (t : Nat) (s : State) : Host.Outcome State Fault Refusal :=
  aluWord 0x0D 1 (fun a b => flagWord (a.slt b)) t s
/-- CMPEQ (R52). -/
def execCmpeq (t : Nat) (s : State) : Host.Outcome State Fault Refusal :=
  aluWord 0x0E 1 (fun a b => flagWord (a == b)) t s
/-- CMPLTU (R52). -/
def execCmpltu (t : Nat) (s : State) : Host.Outcome State Fault Refusal :=
  aluWord 0x0F 1 (fun a b => flagWord (a.ult b)) t s

/-- The byte address of LDS and STS (R54, R417). -/
def wordAddr (x : Tile) (w : Dword) : Nat := addr x (sSa w) (sImm w)

/-- The checks of LDS and STS (R54). -/
def memChecks (_ : Bool) (w : Dword) (x : Tile) : List (Bool × Nat) :=
  [(scalarOk w, cInvalidOp), (wordAddr x w % 4 = 0 ∧ wordAddr x w < 393216, cAddrRange)]

/-- LDS (R52, R114): the read port beat is the one after issue. -/
def execLds (t : Nat) (s : State) : Host.Outcome State Fault Refusal :=
  issueTile 0 0x10 t memChecks
    (fun _ w x =>
      let a := wordAddr x w
      { x with rds := x.rds ++ [{ beat := x.beat + 1, code := 2, line := a / 64, issue := x.beat,
                                  dest := .sreg (sSd w) (a % 64) : RdReq }] }.advance 1) s

/-- STS (R52, R113, R114). -/
def execSts (t : Nat) (s : State) : Host.Outcome State Fault Refusal :=
  issueTile 0 0x11 t memChecks
    (fun _ w x =>
      let a := wordAddr x w
      { x with wrs := x.wrs ++ [{ beat := x.beat + 1, code := 2, line := a / 64, issue := x.beat,
                                  mask := maskOf (a % 64) 4,
                                  data := (x.sreg (sSb w)).setWidth 512 <<< (8 * (a % 64)) : WrReq }] }.advance 1) s

/-- The checks of a branch or jump: its target is judged taken or not (R54). -/
def jumpChecks (_ : Bool) (w : Dword) (_ : Tile) : List (Bool × Nat) :=
  [(scalarOk w, cInvalidOp), (sTgt w < 6144, cAddrRange)]

/-- BR (R52). -/
def execBr (t : Nat) (s : State) : Host.Outcome State Fault Refusal :=
  issueTile 0 0x12 t jumpChecks
    (fun _ w x => if x.sreg (sSa w) ≠ 0 then x.jump (sTgt w) else x.advance 1) s

/-- BZ (R52). -/
def execBz (t : Nat) (s : State) : Host.Outcome State Fault Refusal :=
  issueTile 0 0x13 t jumpChecks
    (fun _ w x => if x.sreg (sSa w) = 0 then x.jump (sTgt w) else x.advance 1) s

/-- JMP (R52, R53). -/
def execJmp (t : Nat) (s : State) : Host.Outcome State Fault Refusal :=
  issueTile 0 0x14 t jumpChecks (fun _ w x => x.jump (sTgt w)) s

/-- The checks of a loop of `n` iterations (R48, R53, R54). -/
def loopChecks (n : Tile → Dword → Nat) (_ : Bool) (w : Dword) (x : Tile) : List (Bool × Nat) :=
  let e := sTgt w
  [(scalarOk w, cInvalidOp),
   (6144 ≤ e || (x.pc < e && x.loops.all fun l => e ≤ l.stop), cInvalidOp),
   (e < 6144, cAddrRange),
   (n x w = 0 || x.loops.length < 4, cLoopDepth)]

/-- A loop of `n` iterations (R53): active, or its body skipped as if the word at its end had been executed. -/
def startLoop (n : Nat) (w : Dword) (x : Tile) : Tile :=
  if n = 0 then
    let (pc, loops) := afterWord (sTgt w) x.loops
    { x with pc := pc, loops := loops, nextIssue := x.beat + 3 }
  else
    { x with pc := x.pc + 1, nextIssue := x.beat + 1,
             loops := { start := x.pc, stop := sTgt w, left := n, index := 0 } :: x.loops }

/-- LOOP (R53). -/
def execLoop (t : Nat) (s : State) : Host.Outcome State Fault Refusal :=
  issueTile 0 0x15 t (loopChecks fun x w => (x.sreg (sSa w)).toNat)
    (fun _ w x => startLoop (x.sreg (sSa w)).toNat w x) s

/-- RDLC (R52). -/
def execRdlc (t : Nat) (s : State) : Host.Outcome State Fault Refusal :=
  issueTile 0 0x16 t scalarChecks
    (fun _ w x =>
      let i := match x.loops with
        | l :: _ => l.index
        | [] => 0
      (x.later 1 (.sreg (sSd w) (BitVec.ofNat 32 i))).advance 1) s

/-- LOOPI (R53). -/
def execLoopi (t : Nat) (s : State) : Host.Outcome State Fault Refusal :=
  issueTile 0 0x17 t (loopChecks fun _ w => bits w 31 16)
    (fun _ w x => startLoop (bits w 31 16) w x) s

/-- HALT (R55): the pipes run on. -/
def execHalt (t : Nat) (s : State) : Host.Outcome State Fault Refusal :=
  issueTile 0 0x18 t scalarChecks (fun _ _ x => { x.advance 1 with st := .halted }) s

end Sys2Proof.Machine
end

