-- ==== Sys2Proof/Machine/Faults.lean ====
section
/-!
DEFINITION. Fault tokens and the fault policy, residue events, the in-field test and its pauses (R334 to R349).
-/
namespace Sys2Proof.Machine

/-! ## Test states (R341, R346, R347) -/

/-- A hen reports its OVERDUE or LAPSED tiles to the controller. -/
def State.reportTests (s : State) (r kind : Nat) (f : TestSt → Bool) : State :=
  s.henSend r .mc (s.henToken r 5 (BitVec.ofNat 4 kind) 0 1
    (testPay r (s.testTiles r f).length false (s.region r).ctl.runGen.toNat))

/-- A tile's test state moved on, with the report R346 asks for. -/
def State.moveTest (s : State) (t : Nat) (st : TestSt) : State :=
  let r := regionOf t
  let s := s.modTile t fun x => { x with test := { x.test with st := st } }
  match st with
  | .overdue => s.reportTests r 0 (· == .overdue)
  | .lapsed => (s.modTest r fun h => { h with lapses := sat16 (h.lapses + 1) }).reportTests r 3 (· == .lapsed)
  | _ => s

/-- A tile marked OVERDUE by a fault (R338). -/
def State.markTest (s : State) (t : Nat) : State :=
  match (s.tile t).test.st with
  | .current => s.moveTest t .overdue
  | .due => s.moveTest t .overdue
  | _ => s

/-- A tile whose last test lies `hours` back, in one of the given states. -/
def testAge (t hours : Nat) (f : TestSt → Bool) (s : State) (g : State → State) : Host.Outcome State Fault Refusal :=
  onUnit (t < 20000) s fun s =>
    due (s.mgt.originSet && decide (s.lastTest t + hours * 3600000000 ≤ s.now) && s.tileState t = 0 &&
      f (s.tile t).test.st) s g

/-- TILE_DUE (R341). -/
def execTileDue (t : Nat) (s : State) : Host.Outcome State Fault Refusal :=
  testAge t 20 (· == .current) s fun s => s.moveTest t .due

/-- TILE_OVERDUE (R341, R346). -/
def execTileOverdue (t : Nat) (s : State) : Host.Outcome State Fault Refusal :=
  testAge t 23 (fun x => x == .current || x == .due) s fun s => s.moveTest t .overdue

/-- TILE_LAPSED (R341, R346). -/
def execTileLapsed (t : Nat) (s : State) : Host.Outcome State Fault Refusal :=
  testAge t 24 (fun x => x == .current || x == .due || x == .overdue) s fun s => s.moveTest t .lapsed

/-- A TEST token at the controller: the host's test event and a CPER record (R346). -/
def mcTest (kind : Nat) (k : Token) (s : State) : Host.Outcome State Fault Refusal :=
  onUnit true s fun s =>
    due (k.cls = 5 && k.kind.toNat = kind) s fun s =>
      let s := s.landed .mc k
      if reservedToken k then s.reservedAtMc
      else (s.event 0 3).cper { source := 6, unitKind := 3, unit := bits k.pay 5 0, severity := 3 }

/-- TEST_OVERDUE (R346). -/
def execTestOverdue (k : Token) (s : State) : Host.Outcome State Fault Refusal := mcTest 0 k s
/-- TEST_LAPSED (R347). -/
def execTestLapsed (k : Token) (s : State) : Host.Outcome State Fault Refusal := mcTest 3 k s

/-! ## Fault tokens (R334 to R338) -/

/-- A token is attributed to a run that is RUNNING, WAITING or HELD (R336). -/
def State.runsAs (s : State) (p : Nat) (gen : BitVec 8) : Bool :=
  (s.part p).st == .running && (s.part p).runNo.setWidth 8 = gen

/-- The policy's KILL for a FAULT kind (R336, R385). -/
def State.kills (s : State) (p kind : Nat) : Bool :=
  match (s.part p).img with
  | some i => match i.policy with
    | some q => [q.tile, q.memory, q.timing, q.residue, q.control].getD kind false
    | none => true
  | none => true

/-- What a FAULT token says (R164). -/
def fKind (k : Token) : Nat := k.kind.toNat
def fUnit (k : Token) : Nat := tokArg k % 2 ^ 15
def fCause (k : Token) : Nat := tokArg k / 2 ^ 16 % 256
def fRegion (k : Token) : Bool := (tokArg k).testBit 24

/-- An informational cause (R335). -/
def informational (k : Token) : Bool := fKind k = 6 || (fKind k = 2 && fCause k = 0x10)

/-- An event of a transit-owned input (R337). -/
def transitEvent (k : Token) : Bool := fKind k = 2 && (fCause k = 1 || fCause k = 2) && fRegion k

/-- ACTION of the entry (R334, R336). -/
def State.faultAction (s : State) (k : Token) : Nat :=
  let p := k.part.toNat
  if s.runsAs p (tokRunGen k) && !transitEvent k && !informational k && decide (fKind k ≤ 4) then
    if s.kills p (fKind k) then 2 else 1
  else 0

/-- The fault queue entry (R334). -/
def faultEntry (k : Token) (attr : Bool) (action : Nat) : List Byte :=
  leBytes 6 (tokBeat k) ++ leBytes 1 (b2n (fRegion k) + 2 * b2n attr + 4 * b2n (informational k)) ++ leBytes 1 (fKind k) ++
    leBytes 2 (fUnit k) ++ leBytes 1 (fCause k) ++ leBytes 1 k.src.toNat ++ leBytes 1 k.part.toNat ++
    leBytes 1 (tokRunGen k).toNat ++ leBytes 1 action ++ leBytes 1 0

/-- UNIT_KIND and UNIT of a fault's CPER record (R356; log entry 27). -/
def faultUnit (k : Token) : Nat × Nat :=
  let src := k.src.toNat
  if src < 40 then
    if fUnit k = 0x7FFF then (3, src) else (if fKind k = 3 && 16 ≤ fCause k then 2 else 1, fUnit k)
  else if src < 56 then (9, stagingIndex (.hbm (src - 40)))
  else if src < 60 then (9, stagingIndex (.iod (src - 56)))
  else (0, fUnit k)

/-- Times within the last 24 h, with this one (R338). -/
def within24h (now : Nat) (l : List Nat) : List Nat :=
  now :: l.filter fun t => decide (now < t + 86400000000)

/-- What a fault does to its unit (R338). -/
def State.faultUnits (s : State) (k : Token) : State :=
  let t := fUnit k
  if 20000 ≤ t then s
  else if (fKind k = 0 && fCause k = 7) || (fKind k = 1 && fCause k = 1) then s.markTest t
  else if fKind k = 3 then
    let x := (s.tile t).test
    if fCause k < 16 then
      let l := within24h s.now x.arrTimes
      let s := (s.modTile t fun x => { x with test := { x.test with arrTimes := l } }).markTest t
      if 3 ≤ l.length then s.tileBad t 3 else s
    else
      let l := within24h s.now x.rtrTimes
      let s := s.modTile t fun x => { x with test := { x.test with rtrTimes := l } }
      if 3 ≤ l.length then s.routerBad t 3 else s
  else s

/-- The entry, the record and the policy (R334, R336, R337); `q` is the region whose queue takes the entry. -/
def State.takeFault (s : State) (q : Option Nat) (k : Token) : State :=
  let p := k.part.toNat
  let attr := s.runsAs p (tokRunGen k) && !transitEvent k
  let act := s.faultAction k
  let u := faultUnit k
  let s := match q with
    | some r => s.modRegion r fun x => { x with faults := x.faults.push [lineOf (faultEntry k attr act)] }
    | none => s
  let s := s.cper {
    source := 1, kind := fKind k, cause := fCause k, unitKind := u.1, action := act, unit := u.2, part := p,
    attributed := attr, runGen := tokRunGen k, beat := tokBeat k, regionBeat := fRegion k,
    severity := if informational k then 3 else 0 }
  let s := if act = 2 then s.announceStop p 2 else s
  match q with
  | some _ => s.faultUnits k
  | none => s

/-- FAULT_TOKEN (R334, R336): at a hen, or at the controller for edge nodes and I/O dies. -/
def execFaultToken (n : NodeId) (k : Token) (s : State) : Host.Outcome State Fault Refusal :=
  match n with
  | .hen r => onUnit (r < 40) s fun s => due (k.cls = 4) s fun s => s.receive r (.hen r) k fun s => s.takeFault (some r) k
  | .mc => onUnit true s fun s =>
      due (k.cls = 4) s fun s =>
        let s := s.landed .mc k
        if reservedToken k then s.reservedAtMc else s.takeFault none k
  | .tile t => onUnit (t < 20000) s id
  | .site x => onUnit (x < 16) s id
  | .iod d => onUnit (d < 4) s id

/-! ## Residue checks (R339, R340) -/

/-- Whether an output added lanes in a beat: the operation it applied was FADD32 or FADDBF (R143, R339). -/
def Router.addsAt (x : Router) (c : HenCtl) (o beat : Nat) : Bool :=
  match x.applied { c with sched := beat, held := false } beat o with
  | some f => fOp f = 1 || fOp f = 2
  | none => false

/-- RESIDUE_MISMATCH (R339, R340): the exact sum that an array or a router's lane adder formed disagrees with the residues
carried to it, at most 16 beats ago. An output runs for the run but while it is tested, or where transit owns it. -/
def execResidueMismatch (t : Nat) (router : Bool) (unit : Nat) (residue : ResidueCheck) (s : State) :
    Host.Outcome State Fault Refusal :=
  onUnit (t < 20000 && if router then unit < 5 else unit < 4) s fun s =>
    let r := regionOf t
    let x := s.region r
    let p := (s.tile t).test
    let tested := p.st == .testing && (!router || p.routers)
    let region := tested || !x.ctl.run || (router && (s.router t).transit unit)
    let now := if region then x.clk.count else x.ctl.sched
    due ((if router then x.planeOn && (tested || (s.router t).addsAt x.ctl unit residue.beat) else !x.dark) &&
        !residueAgrees residue.sum residue.carried && residue.beat ≤ now && now ≤ residue.beat + 16) s fun s =>
      let s := s.modTile t fun y =>
        let p := y.test
        { y with test := { p with
          arrSeen := p.arrSeen || !router, rtrSeen := p.rtrSeen || router,
          array := if router || p.arrSeen then p.array else unit,
          port := if router && !p.rtrSeen then unit else p.port,
          arrCount := if router then p.arrCount else sat16 (p.arrCount + 1),
          rtrCount := if router then sat16 (p.rtrCount + 1) else p.rtrCount,
          resBeat := if p.resValid then p.resBeat else residue.beat,
          resRegion := if p.resValid then p.resRegion else region, resValid := true,
          hit := p.hit || tested } }
      s.raise r 3 (if router then 16 + unit else unit) t residue.beat region

/-! ## In-field test (R342 to R349) -/

/-- Whether a fallow table entry names a tile (R344; the rectangle is in module coordinates, log entry 29). -/
def namesTile (f : ImgFallow) (t : Nat) : Bool :=
  f.region = regionOf t && decide (f.x0 ≤ t % 200 ∧ t % 200 ≤ f.x1 ∧ f.y0 ≤ t / 200 ∧ t / 200 ≤ f.y1)

/-- The first line of a tile's test area: that of the window it runs in; the spec names none for another opportunity, so it
is then a free value (R345; log entry 28). -/
def State.testArea (s : State) (t : Nat) : Nat :=
  (s.tile t).test.area.getD ((Config.freeValue s.free).toNat % 5121)

/-- The scan of part C finds a word with more than one wrong bit in the scratchpad or the program store (R342; log entry 28). -/
def Tile.scanFails (x : Tile) : Bool :=
  let bad := fun (q : Nat × Ecc) => q.2 == .double || q.2 == .many
  x.spEcc.any bad || x.progEcc.any bad

/-- What a test leaves behind (R345). -/
def Tile.afterTest (x : Tile) (area : Nat) : Tile :=
  { x with
    arrays := x.arrays.foldl (fun tb p => tb.put {} p.1
      { p.2 with bAct := [], bSha := [], sAct := [], sSha := [], acc := [] }) [],
    vregs := [], sp := x.sp.clear area (area + 1024), spEcc := x.spEcc.clear (8 * area) (8 * (area + 1024)) }

/-- IDLE_REGION_TEST (R344): a region that holds no loaded image. -/
def execIdleRegionTest (t : Nat) (s : State) : Host.Outcome State Fault Refusal :=
  onUnit (t < 20000) s fun s =>
    let x := s.region (regionOf t)
    let idle := !x.ctl.assigned || (s.part x.ctl.part).st == .empty
    due (s.mgt.ready && idle && !x.dark && (s.tile t).st == .idle && isDue (s.tile t).test.st) s fun s =>
      s.startTests [t] { place := 0, routers := true }

/-- Whether a schedule beat is an occurrence of a window or pause point. -/
def occurs (start period b : Nat) : Bool := b = start || (0 < period && start ≤ b && (b - start) % period = 0)

/-- FALLOW_WINDOW (R344): window `i` of the image begins in region `r`; every DUE, OVERDUE or LAPSED tile it names is
tested. -/
def execFallowWindow (r i : Nat) (s : State) : Host.Outcome State Fault Refusal :=
  onUnit (r < 40) s fun s =>
    let c := (s.region r).ctl
    match (s.part c.part).img with
    | some g =>
      match g.fallow[i]? with
      | some f =>
        due (c.run && !c.held && f.region = r && occurs f.start f.period c.sched) s fun s =>
          s.startTests ((regionTiles r).filter fun t => namesTile f t && isDue (s.tile t).test.st)
            { place := 1, area := some f.testLine, routers := f.router, roomy := 3840000 ≤ f.length }
      | none => s
    | none => s

/-- The result of a tile's test: 1 PASS, 2 FAIL, 3 UNRESOLVED, 4 RETIRED; none where part B is to be run again (R343, R348,
R349). `scan` says that the scan of part C fails, `second` that the pair holds a tile already SUSPECT. -/
def testResult (p : TestRegs) (scan second : Bool) (o : TestOutcome) : Option Nat :=
  if p.hit || scan then some 2
  else match o with
    | .pass => some 1
    | .failA => some 2
    | .failC => some 2
    | .mismatch => none
    | .refereeAgainst => if p.reran then some 2 else none
    | .refereeFor => if p.reran then some 1 else none
    | .noReferee => if p.reran then (if second then some 4 else some 3) else none

/-- A tile's test has ended with a result (R345, R348). -/
def State.endTest (s : State) (t res : Nat) : State :=
  let area := s.testArea t
  let r := regionOf t
  let s := { s with free := s.free + 1 }
  let s := s.modTile t fun x =>
    let p := x.test
    { x.afterTest area with test := { p with
      st := if res = 3 then .suspect else .current, result := if res = 4 then 3 else res,
      last := if res = 1 then p.opened else s.now, tests := sat16 (p.tests + 1), hit := false } }
  let s := if (s.tile t).test.place = 2 then s.modTest r fun h => { h with tested := h.tested + 1, failed := h.failed || res = 2 }
    else s
  if res = 2 then
    let c := (s.region r).ctl
    let s := s.tileBad t 2 2
    if c.run then s.raise r 0 0x20 t c.sched false else s
  else if res = 4 then s.tileBad t 3 2
  else s

/-- Part B is run again: at once where the opportunity has room, else at the next one, for which a CURRENT partner is DUE again
(R343, R344). -/
def TestRegs.again (p : TestRegs) (count : Nat) : TestRegs :=
  if p.roomy then { p with reran := true, beganAt := count }
  else { p with st := if p.before == .current then .due else p.before, rerunDue := true, hit := false }

/-- IFT_COMPLETE (R342 to R346, R348, R349): a test lasts 1,920,000 beats of the region; where it takes in the routers' outputs,
a failed loop clears ROUTER_OK. -/
def execIftComplete (t : Nat) (o : TestOutcome) (routerOk : Bool) (s : State) : Host.Outcome State Fault Refusal :=
  onUnit (t < 20000) s fun s =>
    let p := (s.tile t).test
    let r := regionOf t
    due (p.st == .testing && p.beganAt + 1920000 ≤ (s.region r).clk.count) s fun s =>
      let s := if routerOk || !p.routers then s else s.routerBad t 2 2
      let second := p.before == .suspect || (s.tile p.partner).test.before == .suspect
      let s := match testResult p (s.tile t).scanFails second o with
        | none => s.modTile t fun x => { x with test := x.test.again (s.region r).clk.count }
        | some res => s.endTest t res
      let h := (s.region r).test
      due (p.place = 2 && h.pending && (s.testTiles r (· == .testing)).isEmpty) s fun s =>
        (s.modTest r fun h => { h with tested := 0, failed := false }).pauseDone r h.tested h.failed

/-- The first pause point at least 96 beats ahead (R346). -/
def pausePoint (start period now : Nat) : Nat :=
  let lo := now + 96
  if lo ≤ start then start else start + (lo - start + period - 1) / period * period

/-- A GRANT at a region's hen (R346): the hen becomes coordinator, or NO_PAUSE is set. -/
def State.grant (s : State) (r : Nat) : State :=
  let x := s.region r
  let p := x.ctl.part
  match (s.part p).img with
  | some i =>
    if x.ctl.assigned && s.running p && 0 < i.stepPeriod then
      if (s.partRegions p).any fun q => (s.region q).test.pending then s
      else
        let h := pausePoint i.stepStart i.stepPeriod x.ctl.sched
        ((s.modTest r fun t => { t with
          pending := true, coord := true, coordRegion := r, waiting := s.partRegions p }).henQueue r
            (s.henToken r 5 1 0 2 (testPay r 0 false x.ctl.runGen.toNat))).askLead r 6 h 4
    else s.modTest r fun t => { t with noPause := true }
  | none => s.modTest r fun t => { t with noPause := true }

/-- TEST_GRANT (R346). -/
def execTestGrant (r : Nat) (k : Token) (s : State) : Host.Outcome State Fault Refusal :=
  henToken 5 1 r k s fun s => s.modTest r fun t => { t with pending := true, coordRegion := bits k.pay 5 0 }

/-- TEST_DONE (R346). -/
def execTestDone (r : Nat) (k : Token) (s : State) : Host.Outcome State Fault Refusal :=
  henToken 5 2 r k s fun s =>
    due (s.region r).test.coord s fun s =>
      let s := s.modTest r fun t => { t with waiting := t.waiting.erase (bits k.pay 5 0) }
      if (s.region r).test.waiting.isEmpty then
        (forAll (s.partRegions (s.region r).ctl.part) s fun q s => s.modTest q fun t =>
          { t with pending := false, coord := false }).askLead r 7 0 4
      else s

end Sys2Proof.Machine
end

