-- ==== Sys2Proof/Machine/Power.lean ====
section
/-!
DEFINITION. Region rails, phases, trips, retention, the budgeter, duty holds and region heat (R308 to R333).
-/
namespace Sys2Proof.Machine

/-! ## Figures (R309, R311, R321, R323) -/

def Frac.mul (a b : Frac) : Frac := fracOf (a.num * b.num) (a.den * b.den)
def Frac.div (a : Frac) (b : Frac) : Frac := fracOf (a.num * b.den * b.num.sign) (a.den * b.num.natAbs)
/-- Rounded toward +∞. -/
def Frac.ceil (a : Frac) : Int := -((-a.num) / (a.den : Int))

/-- V_rail(F) of a region in mV (R311). -/
def State.vRail (s : State) (r f : Nat) : Frac :=
  let v := (vSetOf f).add (fracInt (s.mgt.fuses.offsets.look 0 r))
  if v.lt (fracInt 550) then fracInt 550 else if (fracInt 800).lt v then fracInt 800 else v

/-- Failed phases of a region. -/
def HenPwr.phCount (p : HenPwr) : Nat := popcount p.phFailed

/-- STATE of a region in service, by its failed phases (R313). -/
def HenPwr.service (p : HenPwr) : RegSt := if p.phCount ≤ 16 then .normal else .capped

/-- L[p] of R321: 576 A where neither a sample nor the image gives it, once a run has started. -/
def HenPwr.learned (p : HenPwr) (ph : Nat) : Frac :=
  let l := p.learn.look {} ph
  if l.n = 0 && !l.seeded then (if p.learnOn then fracInt 5760 else fracInt 0) else l.value

/-- The successors of a phase id in the image's table (R320 to R322). -/
def State.successors (s : State) (r ph : Nat) : List Nat :=
  match (s.part (s.region r).ctl.part).img with
  | some i => match i.phases.find? fun q => q.phase = ph && q.region = r with
    | some q => q.next
    | none => []
  | none => []

/-- I_pred of a region in 0.1 A (R322): the largest L over the phase and its successors. -/
def State.iPred (s : State) (r : Nat) : Frac :=
  let p := (s.region r).pwr
  (s.successors r p.phase).foldl (fun a q => let v := p.learned q; if a.lt v then v else a) (p.learned p.phase)

/-- A fraction in 0.1 A as a 14-bit field. -/
def amps14 (a : Frac) : Nat := min a.floor.toNat 16383

/-- I_max of R323 at a rate, in 0.1 A. -/
def State.iMaxAt (s : State) (f r : Nat) : Frac :=
  let p := (s.region r).pwr
  let a := fracInt (120 * (64 - p.phCount : Nat))
  let b := (fracInt (p.limitA * 16200)).div (s.vRail r f)
  let full := a.min b
  let c := match p.derate with
    | some t =>
      let l := p.heldLearn.value
      let d := fracOf (min t 95 - 90 : Nat) 5
      full.add ((l.add ⟨-full.num, full.den⟩).mul d)
    | none => full
  let c := full.min c
  if p.near255 then c.min (fracInt 2550) else c

/-- I_max at the device rate. -/
def State.iMax (s : State) (r : Nat) : Frac := s.iMaxAt s.mgt.fMhz r

/-- Input rating by variant in W (R309). -/
def inputRating (f : Fuses) : Nat :=
  if f.nStacks = 16 then (if f.iods = 4 then 19500 else 18900)
  else if f.nStacks = 12 then 19300
  else if f.iods = 4 then 19100 else 18500

/-- The predicted current of a region with a duty of `d` twentieths, from its last report (R322, R323). -/
def State.mixed (s : State) (r d : Nat) : Frac :=
  let x := s.region r
  let q := s.mgt.reports.look (0, 0, 0) r
  let i := if x.ctl.assigned && s.running x.ctl.part then q.2.1 else q.1
  ((fracInt i).mul (fracOf (20 - d : Nat) 20)).add (x.pwr.heldLearn.value.mul (fracOf d 20))

/-- P(F, D) in W (R323). -/
def State.powerAt (s : State) (m : PowerMeas) (f d : Nat) : Frac :=
  let tile := (List.range 40).foldl (fun a r => a.add ((s.vRail r f).mul (s.mixed r d))) (fracInt 0)
  let w := (tile.mul (kOf f)).mul (fracOf 1 10000)
  (w.add (fracInt m.fixedW)).mul (fracOf m.etaDen m.etaNum)

/-- The cap in force: the lower of the two applied, or the input rating (R325). -/
def Mgt.cap (m : Mgt) : Nat := if m.appliedW = 0 then inputRating m.fuses else m.appliedW

/-- 0.97 × C_eff, the cap being lowered so that 450 A is not exceeded at the present busbar voltage (R308, R323). -/
def State.capLimit (s : State) (m : PowerMeas) : Frac :=
  let c := s.mgt.cap
  fracOf (97 * min (c - (m.inputW - c)) (450 * m.busMv / 1000)) 100

/-- The target rate F_t (R323). -/
def State.targetF (s : State) (m : PowerMeas) : Nat :=
  let fs := (List.range 25).map fun i => 1200 - 25 * i
  match fs.find? fun f => (s.powerAt m f 0).le (s.capLimit m) with
  | some f => f
  | none => 600

/-- F moves by at most 4 steps down or 1 up (R323). -/
def stepF (f t : Nat) : Nat := if t < f then max t (f - 100) else if f < t then f + 25 else f

/-- The smallest duty that fits the cap at 600 MHz (R324). -/
def State.capDuty (s : State) (m : PowerMeas) : Nat :=
  if (s.powerAt m 600 0).le (s.capLimit m) then 0
  else ((List.range 21).find? fun d => (s.powerAt m 600 d).le (s.capLimit m)).getD 20

/-- The smallest duty that keeps every region of a partition under its ceiling at a rate (R324). -/
def State.ceilDuty (s : State) (f p : Nat) : Nat :=
  let rs := s.partRegions p
  ((List.range 21).find? fun d => rs.all fun r => (s.mixed r d).le (s.iMaxAt f r)).getD 20

/-- The duty of a region's partition (R324). -/
def State.dutyOf (s : State) (m : PowerMeas) (f r : Nat) : Nat :=
  let c := (s.region r).ctl
  if s.mgt.fixedOn || !(c.assigned && s.running c.part) then 0
  else max (if f = 600 then s.capDuty m else 0) (s.ceilDuty f c.part)

/-- A BUDGET token; how the budget is shared the spec does not say, so it is a free value (log entry 30). -/
def State.sendBudget (s : State) (m : PowerMeas) (f n r : Nat) : State :=
  let d := s.dutyOf m f r
  let (v, s) := s.draw
  (s.modMgt fun g => { g with budgets := g.budgets.put 0 r (v.toNat % 16384) }).mcQueue
    { cls := 6, kind := 1, group := 0, scope := 3, src := 63, part := 0,
      pay := pack [(0, r), (8, v.toNat % 16384), (22, d), (32, n % 256)] }

/-- The rate of the interval that begins at tick `k` (R183, R195, R323): at most 4 steps down or 1 up from the rate in force,
announced at least 2 ticks ahead; unchanged otherwise, in fixed-clock mode and while that mode is awaited. -/
def State.nextF (s : State) (m : PowerMeas) (k : Nat) : Nat :=
  let g := s.mgt
  if g.fixedOn || (g.modeWait && g.fixed) || k < s.now + 2 then
    (match g.fNext with
     | some (_, f) => f
     | none => g.fMhz)
  else stepF g.fMhz (s.targetF m)

/-- The budgeter computes the interval that begins at tick `k` (R322, R323). -/
def State.budgeter (s : State) (m : PowerMeas) (k : Nat) : State :=
  let f := s.nextF m k
  let s := s.modMgt fun g => { g with
    demandW := (s.powerAt m 1200 0).floor.toNat % 65536,
    fNext := if g.fixedOn || (g.modeWait && g.fixed) || k < s.now + 2 then g.fNext
      else if f = g.fMhz then none else some (k, f) }
  forAll (List.range 40) s fun r s => s.sendBudget m f (k / 100) r

/-- An excess of the 10 ms input average over the cap in fixed-clock mode raises FAULT POWER with cause 0x07 when it begins
(R325). -/
def State.excess (s : State) (m : PowerMeas) : State :=
  let above := if s.mgt.fixedOn && s.mgt.appliedW ≠ 0 then m.inputW10 - s.mgt.appliedW else 0
  let new : Bool := s.mgt.excessW = 0 && 0 < above
  let s := s.modMgt fun g => { g with excessW := above }
  if new then s.fly .mc (faultTok .mc 0 0 5 7 0x7FFF s.now false) else s

/-- BUDGET_INTERVAL (R322, R323): for the interval that begins at the next tick whose number is a multiple of 100. -/
def execBudgetInterval (m : PowerMeas) (s : State) : Host.Outcome State Fault Refusal :=
  onUnit true s fun s =>
    let k := (s.now / 100 + 1) * 100
    due (s.mgt.ready && s.mgt.interval ≠ k / 100 && 0 < m.etaNum && 0 < m.etaDen) s fun s =>
      ((s.excess m).modMgt fun g => { g with interval := k / 100 }).budgeter m k

/-- FLOOR_RECOMPUTE (R325). -/
def execFloorRecompute (m : PowerMeas) (s : State) : Host.Outcome State Fault Refusal :=
  onUnit true s fun s =>
    due (s.mgt.ready && 0 < m.etaNum && 0 < m.etaDen) s fun s =>
      s.modMgt fun g => { g with
        floorW := ((s.powerAt m 600 20).mul (fracOf 100 97)).ceil.toNat % 65536 }

/-- The answer to a cap write: status and cap applied (R325). -/
def capAnswer (m : Mgt) (w : Nat) : Nat × Nat :=
  if w ≠ 0 && w < m.floorW then (1, m.floorW)
  else if inputRating m.fuses < w then (2, inputRating m.fuses)
  else (if m.fixedOn then 3 else 0, w)

/-- The lower of two non-zero caps. -/
def lowerCap (a b : Nat) : Nat := if a = 0 then b else if b = 0 then a else min a b

/-- A cap written by the host or by the fabric manager (R325). -/
def Mgt.writeCap (m : Mgt) (host : Bool) (w : Nat) : Mgt :=
  let a := capAnswer m w
  let m := if host then { m with hostCap := w, hostStatus := a.1, hostApplied := a.2 }
    else { m with fmCap := w, fmStatus := a.1, fmApplied := a.2 }
  { m with appliedW := lowerCap m.hostApplied m.fmApplied }

/-! ## Errors, faults and reports -/

/-- An event of PWR_ERR. -/
def State.pwrNote (s : State) (r bit : Nat) : State :=
  s.modPwr r fun p => { p with
    err := setBit p.err bit, errCount := sat16 (p.errCount + 1),
    errTime := if p.errValid then p.errTime else s.now, errValid := true }

/-- An event of PWR_ERR with its FAULT token (R313 to R330). -/
def State.pwrError (s : State) (r bit cause : Nat) : State :=
  (s.pwrNote r bit).raise r 5 cause 0x7FFF (s.region r).clk.count true

/-- A REPORT of a hen (R322, R326). -/
def State.report (s : State) (r avg req : Nat) : State :=
  let x := s.region r
  let pred := if x.ctl.assigned && s.running x.ctl.part then amps14 (s.iPred r) else avg
  let s := s.modPwr r fun p => { p with pred := pred }
  s.henQueue r (s.henToken r 6 2 0 1
    (pack [(0, r), (8, min avg 16383), (24, pred), (38, x.pwr.phase), (46, req), (48, s.mgt.interval % 256)]))

/-- The lead hen's part of a REPORT (R318): REQ 1 asks for a POWER hold, REQ 2 ends it once no region of the partition is
off and no duty period is open. -/
def State.leadReport (s : State) (l req : Nat) : State :=
  if req = 1 then s.holdRequest l 0 8
  else if req = 2 then
    let rs := s.partRegions (s.region l).ctl.part
    if (s.region l).pwr.heldPower || rs.any fun r => (s.region r).dark || (s.region r).pwr.wantDark.isSome then s
    else s.resumeRequest l 8
  else s

/-- REPORT (R318, R322): at a lead hen one of another partition is stale (R166), at the controller one of a reserved origin is
discarded. -/
def execReport (n : NodeId) (k : Token) (s : State) : Host.Outcome State Fault Refusal :=
  match n with
  | .hen r => henToken 6 2 r k s fun s =>
      if (s.region r).ctl.assigned && (s.region r).ctl.part = k.part.toNat then
        due (s.region r).ctl.lead s fun s => s.leadReport r (repReq k)
      else s.stale r
  | .mc => onUnit true s fun s =>
      due (k.cls = 6 && k.kind = 2) s fun s =>
        let s := s.landed .mc k
        if reservedToken k then s.reservedAtMc
        else s.modMgt fun m => { m with
          reports := m.reports.put (0, 0, 0) (bits k.pay 5 0) (bits k.pay 21 8, bits k.pay 37 24, bits k.pay 45 38) }
  | .tile t => onUnit (t < 20000) s id
  | .site x => onUnit (x < 16) s id
  | .iod d => onUnit (d < 4) s id

/-- OVER_BUDGET_REPORT (R322): a 10 µs average over 1.1 × budget is reported, and the budgeter recomputes at once; the
computation of the interval itself still follows. -/
def execOverBudgetReport (r amps : Nat) (m : PowerMeas) (s : State) : Host.Outcome State Fault Refusal :=
  onUnit (r < 40) s fun s =>
    due (s.mgt.ready && 11 * (s.region r).pwr.budget < 10 * amps && 0 < m.etaNum && 0 < m.etaDen) s fun s =>
      let s := s.report r amps 0
      let p := (s.region r).pwr
      (s.modMgt fun g => { g with reports := g.reports.put (0, 0, 0) r (min amps 16383, p.pred, p.phase) }).budgeter m
        ((s.now / 100 + 1) * 100)

/-- BUDGET (R326): the budget and duty of the interval it names, which may be the present one. -/
def execBudget (r : Nat) (k : Token) (s : State) : Host.Outcome State Fault Refusal :=
  henToken 6 1 r k s fun s =>
    due (bits k.pay 5 0 = r) s fun s => s.modPwr r fun p =>
      { p with nextBudget := some (bits k.pay 39 32, bits k.pay 21 8, bits k.pay 26 22) }.beginInterval (s.now / 100)

/-- PHASE (R320). -/
def execPhase (r : Nat) (k : Token) (s : State) : Host.Outcome State Fault Refusal :=
  henToken 6 0 r k s fun s => s.modPwr r fun p => { p with phase := bits k.pay 7 0 }

/-! ## Duty-cycled holds (R324) -/

/-- DUTY_SUBPERIOD (R324). -/
def execDutySubperiod (p : Nat) (s : State) : Host.Outcome State Fault Refusal :=
  onUnit (p < 16) s fun s =>
    match s.leadOf p with
    | some l =>
      let x := s.region l
      due (s.running p && s.now % 10 = 0 && 0 < x.pwr.duty && !s.mgt.fixedOn && !x.pwr.heldPower) s fun s =>
        (s.modPwr l fun q => { q with heldPower := true }).holdRequest l 0 8
    | none => s

/-- DUTY_HOLD_END (R324): held for D × 10 µs of the sub-period; at 20 twentieths the hold goes on. -/
def execDutyHoldEnd (p : Nat) (s : State) : Host.Outcome State Fault Refusal :=
  onUnit (p < 16) s fun s =>
    match s.leadOf p with
    | some l =>
      let x := s.region l
      due (x.pwr.heldPower && (x.pwr.duty < 20 || s.mgt.fixedOn)) s fun s =>
        (s.modPwr l fun q => { q with heldPower := false }).leadReport l 2
    | none => s

/-! ## Retention, ramps and rails (R317, R318) -/

/-- The regions whose blocks share an edge with a region's (R317). -/
def adjacent (r : Nat) : List Nat :=
  (if r % 10 < 9 then [r + 1] else []) ++ (if 0 < r % 10 then [r - 1] else []) ++
    (if r / 10 < 3 then [r + 10] else []) ++ (if 0 < r / 10 then [r - 10] else [])

/-- The partner region that feeds a plane (R314). -/
def partner (r : Nat) : Nat := if r / 10 % 2 = 0 then r + 10 else r - 10

/-- Why a region must stay off: PHASES prevails with 25 or more failed phases (R313), then the coolant, a thermal trip and
heat (log entry 127). -/
def HenPwr.reason (p : HenPwr) : Option DarkCause :=
  if 25 ≤ p.phCount then some .phases else if p.coolOff then some .coolant else if p.tripOff then some .trip
  else if p.heatOff then some .heat else none

/-- The cause a dark region shows: OFF stays, else why it must stay off, else the cause given. -/
def HenPwr.darkFor (p : HenPwr) (c : DarkCause) : DarkCause := if p.cause == .off then .off else p.reason.getD c

/-- A reason to be off is remembered until it goes. -/
def HenPwr.hold (p : HenPwr) (c : DarkCause) : HenPwr :=
  match c with
  | .heat => { p with heatOff := true }
  | .trip => { p with tripOff := true }
  | .coolant => { p with coolOff := true }
  | _ => p

/-- A region asks to enter retention (R318); one that is off already does not ramp up. -/
def State.requestDark (s : State) (r : Nat) (c : DarkCause) : State :=
  let s := s.modPwr r fun p => p.hold c
  let x := s.region r
  if x.pwr.st == .isolated then s
  else if x.pwr.st == .dark then s.modPwr r fun p => { p with cause := p.darkFor c, rampWait := false }
  else
    let s := s.modPwr r fun p => { p with wantDark := some c }
    if x.ctl.run then s.report r x.pwr.iAvg 1 else s

/-- RETENTION_ENTRY (R318): at the hold beat in the hen's own region, or at once where no run needs the hold. -/
def execRetentionEntry (r : Nat) (s : State) : Host.Outcome State Fault Refusal :=
  onUnit (r < 40) s fun s =>
    let x := s.region r
    match x.pwr.wantDark with
    | some c =>
      due (!x.pwr.ramping && (!x.ctl.run || x.ctl.held)) s fun s =>
        (s.modPwr r fun p => { p with
          st := .dark, cause := p.darkFor c, wantDark := none, darkTime := s.now, railUp := false, rampWait := false }).abandonTests r
    | none => s

/-- A region asks for its rail to ramp up, unless it is up or on its way. -/
def State.requestRamp (s : State) (r : Nat) : State :=
  s.modPwr r fun p =>
    if p.rampWait || p.ramping || p.railUp then p else { p with rampWait := true, rampSince := s.now }

/-- A reason to be off has gone (R318, R329, R330): a region with another stays or goes off for that one; one without
ramps up, or withdraws its request. -/
def State.reasonGone (s : State) (r : Nat) : State :=
  let x := s.region r
  if x.pwr.st == .dark then
    (match x.pwr.reason with
     | some c => s.modPwr r fun p => { p with cause := p.darkFor c }
     | none => if x.pwr.railOff then s else s.requestRamp r)
  else match x.pwr.wantDark, x.pwr.reason with
    | some _, some c => s.modPwr r fun p => { p with wantDark := some c }
    | some _, none =>
      let s := s.modPwr r fun p => { p with wantDark := none }
      if x.ctl.run then s.report r x.pwr.iAvg 2 else s
    | none, _ => s

/-- A lower region that asked at the same tick still waits (R317). -/
def State.earlierRamp (s : State) (r : Nat) : Bool :=
  (List.range r).any fun q => (s.region q).pwr.rampWait && (s.region q).pwr.rampSince = (s.region r).pwr.rampSince

/-- RAMP_RECHECK (R317): `loaded` adjacent blocks are above 85 %; at most four regions ramp at once, and requests that fall
together start in ascending region id. -/
def execRampRecheck (r loaded : Nat) (s : State) : Host.Outcome State Fault Refusal :=
  onUnit (r < 40) s fun s =>
    let n := ((List.range 40).filter fun q => (s.region q).pwr.ramping).length
    due ((s.region r).pwr.rampWait && loaded < 2 && n < 4 && !s.earlierRamp r) s fun s =>
      s.modPwr r fun p => { p with rampWait := false, ramping := true, halfRate := p.halfRate || loaded = 1 }

/-- RAMP_WAIT_LONG (R317): the neighbours' ceilings are limited to 255 A until the ramp completes. -/
def execRampWaitLong (r : Nat) (s : State) : Host.Outcome State Fault Refusal :=
  onUnit (r < 40) s fun s =>
    let p := (s.region r).pwr
    due (p.rampWait && decide (p.rampSince + 1000 ≤ s.now)) s fun s =>
      forAll (adjacent r) (s.pwrNote r 6) fun q s => s.modPwr q fun p => { p with near255 := true }

/-- Whether a region's ramp has waited for 1 ms and is not complete (R317). -/
def State.longWait (s : State) (r : Nat) : Bool :=
  let p := (s.region r).pwr
  (p.rampWait || p.ramping) && decide (p.rampSince + 1000 ≤ s.now)

/-- RAMP_COMPLETE (R317): the neighbours' ceilings are free unless another wait limits them. A region that must be off, as
with 25 or more failed phases, goes into retention at once (R327). -/
def execRampComplete (r : Nat) (s : State) : Host.Outcome State Fault Refusal :=
  onUnit (r < 40) s fun s =>
    due (s.region r).pwr.ramping s fun s =>
      let s := s.modPwr r fun p =>
        let p := { p with ramping := false, halfRate := false, railUp := true, railOff := false }
        match p.reason with
        | some c => if p.st == .isolated then { p with railUp := false } else { p with st := .dark, cause := c, railUp := false }
        | none => p
      forAll (adjacent r) s fun q s =>
        if (adjacent q).any fun z => z ≠ r && s.longWait z then s else s.modPwr q fun p => { p with near255 := false }

/-- RETENTION_EXIT (R318): the rail is up and LAG ≤ 0; the clocks are ungated and STATE returns. -/
def execRetentionExit (r : Nat) (s : State) : Host.Outcome State Fault Refusal :=
  onUnit (r < 40) s fun s =>
    let x := s.region r
    due (x.dark && x.pwr.railUp && x.clk.lag.le (fracInt 0) && x.pwr.reason.isNone && !x.pwr.noReturn) s fun s =>
      let s := s.modPwr r fun p => { p with st := p.service, cause := .none }
      if x.ctl.run then s.report r x.pwr.iAvg 2 else s

/-- A tile whose rail has gone off: its core keeps nothing, and it must be scrubbed when its region returns (R319). -/
def Tile.lost (x : Tile) : Tile :=
  if x.st == .idle then { x with prog := [], sregs := [], vregs := [], sp := [], spEcc := [], progEcc := [] }
  else
    { ({} : Tile) with
      st := .scrub, owned := x.owned, dumped := true, test := x.test, psSel := x.psSel, endSt := x.endSt, endBeat := x.endBeat,
      spr := { corr := x.spr.corr, uncorr := x.spr.uncorr, lineSel := x.spr.lineSel, enabled := x.spr.enabled } }

/-- The tile rail of a region goes off (R319). -/
def State.railsOff (s : State) (r : Nat) : State :=
  let s := (s.modPwr r fun p => { p with railOff := true, railUp := false, ramping := false, rampWait := false }).abandonTests r
  forAll (keysIn s.tiles r) s fun t s => s.modTile t Tile.lost

/-- The plane of a region has no feed: its routers and its oscillator stop (R156, R194), and ROUTER_OK is lost until it is
LOCKED again (R422). -/
def State.planeOff (s : State) (r : Nat) : State :=
  let s := s.modRegion r fun x => { x with
    clk := { x.clk with on := false }, pwr := { x.pwr with feedOwn := false, feedNb := false } }
  s.modUnits fun u => { u with planeLost := if u.planeLost.contains r then u.planeLost else u.planeLost ++ [r] }

/-- A plane stops once both its feeds are gone, and acquires when one is back (R194). -/
def State.feedCheck (s : State) (r : Nat) : State :=
  let x := s.region r
  if x.pwr.feedOwn || x.pwr.feedNb then
    if x.clk.on then s else s.modClk r fun k => { k with on := true, st := .acquire }
  else s.planeOff r

/-- A block's output is gone: its own plane feed and its partner's second feed (R314, R315). -/
def State.feedLost (s : State) (r : Nat) : State :=
  let s := (s.modPwr r fun p => { p with feedOwn := false }).modPwr (partner r) fun p => { p with feedNb := false }
  let off := fun (s : State) (q : Nat) => let p := (s.region q).pwr; if p.feedOwn || p.feedNb then s else s.planeOff q
  off (off s r) (partner r)

/-- A region is ISOLATED (R315, R316): a run of its partition is held at the earliest beat. -/
def State.isolate (s : State) (r : Nat) (final : Bool) : State :=
  let x := s.region r
  let s := s.modPwr r fun p => { p with
    st := .isolated, cause := .none, wantDark := none, darkTime := s.now, tripTime := s.now,
    noReturn := p.noReturn || final }
  let s := (s.feedLost r).railsOff r
  if x.ctl.run then s.report r x.pwr.iAvg 1 else s

/-- TRIP (R315): a second trip within 1 s of re-enabling lasts until the next boot. -/
def execTrip (r : Nat) (s : State) : Host.Outcome State Fault Refusal :=
  onUnit (r < 40) s fun s =>
    let p := (s.region r).pwr
    due (p.st ≠ .isolated || p.reEnabled) s fun s =>
      let again := p.reEnabled && decide (s.now ≤ p.reTime + 1000000)
      ((s.pwrError r 1 5).isolate r again).modPwr r fun p => { p with reEnabled := false }

/-- BLOCK_REENABLE (R315): 1 s after a trip, with the half-rate ramp. -/
def execBlockReenable (r : Nat) (s : State) : Host.Outcome State Fault Refusal :=
  onUnit (r < 40) s fun s =>
    let p := (s.region r).pwr
    due (p.st == .isolated && !p.noReturn && !p.reEnabled && decide (p.tripTime + 1000000 ≤ s.now)) s fun s =>
      let s := s.modPwr r fun p => { p with reEnabled := true, reTime := s.now, feedOwn := true, halfRate := true }
      (((s.modPwr (partner r) fun p => { p with feedNb := true }).feedCheck r).feedCheck (partner r)).requestRamp r

/-- PHASE_FAIL (R313). -/
def execPhaseFail (r ph : Nat) (s : State) : Host.Outcome State Fault Refusal :=
  onUnit (r < 40 && ph < 64) s fun s =>
    let p := (s.region r).pwr
    due (!p.phFailed.getLsbD ph) s fun s =>
      let s := s.modPwr r fun p =>
        let p := { p with phFailed := setBit p.phFailed ph }
        let n := p.phCount
        { p with
          topMhz := if n ≤ 16 then 1300 else if n ≤ 24 then 25 * (64 - n) else p.topMhz,
          st := if p.st == .dark || p.st == .isolated then p.st else p.service }
      let s := ((s.log 7 2 (phaseIndex r ph)).pwrError r 0 2).cper
        { source := 7, unitKind := 7, finding := 2, unit := phaseIndex r ph, published := true }
      if 25 ≤ (s.region r).pwr.phCount then s.requestDark r .phases else s

/-- The baseline drop at a current, between the characterised bins as (A, 0.1 mV), ascending; outside them the nearest
(R316; log entry 128). -/
def baseAt (a : Nat) : List (Nat × Nat) → Nat
  | [] => 0
  | [b] => b.2
  | b :: c :: l =>
    if a ≤ b.1 then b.2
    else if a ≤ c.1 then ((b.2 : Int) + ((c.2 : Int) - b.2) * (a - b.1 : Nat) / (c.1 - b.1 : Nat)).toNat
    else baseAt a (c :: l)

/-- DROP_MEASUREMENT (R316): the drop in 0.1 mV at the current given; only at a steady one of 100 A or more is it measured. -/
def execDropMeasurement (r drop : Nat) (load : PhaseCurrent) (s : State) : Host.Outcome State Fault Refusal :=
  onUnit (r < 40) s fun s =>
    let base := baseAt load.amps (s.mgt.dropBins.look [] r)
    due (0 < base && 100 ≤ load.amps && 20 * (load.high - load.low) < load.amps) s fun s =>
      let s := s.modPwr r fun p => { p with
        drop := min drop 4095, base := min base 4095, ratio := min (256 * drop / base) 4095,
        streak := if 3 * base < 2 * drop then min (p.streak + 1) 15 else 0,
        streak25 := if 5 * base < 2 * drop then min (p.streak25 + 1) 15 else 0 }
      let p := (s.region r).pwr
      let s := if 3 ≤ p.streak && !p.crack then
          ((s.modPwr r fun p => { p with crack := true, limitA := 220 }).pwrError r 2 6).cper
            { source := 7, unitKind := 7, unit := r, published := true }
        else s
      if 3 ≤ p.streak25 && p.st ≠ .isolated then (s.pwrError r 1 5).isolate r true else s

/-- How long a region may stay off before its run is killed, in ticks (R319). -/
def killAfter (p : HenPwr) : Option Nat :=
  match p.st with
  | .isolated => some 1000
  | .dark =>
    match p.cause with
    | .phases => some 1000
    | .heat => some 10000000
    | .off => some 0
    | _ => if p.railOff then some 0 else none
  | _ => none

/-- DARK_RUN_KILL (R319). -/
def execDarkRunKill (r : Nat) (s : State) : Host.Outcome State Fault Refusal :=
  onUnit (r < 40) s fun s =>
    let x := s.region r
    match killAfter x.pwr with
    | some n =>
      due (x.ctl.assigned && s.running x.ctl.part && decide (x.pwr.darkTime + n ≤ s.now)) s fun s => s.announceStop x.ctl.part 2
    | none => s

/-! ## Heat of a region (R329) -/

/-- DERATE (R329): at 90 °C or more the ceiling is derated; below, it is full again. -/
def execDerate (r temp : Nat) (s : State) : Host.Outcome State Fault Refusal :=
  onUnit (r < 40) s fun s =>
    if temp < 90 then s.modPwr r fun p => { p with derate := none }
    else (s.modPwr r fun p => { p with derate := some temp }).pwrError r 3 8

/-- HEAT_OFF (R329). -/
def execHeatOff (r : Nat) (s : State) : Host.Outcome State Fault Refusal :=
  onUnit (r < 40) s fun s => (s.pwrError r 4 9).requestDark r .heat

/-- HEAT_RETURN (R329): also from a thermal trip whose rail did not go off (log entry 31). -/
def execHeatReturn (r : Nat) (s : State) : Host.Outcome State Fault Refusal :=
  onUnit (r < 40) s fun s =>
    let p := (s.region r).pwr
    due ((p.heatOff || p.tripOff) && !p.railOff) s fun s =>
      (s.modPwr r fun p => { p with heatOff := false, tripOff := false }).reasonGone r

/-- THERM_TRIP (R329). -/
def execThermTrip (r : Nat) (s : State) : Host.Outcome State Fault Refusal :=
  onUnit (r < 40) s fun s => (s.pwrError r 5 0x0A).requestDark r .trip

/-- THERM_TRIP_RAIL_OFF (R329): 10 ms later a sensor is still at 110 °C. -/
def execThermTripRailOff (r : Nat) (s : State) : Host.Outcome State Fault Refusal :=
  onUnit (r < 40) s fun s =>
    let p := (s.region r).pwr
    due (p.st == .dark && p.tripOff && !p.railOff) s fun s => s.railsOff r

/-! ## Telemetry (R131, R132, R333) -/

/-- A part of a whole in 1/65,535. -/
def share16 (n total : Nat) : Nat := if total = 0 then 0 else 65535 * n / total

/-- The 128-byte frame (R333): a region has 500 tiles of four arrays of 512 cells (R59). -/
def frameBytes (x : Region) (seq now vSet : Nat) (m : TlmMeas) : List Byte :=
  let q := x.tlm
  let mhz := x.clk.rate.floor.toNat
  leBytes 8 seq ++ leBytes 8 now ++ leBytes 2 m.iAvg ++ leBytes 2 m.iPeak ++ leBytes 2 vSet ++ leBytes 2 m.vMin ++
    leBytes 2 m.pBlock ++ leBytes 2 x.pwr.budget ++ leBytes 1 m.tMax.toNat ++ leBytes 1 m.tAvg.toNat ++
    leBytes 1 x.pwr.phase ++
    leBytes 1 (b2n (q.droop || x.clk.tripped || x.clk.rising) + 2 * b2n (q.held || x.ctl.held) + 4 * b2n x.pwr.ramping +
      8 * b2n (x.pwr.st == .dark)) ++
    leBytes 2 (share16 q.cells (q.beats * 1024000)) ++ leBytes 2 (share16 q.vecs (q.beats * 500)) ++
    leBytes 2 (sat16 q.droops) ++ leBytes 2 (sat16 (q.heldFs / 10 ^ 8)) ++
    leBytes 2 (match q.minMhz with
      | some n => min n mhz
      | none => mhz) ++
    leBytes 2 x.pwr.topMhz ++ leBytes 1 (64 - x.pwr.phCount) ++ leBytes 75 0 ++ leBytes 8 seq

/-- The frame pair after a swap: the frame goes to the bank that was filled, and the counts begin again. -/
def Telemetry.swap (q : Telemetry) (f : BitVec 1024) (seq : BitVec 32) (k : HenClk) (held : Bool) : Telemetry where
  fill := !q.fill
  bank0 := if q.fill then q.bank0 else f
  bank1 := if q.fill then f else q.bank1
  seq := seq
  held := held
  droop := k.tripped || k.rising
  minMhz := some k.rate.floor.toNat

/-- TELEMETRY_SWAP (R333): the frame is completed in the fill bank, which becomes the drain bank; the measures of the
interval appear in PWR_MEAS and PWR_THERM and go to the controller in a REPORT (R322; log entry 32). -/
def execTelemetrySwap (r : Nat) (m : TlmMeas) (s : State) : Host.Outcome State Fault Refusal :=
  onUnit (r < 40) s fun s =>
    due (s.region r).planeOn s fun s =>
      let v := (s.vRail r s.mgt.fMhz).floor.toNat
      let hotter := fun (a b : BitVec 8) => if a.toInt < b.toInt then b else a
      let s := s.modRegion r fun x =>
        let q := x.tlm.seq + 1
        { x with
          tlm := x.tlm.swap (BitVec.ofNat 1024 (leNat (frameBytes x q.toNat s.now v m))) q x.clk x.ctl.held
          pwr := { x.pwr with
            iAvg := min m.iAvg 16383, iPeak := min m.iPeak 16383, vSet := v, vMin := min m.vMin 1023, tMax := m.tMax,
            tHigh := hotter x.pwr.tHigh m.tMax, hot := m.hot % 16 } }
      s.report r m.iAvg 0

end Sys2Proof.Machine
end

