-- ==== Sys2Proof/Machine/Link.lean ====
section
/-!
DEFINITION. Irant packets, the link layer, ports and lanes, the mule and the time frames (R226 to R234, R244 to R258).
-/
namespace Sys2Proof.Machine

/-! ## Header fields (R233) -/

def hCls (h : Line) : Nat := bits h 7 0
def hOp (h : Line) : Nat := bits h 15 8
def hData (h : Line) : Nat := bits h 23 16
def hHops (h : Line) : Nat := bits h 31 24
def hSrc (h : Line) : Nat := bits h 44 32
def hDst (h : Line) : Nat := bits h 60 48
def hPart (h : Line) : Nat := bits h 67 64
def hStatus (h : Line) : Nat := bits h 79 72
def hTag (h : Line) : Nat := bits h 95 80
def hSeq (h : Line) : Nat := bits h 111 96
def hArg (h : Line) : Nat := bits h 119 112
def hAddr (h : Line) : Nat := bits h 191 128
def hOp0 (h : Line) : Nat := bits h 255 192
def hOp1 (h : Line) : Nat := bits h 319 256
def hExt (h : Line) : Nat := bits h 383 320

/-- A header from its fields; HOPS, STATUS, LSEQ and CRC are zero. -/
def header (cls op data src dst part tag arg addr op0 op1 : Nat) : Line :=
  pack [(0, cls), (8, op), (16, data), (32, src), (48, dst), (64, part), (80, tag), (112, arg), (128, addr % 2 ^ 64),
    (192, op0 % 2 ^ 64), (256, op1 % 2 ^ 64)]

/-- The CRC of a packet (R230). -/
def packetCrc : List Line → BitVec 32
  | [] => 0
  | h :: ds => crc32c ((lineBytes h).take 60 ++ ds.flatMap lineBytes)

/-- A packet with its CRC computed afresh. -/
def sealed : List Line → List Line
  | [] => []
  | h :: ds => setField h 480 32 (packetCrc (h :: ds)).toNat :: ds

/-- Whether a packet's CRC agrees (R230). -/
def crcGood (p : List Line) : Bool :=
  match p with
  | [] => false
  | h :: _ => bits h 511 480 = (packetCrc p).toNat

/-- The header of a packet. -/
def headOf (p : List Line) : Line := p.headD 0

/-! ## Ports -/

/-- The I/O die of a module port number (R226). -/
def dieOf (p : Nat) : Nat := p / 12

/-- The module's own device id (R220). -/
def Mgt.ownId (m : Mgt) : Nat := if m.devValid then m.devId.toNat else 0

/-- Whether a packet is addressed to this module (R246). -/
def State.isOwn (s : State) (h : Line) : Bool := s.mgt.devValid && hDst h = s.mgt.ownId

/-- A LINK packet leaves at once: neither sequenced nor held back (R230, R248). It carries the own id and the peer's, 0
before ADMIT (DESIGN CHOICE, log entry 135: R233 does not say what a LINK packet's device fields hold). -/
def State.sendLink (s : State) (p op a b c d : Nat) : State :=
  let h : Line := header 4 op 0 s.mgt.ownId (s.port p).peerDev 0 0 0 a b c ||| (BitVec.ofNat 512 (d % 2 ^ 64) <<< 320)
  s.modPort p fun x => { x with out := x.out ++ [sealed [h]] }

def Credits.get (c : Credits) : Nat → Nat
  | 0 => c.reqL | 1 => c.reqT | 2 => c.rsp | _ => c.col

/-- A pool's total raised, modulo 2^32. -/
def Credits.add (c : Credits) (pool n : Nat) : Credits :=
  match pool with
  | 0 => { c with reqL := (c.reqL + n) % 2 ^ 32 }
  | 1 => { c with reqT := (c.reqT + n) % 2 ^ 32 }
  | 2 => { c with rsp := (c.rsp + n) % 2 ^ 32 }
  | _ => { c with col := (c.col + n) % 2 ^ 32 }

/-- Entries of a pool (R232). -/
def poolSize (pool : Nat) : Nat := if pool = 0 then 512 else 2048

/-- The pool a packet takes at a device (R232). -/
def poolOf (h : Line) (dev : Nat) : Nat :=
  match hCls h with
  | 1 => if hDst h = dev then 0 else 1
  | 2 => 2
  | _ => 3

/-- A CREDIT packet with the totals (R232). -/
def State.sendCredit (s : State) (p : Nat) : State :=
  let c := (s.port p).freed
  (s.sendLink p 2 (c.reqL + c.reqT * 2 ^ 32) (c.rsp + c.col * 2 ^ 32) 0 0).modPort p fun x => { x with freedSent := x.freed }

/-- Entries freed since the last CREDIT packet. -/
def Port.unsent (x : Port) : Nat :=
  ([0, 1, 2, 3].map fun i => (x.freed.get i + 2 ^ 32 - x.freedSent.get i) % 2 ^ 32).sum

/-- Entries of a receive pool freed; 64 of them make a CREDIT packet due (R232). -/
def State.freeCredit (s : State) (p pool n : Nat) : State :=
  let s := s.modPort p fun x => { x with freed := x.freed.add pool n }
  let x := s.port p
  if 64 ≤ x.unsent && x.st == .up then s.sendCredit p else s

/-- The credit a sender holds in a pool. -/
def Port.credit (x : Port) (pool : Nat) : Nat :=
  poolSize pool - (x.used.get pool + 2 ^ 32 - x.peerFreed.get pool) % 2 ^ 32

/-- Flits in the replay buffer (R231). -/
def Port.replayFlits (x : Port) : Nat := (x.replay.map List.length).sum

/-- Whether a port may send a sequenced packet now (R231, R252, R255). -/
def Port.canSend (x : Port) : Bool := x.st == .up && !x.draining && x.replayFlits < 16384

/-- The first packet of each input in a class queue that the credit and the replay buffer allow (R231, R232, R248). -/
def Port.ready (x : Port) (cls : Nat) : List (Nat × List Line) :=
  (List.range 52).filterMap fun i =>
    match x.txq.find? fun q => q.1 = i && hCls (headOf q.2) = cls with
    | some q =>
      if q.2.length ≤ x.credit (poolOf (headOf q.2) x.peerDev) && x.replayFlits + q.2.length ≤ 16384 then some q else none
    | none => none

/-- The packet an output serves next: RSP, COL, REQ, and round-robin by input within the class (R248). -/
def Port.nextPacket (x : Port) : Option (Nat × List Line) :=
  let pick := fun (cls : Nat) =>
    let l := x.ready cls
    let last := x.rr.look 51 cls
    match l.find? fun q => last < q.1 with
    | some q => some q
    | none => l.head?
  match pick 2 with
  | some q => some q
  | none => match pick 3 with
    | some q => some q
    | none => pick 1

/-- Packets leave while the port may send: each takes the next LSEQ, its credit, a CRC, and a place in the replay
buffer; the transit input's buffer is freed (R230 to R232). -/
def State.pump (s : State) (p : Nat) : Nat → State
  | 0 => s
  | n + 1 =>
    let x := s.port p
    if !x.canSend then s
    else match x.nextPacket with
      | none => s
      | some q =>
        let h := headOf q.2
        let k := sealed (setField h 96 16 x.txLseq :: q.2.drop 1)
        let s := s.setPort p { x with
          txq := x.txq.erase q, rr := x.rr.put 51 (hCls h) q.1, txLseq := (x.txLseq + 1) % 65536,
          used := x.used.add (poolOf h x.peerDev) q.2.length, replay := x.replay ++ [k], out := x.out ++ [k] }
        let s := if q.1 < 48 then s.freeCredit q.1 (poolOf h s.mgt.ownId) q.2.length else s
        State.pump s p n

/-- A packet queued at an output from an input: a port, or 48 + d for die d itself. -/
def State.queueAt (s : State) (p input : Nat) (pkt : List Line) : State :=
  let s := s.modPort p fun x => { x with txq := x.txq ++ [(input, pkt)] }
  s.pump p (s.port p).txq.length

/-! ## The perimeter ring (R29, R30) -/

/-- The stops in clockwise order: 0 to 15 HBM sites, 100 + d I/O dies. Segment k joins stops k and k + 1. -/
def ringStops : List Nat := [100, 101, 0, 1, 2, 3, 8, 9, 10, 11, 102, 103, 15, 14, 13, 12, 7, 6, 5, 4]

/-- The place of a stop on the ring. -/
def stopOf (e : EdgeId) : Nat :=
  let n := match e with
    | .hbm x => x
    | .iod d => 100 + d
  (ringStops.takeWhile fun k => k ≠ n).length

/-- Whether the ring joins two stops: no failed segment on one of the two ways round. -/
def State.ringJoins (s : State) (a b : EdgeId) : Bool :=
  let lo := min (stopOf a) (stopOf b)
  let hi := max (stopOf a) (stopOf b)
  !(s.units.segments.any fun k => lo ≤ k && k < hi) || !(s.units.segments.any fun k => k < lo || hi ≤ k)

/-! ## Routes (R246, R247, R250) -/

/-- The route entry of a device at a die: PRIMARY and ALT. -/
def Iod.entry (x : Iod) (dev : Nat) : Nat × Nat :=
  let e := x.route.look 0xFFF#12 dev
  (bits e 5 0, bits e 11 6)

/-- Whether a die can use a port. -/
def State.usable (s : State) (d q : Nat) : Bool :=
  q < 48 && (s.port q).st == .up && !(s.port q).draining && (dieOf q = d || s.ringJoins (.iod d) (.iod (dieOf q)))

/-- The port a die sends to a device by (R247); none before DEV_ID is valid (R250). -/
def State.routeTo (s : State) (d dev : Nat) : Option Nat :=
  if !s.mgt.devValid then none
  else
    let e := (s.iod d).entry dev
    if s.usable d e.1 then some e.1 else if s.usable d e.2 then some e.2 else none

/-- The response to a request (R235): what it repeats, with a status, an operand and data. -/
def response (req : Line) (status op0 : Nat) (data : List Line) : List Line :=
  (header 2 (hOp req) data.length (hSrc req) (hSrc req) (hPart req) (hTag req) 0 0 op0 0 |||
    (BitVec.ofNat 512 status <<< 72)) :: data

/-- A response of this module, routed by the die's table; without a route it is discarded (R247). -/
def State.sendRsp (s : State) (d : Nat) (pkt : List Line) : State :=
  match s.routeTo d (hDst (headOf pkt)) with
  | some q => s.queueAt q (48 + d) pkt
  | none => s.modIod d fun x => { x with dropped := sat16 (x.dropped + 1) }

/-- A packet that no port can take (R247). -/
def State.noRoute (s : State) (d input : Nat) (pkt : List Line) : State :=
  let h := headOf pkt
  let s := if input < 48 then s.freeCredit input (poolOf h s.mgt.ownId) pkt.length else s
  if hCls h = 1 then
    (s.modIod d fun x => { x with noRoute := sat16 (x.noRoute + 1) }).sendRsp d (response h 18 0 [])
  else s.modIod d fun x => { x with dropped := sat16 (x.dropped + 1) }

/-- A packet sent on by a die. -/
def State.sendOn (s : State) (d input : Nat) (pkt : List Line) : State :=
  match s.routeTo d (hDst (headOf pkt)) with
  | some q => s.queueAt q input pkt
  | none => s.noRoute d input pkt

/-- A port becomes UP: the link layer starts afresh (R230, R232; log entry 33). -/
def State.becomeUp (s : State) (p : Nat) : State :=
  s.modPort p fun x => { x with
    st := .up, txLseq := 0, rxLseq := 0, acked := 0, nakked := false, replay := [], freed := {}, freedSent := {},
    peerFreed := {}, used := {}, tail := [], full := false, departed := false, failedQual := false, rr := [],
    mapAt := none, mapOwn := false }

/-- ADMIT is sent once a port is READY and the module has its id (R220, R250, R255). -/
def State.tryAdmit (s : State) (p : Nat) : State :=
  let x := s.port p
  if x.st == .ready && s.mgt.devValid && !s.mgt.devRewriting && !x.sentAdmit && (s.iod (dieOf p)).st ≠ .dark then
    let s := s.sendLink p 6 (s.mgt.ownId + p * 2 ^ 16 + (s.iod (dieOf p)).capLevel * 2 ^ 24) 0 0 0
    let s := s.modPort p fun x => { x with sentAdmit := true }
    if (s.port p).gotAdmit then s.becomeUp p else s
  else s

/-- Every port that can be admitted. -/
def State.admitAll (s : State) : State := forAll (List.range 48) s fun p s => s.tryAdmit p

/-! ## Device time (R196, R258) -/

/-- Device time in a region as a timestamp: the low 44 bits of the tick number, and the place within the tick by the formula
of R196, (count − E) / F of a tick, held within the tick (log entry 38). -/
def State.stampIn (s : State) (r : Nat) : Dword :=
  let k := (s.region r).clk
  let ps := if k.on then min ((k.count - k.expect) * 1000000 / s.mgt.fMhz) 999999 else 0
  BitVec.ofNat 64 (s.now % 2 ^ 44 * 2 ^ 20 + ps)

/-- Device time at an edge: by the count of the first region that faces it and is clocked (DEDUCED, log entry 38). -/
def State.stampAt (s : State) (e : EdgeId) : Dword :=
  s.stampIn (((edgeRegions e).find? fun r => (s.region r).clk.on).getD ((edgeRegions e).headD 0))

/-! ## Codewords on the lanes (R227) -/

/-- A codeword's message: the lane header, the physical lane in [3:0] and the frame number in [19:4], then ten flits. -/
def codewordMessage (lane frame : Nat) (flits : List Line) : BitVec 5140 :=
  (List.range 10).foldl (fun m i => m ||| ((flits.getD i 0).setWidth 5140 <<< (20 + 512 * i)))
    (BitVec.ofNat 5140 (lane % 16 + frame % 65536 * 16))

/-- What a message carries: the lane, the frame and the flits. -/
def messageLane (m : BitVec 5140) : Nat := bits m 3 0
def messageFrame (m : BitVec 5140) : Nat := bits m 19 4
def messageFlits (m : BitVec 5140) : List Line := (List.range 10).map fun i => m.extractLsb' (20 + 512 * i) 512

/-- The flits of lane `i` of `w` in a frame's flits: flit f goes to the (f mod w)-th lane in service. -/
def laneFlits (w i : Nat) (fs : List Line) : List Line := (List.range 10).map fun k => fs.getD (k * w + i) 0

/-- The codewords that carry frame `n` on a port's lanes when its stream of sent packets begins at frame 0: their flits in
consecutive positions, and zero flits after them (R227, R229). -/
def Port.frameOut (x : Port) (n : Nat) : List (BitVec 5140) :=
  let w := x.inService.length
  let fs := x.out.flatten.drop (10 * w * n)
  (List.range w).map fun i => codewordMessage (x.inService.getD i 0) n (laneFlits w i fs)

/-! ## Receiving (R227 to R230) -/

/-- A NAK naming the next LSEQ expected: one for each failure, whether or not an earlier one stands (R230). -/
def State.sendNak (s : State) (p : Nat) : State :=
  let x := s.port p
  if x.st ≠ .up then s
  else (s.sendLink p 1 x.rxLseq 0 0 0).modPort p fun x => { x with nakked := true }

/-- The reserved fields that every request keeps zero (R233, R239). -/
def headFixed (h : Line) : Bool :=
  bits h 47 45 = 0 && bits h 63 61 = 0 && bits h 71 68 = 0 && bits h 79 72 = 0 && bits h 127 120 = 0 && bits h 479 320 = 0

/-- The answer to a request with a reserved operation, in the order of R240: MALFORMED, BAD_ADDRESS, UNSUPPORTED. -/
def reservedOp (h : Line) : Nat := if !headFixed h then 23 else if hAddr h / 2 ^ 53 ≠ 0 then 19 else 20

/-- An accepted packet: a request for this module joins the port's fabric request queue with its time of arrival, another
waits to be handled (R246). -/
def State.acceptPacket (s : State) (p : Nat) (pkt : List Line) : State :=
  let h := headOf pkt
  if hCls h = 1 && s.isOwn h then
    if 8 ≤ hOp h then
      ((s.freeCredit p 0 pkt.length).modIod (dieOf p) fun x => { x with malformed := sat16 (x.malformed + 1) }).sendRsp
        (dieOf p) (response h (reservedOp h) 0 [])
    else (s.modIod (dieOf p) fun x => { x with
      fq := x.fq.put { n := 9 } (p % 12) ((x.fq.look { n := 9 } (p % 12)).push pkt) }).modPort p fun x => { x with
        reqs := x.reqs ++ [(hSrc h, hTag h, (s.stampAt (.iod (dieOf p))).toNat)] }
  else if hCls h = 3 && s.isOwn h && 4 ≤ hOp h then s.freeCredit p 3 pkt.length
  else s.modPort p fun x => { x with rx := x.rx ++ [(s.stampAt (.iod (dieOf p)), pkt)] }

/-- A whole packet: its CRC, its class and its place in the sequence (R230, R258). -/
def State.takePacket (s : State) (p : Nat) (pkt : List Line) : State :=
  let h := headOf pkt
  let bad := fun (s : State) => s.modPort p fun x => { x with crcErr := sat16 (x.crcErr + 1) }
  if !crcGood pkt then (bad s).sendNak p
  else if hCls h = 4 then
    if 8 ≤ hOp h then bad s else s.modPort p fun x => { x with rx := x.rx ++ [(s.stampAt (.iod (dieOf p)), pkt)] }
  else if 4 < hCls h then s
  else
    let x := s.port p
    let ahead := (hSeq h + 65536 - x.rxLseq) % 65536
    if x.st ≠ .up then s
    else if ahead = 0 then
      (s.modPort p fun x => { x with rxLseq := (x.rxLseq + 1) % 65536, nakked := false }).acceptPacket p pkt
    else if 32768 ≤ ahead || x.nakked then s
    else s.sendNak p

/-- One flit position of the stream: none was discarded with its codeword (R228, R229). A header with DATA above 4 spells
no packet: it is counted in CRC_ERR and a NAK is sent, its CRC untested (DESIGN CHOICE, log entry 136: the spec does not say). -/
def State.takeFlit (s : State) (p : Nat) (f : Option Line) : State :=
  match f with
  | none => s.modPort p fun x => { x with tail := [] }
  | some l =>
    match (s.port p).tail with
    | [] =>
      if hCls l = 0 then s
      else if 4 < hData l then
        (s.modPort p fun x => { x with crcErr := sat16 (x.crcErr + 1) }).sendNak p
      else if hData l = 0 then s.takePacket p [l]
      else s.modPort p fun x => { x with tail := [l] }
    | h :: t =>
      if t.length + 2 = hData h + 1 then (s.modPort p fun x => { x with tail := [] }).takePacket p (h :: t ++ [l])
      else s.modPort p fun x => { x with tail := h :: t ++ [l] }

/-- The flits of a frame in order, once every lane in service has its codeword (R227); none is a discarded flit. -/
def Port.frameFlits (x : Port) (n : Nat) : Option (List (Option Line)) :=
  let ls := x.inService.map fun l => x.frames.find? fun f => f.1 = n && f.2.1 = l
  if ls.isEmpty || ls.any Option.isNone then none
  else
    let w := ls.length
    some ((List.range (10 * w)).map fun i =>
      match ls.getD (i % w) none with
      | some f => (f.2.2.drop (i / w)).head?
      | none => none)

/-- Whether a port listens: its receivers work and it trains no more. -/
def Port.listens (x : Port) : Bool := x.st == .up || x.st == .ready || x.st == .qualifying || (x.st == .retraining && x.draining)

/-- A decoded codeword's errors in a lane's measures: symbols corrected, and bit errors of the last 1 s (R228, R256, R259). -/
def Lane.decoded (l : Lane) (now errs bitErrs : Nat) : Lane :=
  let kept := l.errs.filter fun e => now < e.1 + 1000000
  { l with
    symCorr := (l.symCorr + errs) % 2 ^ 32, badRun := 0, errs := if bitErrs = 0 then kept else kept ++ [(now, bitErrs)] }

/-- Bit errors of a lane in the last 1 s (R256). -/
def Lane.bitErrors (l : Lane) (now : Nat) : Nat := ((l.errs.filter fun e => now < e.1 + 1000000).map (·.2)).sum

/-- Bits of one lane in 1 s: a codeword of 544 ten-bit symbols in 12.8 ns (R227). -/
def laneBits : Nat := 425000000000

/-- BER_EXP (R259): the whole part of −log10 of the error rate of the last 1 s; 255 with no errors. -/
def Lane.berExp (l : Lane) (now : Nat) : Nat :=
  let n := l.bitErrors now
  if n = 0 then 255 else ((List.range 12).filter fun k => n * 10 ^ k ≤ laneBits).foldl max 0

/-- Whether a lane is to be retired (R256): above 1e-5 over the last 1 s, or 16 uncorrectable codewords in a row. -/
def Lane.failing (l : Lane) (now : Nat) : Bool := laneBits < l.bitErrors now * 100000 || 16 ≤ l.badRun

/-- The frame at which both ends change lanes, when the change was named here: LANE_MAP goes out again in each frame until
the change, no acknowledgement being defined (R256; log entry 138). -/
def State.repeatMap (s : State) (p : Nat) : State :=
  match (s.port p).mapAt with
  | some (f, m) => if (s.port p).mapOwn then s.sendLink p 7 (m.toNat + f * 2 ^ 16) 0 0 0 else s
  | none => s

/-- CODEWORD_RECEIVED (R227, R228, R256): up to 15 symbol errors are corrected; a codeword with more is discarded, which one
NAK reports when its frame is taken in; a frame is taken in when it is whole. -/
def execCodewordReceived (port lane frame : Nat) (errs : CodeErrors) (flits : List Line) (s : State) :
    Host.Outcome State Fault Refusal :=
  onUnit (port < 48 && lane < 9) s fun s =>
    let x := s.port port
    due (x.listens && x.inService.contains lane && frame < 65536) s fun s =>
      let good : Bool := errs.symbols ≤ 15
      let s := s.modPort port fun x => { x with
        cwUncorr := if good then x.cwUncorr else sat16 (x.cwUncorr + 1),
        lanes :=
          let l := x.lanes.look {} lane
          x.lanes.put {} lane (if good then l.decoded s.now errs.symbols errs.bits else { l with badRun := l.badRun + 1 }),
        frames := (x.frames.filter fun f => !(f.1 = frame && f.2.1 = lane)) ++
          [(frame, lane, if good then flits.take 10 else [])] }
      match (s.port port).frameFlits frame with
      | none => s
      | some fs =>
        let s := s.modPort port fun x => { x with
          frame := (frame + 1) % 65536, frames := x.frames.filter fun f => f.1 ≠ frame }
        let first := fun (s : State) (f : Option Line) =>
          let s := s.takeFlit port f
          if f.isNone then s.sendNak port else s
        let w := x.inService.length
        (((fs.drop w).foldl (fun s f => s.takeFlit port f) ((fs.take w).foldl first s))).repeatMap port

/-! ## LINK packets (R230 to R232, R253 to R258) -/

/-- The first accepted packet of a port that a test picks, with the time of its arrival, taken out of its waiting packets. -/
def State.takeRx (s : State) (p : Nat) (f : Line → Bool) : Option (Dword × List Line × State) :=
  match (s.port p).rx.find? fun k => f (headOf k.2) with
  | some k => some (k.1, k.2, s.modPort p fun x => { x with rx := x.rx.erase k })
  | none => none

/-- A LINK packet of one op at a port. -/
def linkRow (op port : Nat) (s : State) (f : Line → State → State) : Host.Outcome State Fault Refusal :=
  onUnit (port < 48) s fun s =>
    match s.takeRx port fun h => hCls h = 4 && hOp h = op with
    | some (_, k, s) => f (headOf k) s
    | none => s

/-- Whether an LSEQ is at most another, seen from the oldest unacknowledged. -/
def seqLe (base a b : Nat) : Bool := (a + 65536 - base) % 65536 ≤ (b + 65536 - base) % 65536

/-- ACK (R231): replay-buffer space up to the named LSEQ is freed. -/
def execAck (port : Nat) (s : State) : Host.Outcome State Fault Refusal :=
  linkRow 0 port s fun h s =>
    let n := hAddr h % 65536
    let s := s.modPort port fun x =>
      match x.replay.map fun k => hSeq (headOf k) with
      | [] => x
      | b :: bs => if (b :: bs).contains n then { x with replay := x.replay.filter fun k => !seqLe b (hSeq (headOf k)) n } else x
    s.pump port (s.port port).txq.length

/-- NAK (R230): the replay begins at the named LSEQ. -/
def execNak (port : Nat) (s : State) : Host.Outcome State Fault Refusal :=
  linkRow 1 port s fun h s =>
    let n := hAddr h % 65536
    due ((s.port port).st == .up) s fun s => s.modPort port fun x => { x with
      replays := sat16 (x.replays + 1),
      out := x.out ++ x.replay.dropWhile fun k => hSeq (headOf k) ≠ n }

/-- CREDIT (R232). -/
def execCredit (port : Nat) (s : State) : Host.Outcome State Fault Refusal :=
  linkRow 2 port s fun h s =>
    let s := s.modPort port fun x => { x with
      peerFreed := { reqL := hAddr h % 2 ^ 32, reqT := hAddr h / 2 ^ 32, rsp := hOp0 h % 2 ^ 32, col := hOp0 h / 2 ^ 32 } }
    s.pump port (s.port port).txq.length

/-- ACK_TIMER (R231): packets are received and not acknowledged. -/
def execAckTimer (port : Nat) (s : State) : Host.Outcome State Fault Refusal :=
  onUnit (port < 48) s fun s =>
    let x := s.port port
    due (x.st == .up && x.acked ≠ x.rxLseq) s fun s =>
      (s.sendLink port 0 ((x.rxLseq + 65535) % 65536) 0 0 0).modPort port fun x => { x with acked := x.rxLseq }

/-- CREDIT_TIMER (R232). -/
def execCreditTimer (port : Nat) (s : State) : Host.Outcome State Fault Refusal :=
  onUnit (port < 48) s fun s => due ((s.port port).st == .up) s fun s => s.sendCredit port

/-! ### Time frames (R196, R197, R257, R258) -/

/-- Whether a timestamp's picoseconds are in range (R258). -/
def tsOk (v : Nat) : Bool := v % 2 ^ 20 < 1000000

/-- A timestamp in picoseconds. -/
def tsPs (v : Nat) : Nat := v / 2 ^ 20 * 1000000 + v % 2 ^ 20

/-- The range of timestamps in picoseconds, tick numbers being 44 bits wide. -/
def tsRange : Nat := 2 ^ 44 * 1000000

/-- The difference of two timestamps. -/
def tsDiff (a b : Nat) : Int :=
  let m := tsRange
  let d := (tsPs a + m - tsPs b) % m
  if 2 * d < m then (d : Int) else (d : Int) - m

/-- A port's claim to be the parent (R257): GM_DEV, HOPS, peer, port. -/
def Port.claim (x : Port) (p : Nat) : Nat := ((x.gmDev * 16 + x.gmHops) * 8192 + x.peerDev) * 64 + p

/-- The parent port (R257). -/
def State.parentPort (s : State) : Option Nat :=
  let ok := (List.range 48).filter fun p => let x := s.port p; x.st == .up && x.gmValid && x.gmHops < 15
  ok.foldl (fun b p => match b with
    | some q => if (s.port p).claim p < (s.port q).claim q then some p else some q
    | none => some p) none

/-- GM_SELF of the module. -/
def State.gmSelf (s : State) : Bool := (s.iod 0).gmSelf

/-- The parent chosen again, and what the module advertises (R257). -/
def State.chooseParent (s : State) : State :=
  if s.gmSelf then s.modMgt fun m => { m with parent := 63, hops := 0, gmDev := m.ownId, gmValid := true }
  else match s.parentPort with
    | some p => let x := s.port p; s.modMgt fun m => { m with parent := p, hops := x.gmHops + 1, gmDev := x.gmDev, gmValid := true }
    | none => s.modMgt fun m => { m with parent := 63, hops := 15, gmDev := 0, gmValid := false }

/-- The time-source fields of a frame (R258). -/
def Mgt.gmField (m : Mgt) : Nat := m.gmDev + b2n m.gmValid * 2 ^ 16 + m.hops * 2 ^ 20

/-- A frame's time-source fields recorded. -/
def State.noteGm (s : State) (p f : Nat) : State :=
  (s.modPort p fun x => { x with
    gmDev := f % 8192, gmValid := f.testBit 16, gmHops := f / 2 ^ 20 % 16, gmSeen := s.now }).chooseParent

/-- A signed value saturated to 32 bits. -/
def sat32 (v : Int) : BitVec 32 :=
  BitVec.ofInt 32 (max (-2147483648) (min 2147483647 v))

/-- I/O die 0 takes in an offset in picoseconds (R196): whole ticks of 1 µs or more by a step or a freeze, the rest by
slewing. FABRIC_LOCK stands, once frames have come for 100 ms, while the offset is within 25 ns (R197). -/
def Mgt.takeOffset (m : Mgt) (o delay : Int) : Mgt :=
  let since := match m.lockSince with
    | some t => t
    | none => m.nextTick
  let m := { m with
    measOffset := sat32 o, measDelay := BitVec.ofNat 32 (min delay.toNat (2 ^ 32 - 1)), offsetNs := o / 1000,
    frameTime := m.nextTick, lockSince := some since,
    fabricLock := decide (since + 100000 ≤ m.nextTick) && decide (-25000 ≤ o) && decide (o ≤ 25000) }
  if 1000000 ≤ o then { m with step := (o / 1000000).toNat, freeze := 0, slewPs := o % 1000000 }
  else if o ≤ -1000000 then { m with freeze := (-o / 1000000).toNat, step := 0, slewPs := -(-o % 1000000) }
  else { m with freeze := 0, step := 0, slewPs := o }

/-- The same for the module. -/
def State.takeOffset (s : State) (o delay : Int) : State := s.modMgt fun m => m.takeOffset o delay

/-- TIME_SYNC (R258): answered with t1, t2 and t3. -/
def execTimeSync (port : Nat) (t2 t3 : Dword) (s : State) : Host.Outcome State Fault Refusal :=
  linkRow 3 port s fun h s =>
    due ((s.port port).st == .up && tsOk (hAddr h)) s fun s =>
      let s := s.noteGm port (hOp0 h)
      s.sendLink port 4 (hAddr h) t2.toNat t3.toNat s.mgt.gmField

/-- What a TIME_RESP yields (R258): the delay and the offset, in picoseconds. -/
def timeRespDelay (h : Line) (t4 : Dword) : Int := (tsDiff t4.toNat (hAddr h) - tsDiff (hOp1 h) (hOp0 h)) / 2
def timeRespOffset (h : Line) (t4 : Dword) : Int := (tsDiff (hOp0 h) (hAddr h) - tsDiff t4.toNat (hOp1 h)) / 2

/-- TIME_RESP (R258): the parent port's offset is applied to device time. -/
def execTimeResp (port : Nat) (t4 : Dword) (s : State) : Host.Outcome State Fault Refusal :=
  linkRow 4 port s fun h s =>
    due ((s.port port).st == .up && tsOk (hAddr h) && tsOk (hOp0 h) && tsOk (hOp1 h) && tsOk t4.toNat) s fun s =>
      let s := s.noteGm port (hExt h)
      if s.mgt.parent = port then s.takeOffset (timeRespOffset h t4) (timeRespDelay h t4) else s

/-- TIME_SYNC_TIMER (R258). -/
def execTimeSyncTimer (port : Nat) (t1 : Dword) (s : State) : Host.Outcome State Fault Refusal :=
  onUnit (port < 48) s fun s =>
    due ((s.port port).st == .up) s fun s => s.sendLink port 3 t1.toNat s.mgt.gmField 0 0

/-! ### Saved training settings (R299, R300) -/

/-- The bytes of a firmware slot. -/
def Mgt.slotOf (m : Mgt) (b : Bool) : FwSlot := if b then m.slotB else m.slotA
def Mgt.setSlot (m : Mgt) (b : Bool) (x : FwSlot) : Mgt := if b then { m with slotB := x } else { m with slotA := x }

/-- The training format of the running firmware. -/
def Mgt.trainFormat (m : Mgt) : Nat := Config.trainingFormat (m.slotOf m.slot).bytes

/-- The fitted I/O dies. -/
def fittedDies (f : Fuses) : List Nat := ([0, 1, 2, 3] : List Nat).filter fun d => iodFitted f d

/-- The links that stage 7 trains, as (kind, number) of R300: 0 lane groups by the index of R40, 1 ring segments, 2 control
crossings (0 north, 1 south), 3 stacks; an Irant port is of kind 4, by its module port number (log entry 97). -/
def bootLinks (f : Fuses) : List (Nat × Nat) :=
  ((List.range 50).map fun k => (0, k)) ++
    ((List.range f.iods).flatMap fun k => [(0, 50 + 26 * k), (0, 51 + 26 * k)]) ++
    ((List.range 20).map fun k => (1, k)) ++ [(2, 0), (2, 1)] ++
    ((List.range 16).filter fun x => hbmFitted f x).map fun x => (3, x)

/-- The driver of a link's transmitters: 0 and 1 the halves, 2 + d an I/O die, 6 + x a stack's own sensor; a segment is
driven by its first stop, a crossing by the west half (log entry 97). -/
def driverOf (f : Fuses) (l : Nat × Nat) : Nat :=
  let half := fun (west : Bool) => if west then 0 else 1
  match l.1 with
  | 0 =>
    if l.2 < 50 then l.2 % 2
    else
      let d := (fittedDies f).getD ((l.2 - 50) / 26) 0
      if l.2 % 2 = 0 then half (d < 2) else 2 + d
  | 1 => let k := ringStops.getD l.2 0; if 100 ≤ k then 2 + (k - 100) else half (k < 8)
  | 2 => 0
  | 3 => 6 + l.2
  | _ => 2 + dieOf l.2

/-- The band of a temperature in °C (R300). -/
def bandOf (t : Int) : Nat := min ((t - 20) / 10).toNat 7

/-- The band of a link at this boot. -/
def Mgt.bandFor (m : Mgt) (l : Nat × Nat) : Nat := m.bands.look 0 (driverOf m.fuses l)

/-- Whether a saved record has the key of a link with a peer. -/
def Mgt.sameKey (m : Mgt) (l : Nat × Nat) (peer : Dword × Nat) (q : SavedLink) : Bool :=
  q.serial = m.fuses.serial && q.kind = l.1 && q.no = l.2 && q.band = m.bandFor l && q.peerSerial = peer.1 &&
    q.peerPort = peer.2

/-- Whether a link has a valid saved record (R300). -/
def Mgt.savedOk (m : Mgt) (l : Nat × Nat) (peer : Dword × Nat) : Bool :=
  m.saved.any fun q => m.sameKey l peer q && q.ok && q.format = m.trainFormat

/-- The saved record of a link is written or replaced (R299). -/
def Mgt.save (m : Mgt) (l : Nat × Nat) (peer : Dword × Nat) : Mgt :=
  { m with saved := (m.saved.filter fun q => !m.sameKey l peer q) ++ [{
      serial := m.fuses.serial, kind := l.1, no := l.2, band := m.bandFor l, peerSerial := peer.1, peerPort := peer.2,
      format := m.trainFormat, ok := true }] }

/-! ### Departure, admission and lanes (R251 to R256, R301) -/

/-- ADMIT (R255). -/
def execAdmitted (port : Nat) (s : State) : Host.Outcome State Fault Refusal :=
  linkRow 6 port s fun h s =>
    let a := hAddr h
    let s := s.modPort port fun x => { x with
      gotAdmit := true, peerDev := a % 8192, peerPort := a / 2 ^ 16 % 64, peerCap := a / 2 ^ 24 % 256 }
    if (s.port port).st == .ready && (s.port port).sentAdmit then s.becomeUp port else s

/-- A set of lanes as a list, ascending. -/
def lanesOf (m : BitVec 9) : List Nat := (List.range 9).filter fun l => m.getLsbD l
/-- A list of lanes as a set. -/
def laneMask (l : List Nat) : BitVec 9 := l.foldl (fun m k => setBit m k) 0

/-- The lanes a map has dropped: every lane it leaves out below its highest lane (R256; log entry 138). -/
def droppedLanes (m : BitVec 9) : BitVec 9 :=
  laneMask ((List.range 9).filter fun l => !m.getLsbD l && (lanesOf m).any fun k => l < k)

/-- LANE_MAP (R256): the lanes it drops are retired here too; one that arrives after its frame applies at the next and
counts as a replay. -/
def execLaneMap (port : Nat) (s : State) : Host.Outcome State Fault Refusal :=
  linkRow 7 port s fun h s =>
    let m := BitVec.ofNat 9 (hAddr h)
    let f := hAddr h / 2 ^ 16 % 65536
    due ((s.port port).st == .up) s fun s => s.modPort port fun x =>
      let late : Bool := 0 < (x.frame + 65536 - f) % 65536 && (x.frame + 65536 - f) % 65536 < 32768
      { x with
        mapAt := some (if late then x.frame else f, m), mapOwn := false, retired := x.retired ||| droppedLanes m,
        replays := if late then sat16 (x.replays + 1) else x.replays }

/-- LANE_SWITCH (R256): the named frame has come. -/
def execLaneSwitch (port : Nat) (s : State) : Host.Outcome State Fault Refusal :=
  onUnit (port < 48) s fun s =>
    let x := s.port port
    match x.mapAt with
    | some (f, m) =>
      due ((x.frame + 65536 - f) % 65536 < 32768) s fun s => s.modPort port fun x =>
        { x with inService := lanesOf m, mapAt := none, mapOwn := false }
    | none => s

/-- The lanes of a port that are not retired. -/
def Port.good (x : Port) : List Nat := (List.range 9).filter fun l => !x.retired.getLsbD l

/-- The lanes in service after a retirement: the spare takes over, or the four lowest good lanes go on (R256). -/
def Port.lanesLeft (x : Port) : List Nat :=
  let g := x.good
  if 8 ≤ g.length then g.take 8 else g.take 4

/-- REPLAY_DRAIN_END (R255): what is not acknowledged is discarded, and training begins. -/
def execReplayDrainEnd (port : Nat) (s : State) : Host.Outcome State Fault Refusal :=
  onUnit (port < 48) s fun s =>
    due ((s.port port).draining) s fun s => s.modPort port fun x => { x with
      draining := false, replay := [], tail := [], frames := [], nakked := false, mapAt := none, mapOwn := false }

/-- Whether a port has a valid saved record under the peer it knows from before (R300; log entry 147). -/
def State.portSaved (s : State) (p : Nat) : Bool := s.mgt.savedOk (4, p) (s.port p).peerKey

/-- PORT_TRAINING_COMPLETE (R255, R299): a restore-mode port whose eye scan fails trains in full, on its own. -/
def execPortTrainingComplete (trained : PortTraining) (s : State) : Host.Outcome State Fault Refusal :=
  onUnit (trained.port < 48) s fun s =>
    let x := s.port trained.port
    due ((x.st == .training || x.st == .retraining) && !x.draining) s fun s => s.modPort trained.port fun x =>
      if x.full || trained.eyeOk then { x with st := .qualifying } else { x with full := true }

/-- A port's qualification ends with some lanes bad: every lane is judged afresh (R301, R423). With too few lanes a
restore-mode port trains again in full, another stays DOWN; a full-trained port that passes has its record saved (R299). -/
def State.qualified (s : State) (p : Nat) (bad : List Nat) : State :=
  let s := s.modPort p fun x => { x with retired := laneMask bad, mapAt := none, mapOwn := false }
  let x := s.port p
  if x.good.length < 4 then s.modPort p fun x =>
    if x.full then { x with st := .down, failedQual := true, downByDepart := false }
    else { x with st := if s.mgt.ready then .retraining else .training, full := true }
  else
    let s := if x.full then s.modMgt fun m => m.save (4, p) x.peerKey else s
    (s.modPort p fun x => { x with st := .ready, inService := x.lanesLeft, failedQual := false }).tryAdmit p

/-- PORT_QUALIFICATION_COMPLETE (R255, R301). -/
def execPortQualificationComplete (port : Nat) (badLanes : List Nat) (s : State) : Host.Outcome State Fault Refusal :=
  onUnit (port < 48 && badLanes.all fun l => l < 9) s fun s =>
    due ((s.port port).st == .qualifying) s fun s => s.qualified port badLanes

/-- TRANSIT_FORWARD (R246, R247): the next transit packet is looked up, its HOPS incremented, and forwarded. -/
def execTransitForward (port : Nat) (s : State) : Host.Outcome State Fault Refusal :=
  onUnit (port < 48) s fun s =>
    due (s.mgt.devValid && (s.iod (dieOf port)).st ≠ .dark) s fun s =>
      match s.takeRx port fun h => 1 ≤ hCls h && hCls h ≤ 3 && !s.isOwn h with
      | none => s
      | some (_, k, s) =>
        let d := dieOf port
        let h := headOf k
        let hops := hHops h + 1
        let k' := setField h 24 8 hops :: k.drop 1
        if 32 ≤ hops then s.noRoute d port k
        else match s.routeTo d (hDst h) with
          | some q => (s.modIod d fun x => { x with transit := (x.transit + 1) % 2 ^ 32 }).queueAt q port k'
          | none => s.noRoute d port k

end Sys2Proof.Machine
end

