-- ==== Sys2Proof/Machine/Memory.lean ====
section
/-!
DEFINITION. HBM maps, page records, accesses and hand-overs, oxen and their passes, ring requests, the request engine
and the target's serving of memory requests (R199 to R225, R235 to R245).
-/
namespace Sys2Proof.Machine

/-! ## The local map (R201 to R205) -/

/-- Usable capacity of a stack in bytes (R202). -/
def Site.capacity (x : Site) : Nat := x.chans.length * 2 ^ 31

/-- The stripe list (R204). -/
def State.stripes (s : State) : List Nat :=
  (List.range 16).filter fun x => hbmFitted s.mgt.fuses x && !(s.site x).bootFailed

/-- C_min of R204. -/
def State.cMin (s : State) : Nat :=
  match s.stripes.map fun x => (s.site x).capacity with
  | [] => 0
  | c :: cs => cs.foldl min c

/-- The site and within-stack offset of a local offset; none where it is not mapped (R202 to R204). -/
def State.locate (s : State) (a : Nat) : Option (Nat × Nat) :=
  if s.mgt.striped then
    let l := s.stripes
    if l.isEmpty || l.length * s.cMin ≤ a then none
    else
      let n := a / 4096
      some (l.getD (n % l.length) 0, n / l.length * 4096 + a % 4096)
  else
    let x := a / 2 ^ 36
    let o := a % 2 ^ 36
    if 16 ≤ x || !hbmFitted s.mgt.fuses x || (s.site x).bootFailed || (s.site x).capacity ≤ o then none else some (x, o)

/-- The channel and channel offset of a within-stack offset (R202). -/
def Site.channel (x : Site) (o : Nat) : Nat × Nat :=
  let n := x.chans.length
  let g := o / 256
  (x.chans.getD (g % n) 0, g / n * 256 + o % 256)

/-- Where a mapped byte is kept: site, channel, channel offset. -/
def State.cell (s : State) (a : Nat) : Option (Nat × Nat × Nat) :=
  (s.locate a).map fun l => let c := (s.site l.1).channel l.2; (l.1, c.1, c.2)

/-- The key of a place in the stacks. -/
def cellKey (c : Nat × Nat × Nat) : Nat := c.1 * 2 ^ 36 + c.2.1 * 2 ^ 31 + c.2.2

/-- Whether a site's channel refuses accesses (R203 to R205). -/
def State.chanFailed (s : State) (x c : Nat) : Bool :=
  (s.site x).st == .failed || (s.site x).chFailed.getLsbD c

/-- The local offset of a place in the stacks, if the map reaches it. -/
def State.offsetOf (s : State) (key : Nat) : Option Nat :=
  let x := key / 2 ^ 36
  let c := key / 2 ^ 31 % 32
  let o := key % 2 ^ 31
  let cs := (s.site x).chans
  let i := (cs.takeWhile fun k => k ≠ c).length
  let w := (o / 256 * cs.length + i) * 256 + o % 256
  if !cs.contains c then none
  else if s.mgt.striped then
    let l := s.stripes
    let p := (l.takeWhile fun k => k ≠ x).length
    if l.contains x then some ((w / 4096 * l.length + p) * 4096 + w % 4096) else none
  else some (x * 2 ^ 36 + w)

/-! ## Reading and writing mapped bytes -/

/-- `n` bytes from a local offset. -/
def State.readMem (s : State) (a : Nat) : Nat → List Byte
  | 0 => []
  | n + 1 =>
    (match s.cell a with
      | some c => Tab.look (0 : Byte) s.hbm (cellKey c)
      | none => 0) :: State.readMem s (a + 1) n

/-- Bytes written from a local offset on; a byte outside the map goes nowhere. -/
def State.writeMem (s : State) (a : Nat) : List Byte → State
  | [] => s
  | b :: bs =>
    let s := match s.cell a with
      | some c => { s with hbm := Tab.put (0 : Byte) s.hbm (cellKey c) b }
      | none => s
    State.writeMem s (a + 1) bs

/-- `n` lines from a local offset. -/
def State.readLines (s : State) (a n : Nat) : List Line :=
  (List.range n).map fun i => lineOf (s.readMem (a + 64 * i) 64)

/-- Lines written from a local offset on. -/
def State.writeLines (s : State) (a : Nat) : List Line → State
  | [] => s
  | l :: ls => State.writeLines (s.writeMem a (lineBytes l)) (a + 64) ls

/-- A line of free bytes: what a stack returned with an uncorrectable error (R207; log entry 35). -/
def State.freeLine (s : State) : Line × State :=
  ((List.range 8).foldl (fun l i => l ||| ((Config.freeValue (s.free + i)).setWidth 512 <<< (64 * i))) 0,
    { s with free := s.free + 8 })

/-- `n` such lines. -/
def State.freeLines (s : State) : Nat → List Line × State
  | 0 => ([], s)
  | n + 1 => let (l, s) := s.freeLine; let (ls, s) := State.freeLines s n; (l :: ls, s)

/-! ## Page records and access checks (R218 to R221) -/

def pgDev (r : BitVec 32) : Nat := bits r 12 0
def pgPart (r : BitVec 32) : Nat := bits r 16 13
def pgMode (r : BitVec 32) : Nat := bits r 18 17
def pgGen (r : BitVec 32) : Nat := bits r 30 19
def pgPending (r : BitVec 32) : Bool := r.getLsbD 31

/-- A page record (R218). -/
def pageRecord (dev part mode gen : Nat) (pending : Bool) : BitVec 32 :=
  pack [(0, dev % 8192), (13, part % 16), (17, mode % 4), (19, gen % 4096), (31, b2n pending)]

def State.page (s : State) (p : Nat) : BitVec 32 := s.pages.look 0 p
def State.setPage (s : State) (p : Nat) (r : BitVec 32) : State := { s with pages := s.pages.put 0 p r }

/-- Whether a page lies in the map (R222, R223). -/
def State.pageMapped (s : State) (p : Nat) : Bool :=
  p < 524288 && (s.locate (p * 2 ^ 21)).isSome && (s.locate (p * 2 ^ 21 + 2 ^ 21 - 1)).isSome

/-- Whether a page is in a hand-over that has not been completed. -/
def State.moving (s : State) (p : Nat) : Bool := s.moves.any fun m => m.page = p

/-- The check of one page (R219): 0, or NOT_OWNER or PAGE_FREE. -/
def State.pageCheck (s : State) (dev part : Nat) (write : Bool) (p : Nat) : Nat :=
  let r := s.page p
  let own : Bool := pgDev r = dev && pgPart r = part
  match pgMode r with
  | 0 => 3
  | 1 => if own then 0 else 1
  | 2 => if own || !write then 0 else 1
  | _ => 0

/-- The site that keeps a mapped byte. -/
def State.siteAt (s : State) (a : Nat) : Option Nat := (s.locate a).map (·.1)

/-- The lines of `n` bytes at an offset. -/
def lineStarts (a n : Nat) : List Nat := (List.range ((a % 64 + n + 63) / 64)).map fun i => a / 64 * 64 + 64 * i

/-- The status of an access to `n` bytes in the order of R221; 0 is allowed. -/
def State.memStatus (s : State) (dev part : Nat) (write : Bool) (a n : Nat) : Nat :=
  let ls := lineStarts a n
  if ls.any fun l => (s.cell l).isNone then 2
  else if ls.any fun l => match s.cell l with
      | some c => s.chanFailed c.1 c.2.1
      | none => true then 5
  else
    let st := ls.map fun l => s.pageCheck dev part write (l / 2 ^ 21)
    if st.contains 3 then 3 else if st.contains 1 then 1 else 0

/-- Whether an access must wait: a hand-over is pending on a page of it (R223); a page being freed is refused at once
(R224). -/
def State.mustWait (s : State) (a n : Nat) : Bool :=
  (lineStarts a n).any fun l => let r := s.page (l / 2 ^ 21); pgPending r && pgMode r ≠ 0

/-! ## Oxen (R212 to R217) -/

/-- The region whose schedule beat an ox tracks for a partition (R213): one that faces the edge, else the lead's. -/
def State.oxRegion (s : State) (e : EdgeId) (p : Nat) : Option Nat :=
  let own := fun r => let c := (s.region r).ctl; c.assigned && c.part = p
  match (edgeRegions e).find? own with
  | some r => some r
  | none => s.leadOf p

/-- The schedule beat of a share's partition, if its run is open (R213). -/
def State.oxBeat (s : State) (e : EdgeId) (p : Nat) : Option Nat :=
  match s.oxRegion e p with
  | some r => let c := (s.region r).ctl; if c.run then some c.sched else none
  | none => none

/-- A descriptor of a share. -/
def Edge.desc (g : Edge) (sh i : Nat) : OxDesc := g.descs.look ⟨0, 0, 0, 0, 0, 0, 0, 0⟩ ((g.share sh).descBase + i)

/-- The next pass of a descriptor: its number, START and D (R213); none when it has no further pass. -/
def Edge.nextPass (g : Edge) (sh i : Nat) : Option (Nat × Nat × Nat) :=
  let k := g.served.look 0 (servedKey sh i)
  let d := g.desc sh i
  let per := (g.share sh).period
  if d.kind = 0 || (per = 0 && 0 < k) then none
  else some (k, d.start.toNat + k * per, d.deadline.toNat + k * per)

/-- Whether a pass of a descriptor is running. -/
def Edge.running (g : Edge) (sh i : Nat) : Bool := g.passes.any fun p => p.share = sh && p.desc = i

/-- The passes of a share whose START has passed and which do not run yet, as (D, index in the share). -/
def Edge.waiting (g : Edge) (sh beat : Nat) : List (Nat × Nat) :=
  (List.range (g.share sh).descCount).filterMap fun i =>
    match g.nextPass sh i with
    | some (_, st, dl) => if st ≤ beat && !g.running sh i then some (dl, i) else none
    | none => none

def oxRemote (d : OxDesc) : Bool := d.flags.getLsbD 0
def oxFill (d : OxDesc) : Bool := d.kind = 1
/-- The local offset of a descriptor: the low 40 bits of ADDR, of any alignment (DESIGN CHOICE, log entry 134: R212 neither
requires the other bits to be zero nor the offset to be that of a line). -/
def oxLocal (d : OxDesc) : Nat := d.addr.toNat % 2 ^ 40

/-- The pages a local pass touches. -/
def oxPages (d : OxDesc) : List Nat :=
  if oxRemote d || d.lines = 0 then []
  else
    let a := oxLocal d / 2 ^ 21
    (List.range ((oxLocal d + 64 * d.lines.toNat - 1) / 2 ^ 21 - a + 1)).map fun i => a + i

/-- Whether a pass must wait: a page of it is in a hand-over that has not been completed (R223); one that is being freed is
refused instead (R224). -/
def State.passWaits (s : State) (d : OxDesc) : Bool :=
  (oxPages d).any fun p => s.moving p && !(pgMode (s.page p) = 0 && pgPending (s.page p))

/-- The passes of both shares of an ox that may start, as (D, index of the descriptor) (R213). -/
def State.waiting (s : State) (e : EdgeId) : List (Nat × Nat) :=
  let g := s.edge e
  [0, 1].flatMap fun sh =>
    match (g.share sh).valid, s.oxBeat e (g.share sh).part with
    | true, some b =>
      ((g.waiting sh b).filter fun q => !s.passWaits (g.desc sh q.2)).map fun q => (q.1, (g.share sh).descBase + q.2)
    | _, _ => []

/-- The first staging line of a descriptor (R212). -/
def Edge.stageAt (g : Edge) (sh i : Nat) : Nat := (g.share sh).first + (g.desc sh i).stageLine.toNat

/-- Lines put in staging (R213). -/
def State.stage (s : State) (e : EdgeId) (at_ : Nat) (ls : List Line) : State :=
  s.modEdge e fun g => { g with lines := g.lines.putAll 0 at_ ls }

/-- Lines of staging. -/
def Edge.staged (g : Edge) (at_ n : Nat) : List Line := (List.range n).map fun i => g.lines.look 0 (at_ + i)

/-- A MEMORY fault of an ox for a share's run (R207, R213). -/
def State.oxFault (s : State) (e : EdgeId) (sh cause : Nat) : State :=
  let p := ((s.edge e).share sh).part
  match s.oxRegion e p with
  | some r => let c := (s.region r).ctl; s.raiseEdge e p c.runGen 1 cause c.sched false
  | none => s.raiseEdge e p 0 1 cause 0 false

/-- REFUSED set, with its fault (R213, R245). -/
def State.oxRefused (s : State) (e : EdgeId) (sh : Nat) : State :=
  let b := (s.oxBeat e ((s.edge e).share sh).part).getD 0
  (s.modEdge e fun g => { g.event sh b with refused := true }).oxFault e sh 3

/-- A token of an edge node to the lead hen of a partition (R167, R215). -/
def State.edgeAsk (s : State) (e : EdgeId) (p kind beat : Nat) : State :=
  match s.leadOf p with
  | some l =>
    let k : Token := { cls := 2, kind := BitVec.ofNat 4 kind, group := 0, scope := 1, src := BitVec.ofNat 6 (match e with
        | .hbm x => srcCode (.site x)
        | .iod d => srcCode (.iod d)), part := BitVec.ofNat 4 p,
                       pay := payOf beat 1 (s.region l).ctl.runGen.toNat }
    if (s.edge e).queue.length < 64 then s.modEdge e fun g => { g with queue := g.queue ++ [k] }
    else s.raiseEdge e p (s.region l).ctl.runGen 4 4 beat false
  | none => s

/-- Whether a running pass touches a page. -/
def State.passOn (s : State) (page : Nat) : Bool :=
  allEdges.any fun e => let g := s.edge e; g.passes.any fun p => (oxPages (g.desc p.share p.desc)).contains page

/-- The bit PENDING is set in the record of each page in hand-over that no running pass touches (R223). -/
def State.markPending (s : State) : State :=
  s.moves.foldl (fun s m =>
    if s.passOn m.page || pgPending (s.page m.page) then s
    else
      let r := s.page m.page
      if m.mode = 0 then s.setPage m.page (pageRecord 0 0 0 (pgGen r) true)
      else s.setPage m.page (setBit r 31)) s

/-- A pass is complete: it is counted, and the hold is withdrawn when every pass held for is complete (R213, R215). -/
def State.passDone (s : State) (e : EdgeId) (sh i : Nat) : State :=
  let was := (s.edge e).lateAt.any fun l => ((s.edge e).share (l.1 / 4096)).part = ((s.edge e).share sh).part
  let s := s.modEdge e fun g => { g with
    passes := g.passes.filter fun p => !(p.share = sh && p.desc = i),
    served := g.served.put 0 (servedKey sh i) (g.served.look 0 (servedKey sh i) + 1),
    lateAt := g.lateAt.filter fun l => l.1 ≠ servedKey sh i }
  let g := s.edge e
  let left := fun q => g.lateAt.any fun l => (g.share (l.1 / 4096)).part = q
  let s := if was && !left (g.share sh).part then
      (s.modEdge e fun g => { g with holding := !g.lateAt.isEmpty }).edgeAsk e (g.share sh).part 7 0
    else s
  s.markPending

/-! ### Requests to other devices (R243, R245) -/

/-- Stops between an edge and a die, the shorter way. -/
def ringDistance (a b : EdgeId) : Nat :=
  let n := max (stopOf a) (stopOf b) - min (stopOf a) (stopOf b)
  min n (20 - n)

/-- The nearest RUNNING I/O die on the ring; ties go to the lower site (R245). -/
def State.nearestIod (s : State) (e : EdgeId) : Option Nat :=
  ((List.range 4).filter fun d => iodFitted s.mgt.fuses d && (s.iod d).st == .running && s.ringJoins e (.iod d)).foldl
    (fun b d => match b with
      | some c => if ringDistance e (.iod d) < ringDistance e (.iod c) then some d else some c
      | none => some d) none

/-- A tag no request holds and none has held for 16 µs (R243); tags of die `d` lie in its own quarter. None while every tag
is held. -/
def State.freeTag (s : State) (d : Nat) : Option Nat :=
  let x := s.iod d
  let used := x.outstanding.map (·.tag) ++ (x.oldTags.filter fun t => s.now < t.2 + 16).map (·.1)
  ((List.range 16384).find? fun i => !used.contains (d * 16384 + (x.nextTag + i) % 16384)).map fun i =>
    (x.nextTag + i) % 16384

/-- What the answer to a request for lines of a pass does (R207, R213, R245). -/
def State.passAnswer (s : State) (e : EdgeId) (sh i line n status : Nat) (data : List Line) : State :=
  let g := s.edge e
  let at_ := g.stageAt sh i + line
  let fill := oxFill (g.desc sh i)
  if !g.running sh i then s
  else if status = 0 || status = 4 then
    let s := if fill then s.stage e at_ (data.take n) else s
    if status = 4 then s.oxFault e sh 2 else s
  else (if fill then s.stage e at_ (List.replicate n 0) else s).oxRefused e sh

/-- The same for a request of a REMOTE pass. -/
def State.remoteAnswer (s : State) (q : OutReq) (status : Nat) (data : List Line) : State :=
  s.passAnswer q.edge q.share q.desc q.line q.lines status data

/-- One request of a REMOTE pass: up to 4 lines by the nearest RUNNING die (R235, R245), with a tag of that die. Without a
route it completes here with NO_ROUTE, counted as the mule's and as the engine's (R247, R259). -/
def State.remoteRequest (s : State) (e : EdgeId) (sh i l n : Nat) : State :=
  let g := s.edge e
  let d := g.desc sh i
  let addr := d.addr.toNat + 64 * l
  let q : OutReq := { tag := 0, dst := addr / 2 ^ 40 % 8192, op := if oxFill d then 0 else 1, edge := e, share := sh,
                      desc := i, line := l, lines := n, fill := oxFill d }
  match s.nearestIod e with
  | none => s.remoteAnswer q 18 []
  | some k =>
    if addr / 2 ^ 53 ≠ 0 then s.remoteAnswer q 19 []
    else
      let t := (s.freeTag k).getD 0
      let q := { q with tag := k * 16384 + t }
      let data := if q.fill then [] else g.staged (g.stageAt sh i + l) n
      let pkt := header 1 q.op data.length s.mgt.ownId q.dst (g.share sh).part q.tag (n - 1) addr 0 0 :: data
      match s.routeTo k q.dst with
      | some p => (s.modIod k fun x => { x with
          outstanding := x.outstanding ++ [q], nextTag := (t + 1) % 16384 }).queueAt p (48 + k) pkt
      | none => (s.modIod k fun x => { x with
          noRoute := sat16 (x.noRoute + 1), nacks := sat16 (x.nacks + 1) }).remoteAnswer q 18 []

/-- Whether a request of a REMOTE pass would need a tag while every tag is held (R243): it waits. -/
def State.noTag (s : State) (e : EdgeId) : Bool :=
  match s.nearestIod e with
  | some k => (s.freeTag k).isNone
  | none => false

/-- Requests of a pass in flight. -/
def State.inFlight (s : State) (e : EdgeId) (sh i : Nat) : Nat :=
  ((List.range 4).map fun d =>
    ((s.iod d).outstanding.filter fun q => q.edge = e && q.share = sh && q.desc = i).length).sum

/-- A REMOTE pass asks on: at most 64 requests are in flight (log entry 36). -/
def State.askOn (s : State) (e : EdgeId) (sh i : Nat) : Nat → State
  | 0 => s
  | n + 1 =>
    let g := s.edge e
    match g.passes.find? fun p => p.share = sh && p.desc = i with
    | none => s
    | some p =>
      let total := (g.desc sh i).lines.toNat
      if total ≤ p.next || 64 ≤ s.inFlight e sh i || s.noTag e then s
      else
        let k := min 4 (total - p.next)
        let s := s.modEdge e fun g => { g with passes := g.passes.map fun q =>
          if q.share = sh && q.desc = i then { q with next := p.next + k } else q }
        State.askOn (s.remoteRequest e sh i p.next k) e sh i n

/-- A REMOTE pass asks for as much as it may. -/
def State.askAll (s : State) (e : EdgeId) (sh i : Nat) : State := s.askOn e sh i ((s.edge e).desc sh i).lines.toNat

/-- The request with a tag is answered (R243, R246): the tag rests for 16 µs and its pass asks on. -/
def State.answered (s : State) (d : Nat) (q : OutReq) (status : Nat) (data : List Line) : State :=
  let s := s.modIod d fun x => { x with
    outstanding := x.outstanding.erase q,
    oldTags := (q.tag, s.now) :: x.oldTags.filter fun t => s.now < t.2 + 16,
    nacks := if 16 ≤ status && status ≤ 18 then sat16 (x.nacks + 1) else x.nacks }
  (s.remoteAnswer q status data).askAll q.edge q.share q.desc

/-- A response at the engine of a die that holds its tag, or a late one at the die it arrived at. -/
def State.takeRsp (s : State) (at_ d : Nat) (k : List Line) : State :=
  match (s.iod d).outstanding.find? fun q => q.tag = hTag (headOf k) with
  | some q => s.answered d q (hStatus (headOf k)) (k.drop 1)
  | none => s.modIod at_ fun x => { x with lateRsp := sat16 (x.lateRsp + 1) }

/-- RSP (R243, R246): a response to the engine that holds its tag, or a late one. -/
def execRsp (port : Nat) (s : State) : Host.Outcome State Fault Refusal :=
  onUnit (port < 48) s fun s =>
    match s.takeRx port fun h => hCls h = 2 && s.isOwn h with
    | none => s
    | some (_, k, s) => (s.freeCredit port 2 k.length).takeRsp (dieOf port) (hTag (headOf k) / 16384) k

/-- REQUEST_TIMEOUT (R243): 8 µs without a response. -/
def execRequestTimeout (d tag : Nat) (s : State) : Host.Outcome State Fault Refusal :=
  onUnit (d < 4) s fun s =>
    match (s.iod d).outstanding.find? fun q => q.tag = tag with
    | some q => (s.modIod d fun x => { x with timeouts := sat16 (x.timeouts + 1) }).answered d q 24 []
    | none => s

/-! ### Ring requests (R181, R216) -/

/-- The header entry of a ring request (R216): the operation in place of the class, and in the extension the requester, with
its kind: 0 host DMA and its function, 1 fabric and its port, 2 another site and its ring stop (log entry 37). -/
def ringHead (op who kind : Nat) (h : Line) : Line := setField h 0 8 op ||| pack [(320, who), (328, kind)]

/-- The requester of a ring request and its kind. -/
def ringWho (h : Line) : Nat := bits h 327 320
def ringKind (h : Line) : Nat := bits h 335 328

/-- The ring operation of a fabric operation (R216). -/
def ringOp (h : Line) : Nat := if hOp h = 0 then 0 else if hOp h = 3 then 2 else 1

/-- Entries a producer may still send to an ox request queue (R181); the ring stop is the queue's one producer (R128). -/
def State.ringCredit (s : State) (x : Nat) : Nat := (1024 + s.credits.look 0 x + 2 ^ 32 - s.ringSent.look 0 x) % 2 ^ 32

/-- Whether a request of `n` entries can go round the ring to a site. -/
def State.ringRoom (s : State) (from_ : EdgeId) (x n : Nat) : Bool := n ≤ s.ringCredit x && s.ringJoins from_ (.hbm x)

/-- A ring request joins the queue of a site's ox. -/
def State.ringPush (s : State) (x : Nat) (k : List Line) : State :=
  let s := s.modSite x fun y => { y with oxq := y.oxq.push k }
  { s with ringSent := s.ringSent.put 0 x ((s.ringSent.look 0 x + k.length) % 2 ^ 32) }

/-- Lines of a request from an offset on: at most 4, within one granule. -/
def ringLines (a left : Nat) : Nat := min left (4 - a % 256 / 64)

/-- Whether a line is kept at an edge's own site, where the ox's pass itself moves it. -/
def State.ownLine (s : State) (e : EdgeId) (a : Nat) : Bool :=
  match e with
  | .hbm x => s.siteAt a = some x
  | .iod _ => false

/-- A local pass asks for its lines at other sites, in order, as far as credit reaches (R181, R216). -/
def State.siteAsk (s : State) (e : EdgeId) (sh i : Nat) : Nat → State
  | 0 => s
  | fuel + 1 =>
    let g := s.edge e
    let d := g.desc sh i
    match g.passes.find? fun p => p.share = sh && p.desc = i with
    | none => s
    | some p =>
      let total := d.lines.toNat
      let a := oxLocal d + 64 * p.next
      let n := ringLines a (total - p.next)
      let turn := fun (s : State) (q : List (Nat × Nat × Nat)) => s.modEdge e fun g => { g with
        passes := g.passes.map fun r => if r.share = sh && r.desc = i then { r with next := r.next + n, asks := r.asks ++ q } else r }
      if total ≤ p.next then s
      else if s.ownLine e a then State.siteAsk (turn s []) e sh i fuel
      else match s.siteAt a with
        | none => s
        | some x =>
          let data := if oxFill d then [] else g.staged (g.stageAt sh i + p.next) n
          if !s.ringRoom e x (data.length + 1) then s
          else
            let h := header 1 (if oxFill d then 0 else 1) data.length s.mgt.ownId s.mgt.ownId (g.share sh).part g.nextTag (n - 1) a
              0 0
            let s := (turn s [(g.nextTag, p.next, n)]).modEdge e fun g => { g with nextTag := (g.nextTag + 1) % 65536 }
            State.siteAsk (s.ringPush x (ringHead (if oxFill d then 0 else 1) (stopOf e) 2 h :: data)) e sh i fuel

/-- A pass asks on, of other devices or of other sites. -/
def State.passAsk (s : State) (e : EdgeId) (sh i : Nat) : State :=
  if oxRemote ((s.edge e).desc sh i) then s.askAll e sh i else s.siteAsk e sh i ((s.edge e).desc sh i).lines.toNat

/-- The edge at a ring stop. -/
def edgeAt (n : Nat) : EdgeId :=
  let k := ringStops.getD n 0
  if 100 ≤ k then .iod (k - 100) else .hbm k

/-- The answer to a ring request of another site's pass, found by its tag; the pass asks on. -/
def State.siteAnswer (s : State) (e : EdgeId) (tag status : Nat) (data : List Line) : State :=
  match (s.edge e).passes.find? fun p => p.asks.any fun q => q.1 = tag with
  | none => s
  | some p =>
    match p.asks.find? fun q => q.1 = tag with
    | none => s
    | some q =>
      let s := s.modEdge e fun g => { g with passes := g.passes.map fun r =>
        if r = p then { r with asks := r.asks.erase q } else r }
      (s.passAnswer e p.share p.desc q.2.1 q.2.2 status data).passAsk e p.share p.desc

/-! ### Host DMA (R379): its ring requests, one at a time (log entry 139) -/

/-- The next request of a DMA: the bytes it moves, and its operation, its lines, its mask of bytes. Whole lines go up to 4 at a
time; part of a line is read whole, or written under a mask. -/
def Dma.turn (d : Dma) : Nat × Nat × Nat × BitVec 64 :=
  let a := d.devOff + d.asked
  let left := d.length - d.asked
  if a % 64 = 0 && 64 ≤ left then
    let n := ringLines a (left / 64)
    (64 * n, if d.toDevice then 1 else 0, n, 0)
  else
    let n := min left (64 - a % 64)
    if d.toDevice then (n, 2, 1, maskOf (a % 64) n) else (n, 0, 1, 0)

/-- The data of a DMA's write request: host bytes, in place in their lines. -/
def State.dmaData (s : State) (d : Dma) : List Line :=
  let (n, op, lines, _) := d.turn
  let a := d.devOff + d.asked
  if op = 0 then [] else linesOf (List.replicate (a % 64) 0 ++ readBytes s.host (d.host + d.asked) n) lines

/-- A DMA of a function, known by its place in the ring, asks for its next lines when its last request has been answered and
credit reaches; it stops where an offset is not mapped any more. -/
def State.dmaAsk (s : State) (f head : Nat) : State :=
  match (s.fn f).dmas.find? fun d => d.head = head with
  | none => s
  | some d =>
    if d.stop.isSome || d.asked ≠ d.moved || d.length ≤ d.asked then s
    else
      let a := d.devOff + d.asked
      let put := fun (s : State) (v : Dma) => s.modFn f fun x => { x with
        dmas := x.dmas.map fun q => if q.head = head then v else q }
      match s.siteAt a with
      | none => put s { d with stop := some (2, a) }
      | some x =>
        let (n, op, lines, mask) := d.turn
        let data := s.dmaData d
        if !s.ringRoom (.iod 0) x (data.length + 1) then s
        else
          let h := header 1 op data.length s.mgt.ownId s.mgt.ownId (f - 1) head (if op = 2 then 0 else lines - 1)
            (a / 64 * 64) mask.toNat 0
          (put s { d with asked := d.asked + n }).ringPush x (ringHead (ringOp h) f 0 h :: data)

/-- The answer to a DMA's request (R379): the bytes move, or the DMA stops; it asks on. -/
def State.dmaAnswer (s : State) (f head status : Nat) (data : List Line) : State :=
  match (s.fn f).dmas.find? fun d => d.head = head with
  | none => s
  | some d =>
    if d.asked = d.moved then s
    else
      let put := fun (s : State) (v : Dma) => s.modFn f fun x => { x with
        dmas := x.dmas.map fun q => if q.head = head then v else q }
      let a := d.devOff + d.moved
      if status = 0 || status = 4 then
        let bs := ((data.flatMap lineBytes).drop (a % 64)).take (d.asked - d.moved)
        let s := if d.toDevice then s else { s with host := writeBytes s.host (d.host + d.moved) bs }
        (put s { d with moved := d.asked, bad := if status = 4 && d.bad.isNone then some a else d.bad }).dmaAsk f head
      else put s { d with asked := d.moved, stop := some (status, a) }

/-- What waits for ring credit asks again: every DMA and every pass. -/
def State.ringResume (s : State) : State :=
  let s := forAll (List.range 17) s fun f s => (s.fn f).dmas.foldl (fun s d => s.dmaAsk f d.head) s
  allEdges.foldl (fun s e => (s.edge e).passes.foldl (fun s p => s.passAsk e p.share p.desc) s) s

/-- A ring request of this module that a FLUSH has discarded is asked for again (log entry 139). -/
def State.askAgain (s : State) (h : Line) : State :=
  match ringKind h with
  | 0 =>
    (s.modFn (ringWho h) fun x => { x with
      dmas := x.dmas.map fun d => if d.head = hTag h then { d with asked := d.moved } else d }).dmaAsk (ringWho h) (hTag h)
  | 2 =>
    let e := edgeAt (ringWho h)
    match (s.edge e).passes.find? fun p => p.asks.any fun q => q.1 = hTag h with
    | none => s
    | some p =>
      let kept := p.asks.filter fun q => q.1 ≠ hTag h
      let from_ := ((p.asks.filter fun q => q.1 = hTag h).map fun q => q.2.1).foldl min p.next
      (s.modEdge e fun g => { g with passes := g.passes.map fun r =>
        if r = p then { r with asks := kept, next := from_ } else r }).passAsk e p.share p.desc
  | _ => s

/-! ### Passes -/

/-- Numbers of the edges and shares of a command. -/
def shareOk (e : EdgeId) (sh i : Nat) : Bool :=
  (match e with | .hbm x => x < 16 | .iod d => d < 4) && sh < 2 && i < 4096

/-- OX_PASS_START (R213): the earliest D among the due passes, the lower index on a tie; its pages are checked. -/
def execOxPassStart (e : EdgeId) (sh i : Nat) (s : State) : Host.Outcome State Fault Refusal :=
  onUnit (shareOk e sh i) s fun s =>
    let g := s.edge e
    let h := g.share sh
    match s.oxBeat e h.part, g.nextPass sh i with
    | some b, some (k, st, dl) =>
      let d := g.desc sh i
      due (h.valid && i < h.descCount && st ≤ b && !g.running sh i && !s.passWaits d &&
        ((s.waiting e).all fun q => dl < q.1 || (dl = q.1 && h.descBase + i ≤ q.2))) s fun s =>
        let run := s.modEdge e fun g => { g with passes := g.passes ++ [{ share := sh, desc := i, k := k, next := 0 : Pass }] }
        if oxRemote d then run.askAll e sh i
        else
          let status := if d.lines = 0 then 0
            else s.memStatus s.mgt.ownId h.part (!oxFill d) (oxLocal d) (64 * d.lines.toNat)
          if status = 0 then run.passAsk e sh i
          else
            let s := if oxFill d then run.stage e (g.stageAt sh i) (List.replicate d.lines.toNat 0) else run
            (s.oxRefused e sh).passDone e sh i
    | _, _ => s

/-- An uncorrectable read counted at a site (R207). -/
def State.uncorrectable (s : State) (x : Nat) : State := s.modSite x fun y => { y with uncorr := sat16 (y.uncorr + 1) }

/-- One line of a local pass that is kept at the ox's own site (R205, R207, R213): refused where its channel has failed since
the pass began; delivered as returned, counted and reported where the read was uncorrectable. -/
def State.moveLine (s : State) (e : EdgeId) (sh i : Nat) (bad : Bool) (l : Nat) : State :=
  let g := s.edge e
  let d := g.desc sh i
  let a := oxLocal d + 64 * l
  let at_ := g.stageAt sh i + l
  if !s.ownLine e a then s
  else if (lineStarts a 64).any fun k => match s.cell k with
      | some c => s.chanFailed c.1 c.2.1
      | none => true then s.passAnswer e sh i l 1 5 []
  else if !oxFill d then s.writeLines a (g.staged at_ 1)
  else if bad then
    let (v, s) := s.freeLine
    (s.passAnswer e sh i l 1 4 [v]).uncorrectable ((s.siteAt a).getD 0)
  else s.stage e at_ (s.readLines a 1)

/-- OX_PASS_COMPLETE (R207, R213): every line asked for elsewhere has been answered, and a local pass moves the lines of its
own site, of which some may have been read with uncorrectable errors. Before that the pass asks on. -/
def execOxPassComplete (e : EdgeId) (sh i : Nat) (bad : List Nat) (s : State) : Host.Outcome State Fault Refusal :=
  onUnit (shareOk e sh i) s fun s =>
    let g := s.edge e
    let d := g.desc sh i
    match g.passes.find? fun p => p.share = sh && p.desc = i with
    | none => s
    | some p =>
      if p.next < d.lines.toNat || !p.asks.isEmpty || s.inFlight e sh i ≠ 0 then s.passAsk e sh i
      else if oxRemote d then s.passDone e sh i
      else (forAll (List.range d.lines.toNat) s fun l s => s.moveLine e sh i (bad.contains l) l).passDone e sh i

/-- OX_LATE_POINT (R215): the pass is not complete at D − 512. -/
def execOxLatePoint (e : EdgeId) (sh i : Nat) (s : State) : Host.Outcome State Fault Refusal :=
  onUnit (shareOk e sh i) s fun s =>
    let g := s.edge e
    let h := g.share sh
    match s.oxBeat e h.part, g.nextPass sh i with
    | some b, some (k, _, dl) =>
      due (h.valid && i < h.descCount && dl ≤ b + 512 && !g.lateAt.contains (servedKey sh i, k)) s fun s =>
        (s.modEdge e fun g => { g.event sh b with
          late := true, lateCount := sat16 (g.lateCount + 1), holding := true,
          lateAt := g.lateAt ++ [(servedKey sh i, k)] }).edgeAsk e h.part 6 (dl - 1)
    | _, _ => s

/-! ## Stack errors and repair (R205 to R208) -/

/-- A channel fails in service (R205): it is marked, logged and exported; more than 8 make the stack FAILED. -/
def State.failChannel (s : State) (x c : Nat) : State :=
  if (s.site x).chFailed.getLsbD c then s
  else
    let s := s.modSite x fun y =>
      let y := { y with chFailed := setBit y.chFailed c }
      { y with st := match y.st with
          | .failed => .failed
          | .absent => .absent
          | _ => if 8 < popcount y.chFailed then .failed else .degraded }
    (s.log 8 2 (channelIndex x c)).cper
      { source := 7, unitKind := 8, finding := 2, unit := channelIndex x c, published := true }

/-- A row that needs repair (R208): soft repair, or a failed channel when the bank has none left. -/
def State.repairRow (s : State) (x c bank row : Nat) : State :=
  let y := s.site x
  if y.repairing.contains (c, bank, row) || y.chFailed.getLsbD c then s
  else
    let used := ((y.repairing ++ y.repaired ++ y.hardRows).filter fun q => q.1 = c && q.2.1 = bank).length
    if Config.bankRepairs ≤ used then s.failChannel x c
    else s.modSite x fun y => { y with repairing := y.repairing ++ [(c, bank, row)] }

/-- One error report (R206, R208): counted, exported, and a row reported uncorrectable, or corrected twice in 24 h,
repaired. -/
def State.eccReport (x : Nat) (s : State) (r : EccReport) : State :=
  let s := s.cper { source := 4, unitKind := 8, unit := channelIndex x r.channel, severity := if r.corrected then 2 else 0 }
  if r.corrected then
    let again := (s.site x).corrRows.any fun q =>
      q.1 = r.channel && q.2.1 = r.bank && q.2.2.1 = r.row && s.now ≤ q.2.2.2 + 86400000000
    let s := s.modSite x fun y => { y with
      corr := sat16 (y.corr + 1), corrRows := y.corrRows ++ [(r.channel, r.bank, r.row, s.now)] }
    if again then s.repairRow x r.channel r.bank r.row else s
  else (s.modSite x fun y => { y with uncorr := sat16 (y.uncorr + 1) }).repairRow x r.channel r.bank r.row

/-- HBM_ECC_POLL (R206). -/
def execHbmEccPoll (x : Nat) (reports : List EccReport) (s : State) : Host.Outcome State Fault Refusal :=
  onUnit (x < 16 && reports.all fun r => r.channel < 32) s fun s =>
    due (hbmFitted s.mgt.fuses x) s fun s => reports.foldl (State.eccReport x) s

/-- HBM_CHANNEL_FAIL (R205). -/
def execHbmChannelFail (x c : Nat) (s : State) : Host.Outcome State Fault Refusal :=
  onUnit (x < 16 && c < 32) s fun s => due (hbmFitted s.mgt.fuses x) s fun s => s.failChannel x c

/-- HBM_SOFT_REPAIR_COMPLETE (R208). -/
def execHbmSoftRepairComplete (x c bank row : Nat) (s : State) : Host.Outcome State Fault Refusal :=
  onUnit (x < 16 && c < 32) s fun s =>
    due ((s.site x).repairing.contains (c, bank, row)) s fun s => s.modSite x fun y => { y with
      repairing := y.repairing.erase (c, bank, row), repaired := y.repaired ++ [(c, bank, row)],
      chRepaired := setBit y.chRepaired c, soft := sat16 (y.soft + 1) }

/-! ## Hand-overs (R223, R224) -/

/-- The refusal of a hand-over in the order of R223; 0 accepts it. A page being freed reads as PENDING (R224). -/
def State.handCheck (s : State) (page dev part gen : Nat) : Nat :=
  let r := s.page page
  if !s.pageMapped page then 2
  else if pgMode r = 0 && pgPending r then 7
  else if !(pgMode r ≠ 0 && pgDev r = dev && pgPart r = part) then 1
  else if pgGen r ≠ gen % 4096 then 6
  else if pgPending r || s.moving page then 7
  else 0

/-- A hand-over accepted (R223). -/
def State.beginMove (s : State) (m : HandOver) : State := { s with moves := s.moves ++ [m] }.markPending

/-- A page begins to be freed (R224): its record is FREE with PENDING at once. One that is being released or freed goes on;
a hand-over to another owner that is not complete becomes a release. -/
def State.freePage (s : State) (p : Nat) : State :=
  let r := s.page p
  if pgMode r = 0 then s
  else
    let m : HandOver := match s.moves.find? fun m => m.page = p with
      | some m => { m with dev := 0, part := 0, mode := 0, zeroing := true }
      | none => { page := p, dev := 0, part := 0, mode := 0, zeroing := true, port := none, req := [], fn := none, cid := 0 }
    { s with moves := (s.moves.filter fun (q : HandOver) => q.page ≠ p) ++ [m] }.setPage p (pageRecord 0 0 0 (pgGen r) true)

/-- Counts of a target's refusals (IRA_TGT). -/
def Iod.count (x : Iod) (status : Nat) : Iod :=
  match status with
  | 16 => { x with quiesced := sat16 (x.quiesced + 1) }
  | 17 => { x with expired := sat16 (x.expired + 1) }
  | 19 => { x with malformed := sat16 (x.malformed + 1) }
  | 20 => { x with malformed := sat16 (x.malformed + 1) }
  | 21 => { x with denied := sat16 (x.denied + 1) }
  | 23 => { x with malformed := sat16 (x.malformed + 1) }
  | _ => x

/-- A request that arrived at a port is answered (R235, R239). -/
def State.answer (s : State) (p : Nat) (req : Line) (status op0 : Nat) (data : List Line) : State :=
  let s := s.modPort p fun x => { x with reqs := x.reqs.eraseP fun q => q.1 = hSrc req && q.2.1 = hTag req }
  (s.modIod (dieOf p) fun x => x.count status).sendRsp (dieOf p) (response req status op0 data)

/-- The page and the request of a hand-over in its last step, answered with a record (R223, R224). -/
def State.endMove (s : State) (m : HandOver) (r : BitVec 32) : State :=
  let s := { s with moves := s.moves.filter fun (q : HandOver) => q.page ≠ m.page }.setPage m.page r
  let s := match m.port with
    | some p => s.answer p (headOf m.req) 0 r.toNat []
    | none => s
  match m.fn with
  | some f => s.finish f { doneWith (BitVec.ofNat 16 m.cid) 0 0 with result := r.setWidth 64 }
  | none => s

/-- PENDING stands and the page takes its new record; a release goes on to zeroing (R223, R224). -/
def State.completeMove (s : State) (page : Nat) : State :=
  match s.moves.find? fun m => m.page = page with
  | none => s
  | some m =>
    due (pgPending (s.page page) && !m.zeroing) s fun s =>
      if m.mode = 0 then
        { s with moves := s.moves.map fun (q : HandOver) => if q.page = page then { q with zeroing := true } else q }
      else s.endMove m (pageRecord m.dev m.part m.mode.toNat (pgGen (s.page page) + 1) false)

/-- Every granule of a good channel of a page being freed is zero, and the record is FREE (R224). -/
def State.completeZero (s : State) (page : Nat) : State :=
  match s.moves.find? fun m => m.page = page with
  | none => s
  | some m =>
    due (m.mode = 0 && pgPending (s.page page) && !s.passOn page) s fun s =>
      let hbm := s.hbm.filter fun c =>
        (s.site (c.1 / 2 ^ 36)).chFailed.getLsbD (c.1 / 2 ^ 31 % 32) || (s.offsetOf c.1).map (· / 2 ^ 21) ≠ some page
      { s with hbm := hbm }.endMove m (pageRecord 0 0 0 (pgGen (s.page page) + 1) false)

/-- The pages that a device's partition owns begin to be freed (R224). -/
def State.freePagesOf (s : State) (dev part : Nat) : State :=
  s.pages.foldl (fun s r => if pgMode r.2 ≠ 0 && pgDev r.2 = dev && pgPart r.2 = part then s.freePage r.1 else s) s

/-- DEVID_REWRITE_COMPLETE (R220): records of the ids that were the own one take the new one; ports may send ADMIT. -/
def execDevidRewriteComplete (s : State) : Host.Outcome State Fault Refusal :=
  onUnit true s fun s =>
    due s.mgt.devRewriting s fun s =>
      let pages := s.pages.map fun r =>
        if pgMode r.2 ≠ 0 && s.mgt.devPrevs.contains (pgDev r.2) then (r.1, setField r.2 0 13 s.mgt.ownId) else r
      ({ s with pages := pages }.modMgt fun m => { m with devRewriting := false, devPrevs := [] }).admitAll

/-! ## Requests from the fabric (R235 to R242) -/

/-- The head of a port's fabric request queue. -/
def State.fqHead (s : State) (p : Nat) : Option (List Line) := (((s.iod (dieOf p)).fq.look { n := 9 } (p % 12)).items).head?

/-- The CREDIT token of a queue whose freed total has moved on (R181). -/
def State.freed (s : State) (key n d : Nat) : State :=
  let total := (s.ringFreed.look 0 key + n) % 2 ^ 32
  { s with ringFreed := s.ringFreed.put 0 key total }.fly (.iod d)
    { cls := 3, kind := 0, group := 0, scope := 1, src := BitVec.ofNat 6 (if key < 256 then 40 + key else 56 + (key - 256) / 12),
      part := 0, pay := pack [(0, key), (16, total)] }

/-- The head of a fabric request queue is taken out, and its entries freed. -/
def State.popFq (s : State) (p : Nat) : State :=
  match s.fqHead p with
  | some k => (s.modIod (dieOf p) fun x => { x with
      fq := x.fq.put { n := 9 } (p % 12) (x.fq.look { n := 9 } (p % 12)).pop }).freed (0x100 + p) k.length (dieOf p)
  | none => s

/-- CREDIT_TOKEN (R181, R232): a producer's credit; the Irant receive passes a fabric queue's total on to its peer. -/
def execCreditToken (k : Token) (s : State) : Host.Outcome State Fault Refusal :=
  onUnit true s fun s =>
    due (k.cls = 3) s fun s =>
      let s := { s with flight := s.flight.eraseP fun f => f.2 = k }
      if reservedToken k then s.reservedAtMc
      else
        let key := bits k.pay 15 0
        let total := bits k.pay 47 16
        let old := s.credits.look 0 key
        let s := { s with credits := s.credits.put 0 key total }.ringResume
        if 0x100 ≤ key && key < 0x100 + 48 then s.freeCredit (key - 0x100) 0 ((total + 2 ^ 32 - old) % 2 ^ 32) else s

/-- Whether a request is MALFORMED (R239): a reserved field, a misaligned ADDR, or DATA wrong for the operation. -/
def malformed (k : List Line) : Bool :=
  let h := headOf k
  let op := hOp h
  let arg := hArg h
  let argOk := if op ≤ 1 then arg < 4 else if op = 3 then arg < 8 else arg = 0
  let align := if op ≤ 2 then 64 else if op = 3 || op = 6 || op = 7 then 8 else 1
  let data := if op = 1 then arg + 1 else if op = 2 then 1 else 0
  let op0 := op = 2 || op = 3 || op = 7 || (op = 4 && hOp0 h < 2 ^ 31) || hOp0 h = 0
  let op1 := (op = 3 && arg = 1) || hOp1 h = 0
  !(headFixed h && argOk && hAddr h % align = 0 && hData h = data && op0 && op1)

/-- Devices listed in IRA_FM (R237). -/
def Mgt.isFm (m : Mgt) (dev : Nat) : Bool :=
  [0, 1, 2, 3].any fun k => m.fmDevs.getLsbD (16 * k + 15) && bits m.fmDevs (16 * k + 12) (16 * k) = dev

/-- Whether the half of an HBM site is in reset or switched off (R241). -/
def State.halfOff (s : State) (x : Nat) : Bool := s.mgt.stage < 3 || (if x < 8 then s.mgt.railsOffW else s.mgt.railsOffE)

/-- Whether an I/O die carries an IOD-S (R240). -/
def Mgt.isIodS (m : Mgt) (d : Nat) : Bool := m.fuses.iodS.getLsbD d

/-- The first of the checks 1 to 4 of R240 that a request fails; 0 if none. -/
def State.fabricCheck (s : State) (p : Nat) (k : List Line) : Nat :=
  let h := headOf k
  let op := hOp h
  let ctl := op = 6 || op = 7
  let die := s.iod (dieOf p)
  if malformed k then 23
  else if hAddr h / 2 ^ 53 ≠ 0 || (ctl && hAddr h / 2 ^ 40 ≠ 0) then 19
  else if s.mgt.isIodS (dieOf p) && (op = 2 || (op = 3 && 6 ≤ hArg h)) then 20
  else if ctl then
    if (die.quiesce && !s.mgt.isFm (hSrc h)) || (die.st ≠ .running && !(op = 6 && hAddr h < 0x0080_0000)) then 16 else 0
  else if die.quiesce || !s.mgt.ready || die.st ≠ .running then 16
  else match s.locate (hAddr h % 2 ^ 40) with
    | some l => if s.halfOff l.1 then 16 else 0
    | none => 0

/-- Lines a memory request names. -/
def reqLines (h : Line) : Nat := if hOp h ≤ 1 then hArg h + 1 else 1

/-- A memory request at the head of its queue: refused under R240, or sent round the ring to the site it names. -/
def State.serveMemory (s : State) (p : Nat) (k : List Line) : State :=
  let h := headOf k
  let st := s.fabricCheck p k
  if st ≠ 0 then (s.popFq p).answer p h st 0 []
  else match s.locate (hAddr h % 2 ^ 40) with
    | none => (s.popFq p).answer p h 2 0 []
    | some l =>
      let x := l.1
      if (lineStarts (hAddr h % 2 ^ 40) (64 * reqLines h)).any fun a => (s.cell a).isNone then (s.popFq p).answer p h 2 0 []
      else if (s.site x).st == .failed then (s.popFq p).answer p h 5 0 []
      else if s.ringRoom (.iod (dieOf p)) x k.length then (s.popFq p).ringPush x (ringHead (ringOp h) p 1 h :: k.drop 1)
      else s

/-- A request of one operation at the head of a port's queue. -/
def fabricRow (port : Nat) (s : State) (f : Line → Bool) (g : List Line → State → State) :
    Host.Outcome State Fault Refusal :=
  onUnit (port < 48) s fun s =>
    match s.fqHead port with
    | some k => due (f (headOf k) && (s.iod (dieOf port)).st ≠ .dark) s fun s => g k s
    | none => s

/-- A memory operation, an atomic of one kind. -/
def memoryRow (op port : Nat) (s : State) : Host.Outcome State Fault Refusal :=
  fabricRow port s (fun h => hOp h = op) fun k s => s.serveMemory port k
/-- An atomic whose ARG has a reserved value is MALFORMED whatever its kind bits. -/
def atomicRow (kind port : Nat) (s : State) : Host.Outcome State Fault Refusal :=
  fabricRow port s (fun h => hOp h = 3 && hArg h % 8 = kind) fun k s => s.serveMemory port k

/-- LOAD (R235). -/
def execLoad (port : Nat) (s : State) : Host.Outcome State Fault Refusal := memoryRow 0 port s
/-- STORE (R235). -/
def execStore (port : Nat) (s : State) : Host.Outcome State Fault Refusal := memoryRow 1 port s
/-- STORE_MASKED (R235). -/
def execStoreMasked (port : Nat) (s : State) : Host.Outcome State Fault Refusal := memoryRow 2 port s
/-- ATOMIC_SWAP (R236). -/
def execAtomicSwap (port : Nat) (s : State) : Host.Outcome State Fault Refusal := atomicRow 0 port s
/-- ATOMIC_CAS (R236). -/
def execAtomicCas (port : Nat) (s : State) : Host.Outcome State Fault Refusal := atomicRow 1 port s
/-- ATOMIC_ADD (R236). -/
def execAtomicAdd (port : Nat) (s : State) : Host.Outcome State Fault Refusal := atomicRow 2 port s
/-- ATOMIC_AND (R236). -/
def execAtomicAnd (port : Nat) (s : State) : Host.Outcome State Fault Refusal := atomicRow 3 port s
/-- ATOMIC_OR (R236). -/
def execAtomicOr (port : Nat) (s : State) : Host.Outcome State Fault Refusal := atomicRow 4 port s
/-- ATOMIC_XOR (R236). -/
def execAtomicXor (port : Nat) (s : State) : Host.Outcome State Fault Refusal := atomicRow 5 port s
/-- ATOMIC_MAXU (R236). -/
def execAtomicMaxu (port : Nat) (s : State) : Host.Outcome State Fault Refusal := atomicRow 6 port s
/-- ATOMIC_MINU (R236). -/
def execAtomicMinu (port : Nat) (s : State) : Host.Outcome State Fault Refusal := atomicRow 7 port s

/-- The new value of an atomic (R236). -/
def atomicNew (kind : Nat) (old a b : Dword) : Dword :=
  match kind with
  | 0 => a
  | 1 => if old = b then a else old
  | 2 => old + a
  | 3 => old &&& a
  | 4 => old ||| a
  | 5 => old ^^^ a
  | 6 => if old.toNat < a.toNat then a else old
  | _ => if a.toNat < old.toNat then a else old

/-! ### At the ox (R216, R219) -/

/-- The ring request at the head of an ox's queue is done: its entries are freed. -/
def State.popOx (s : State) (x n d : Nat) : State :=
  (s.modSite x fun y => { y with oxq := y.oxq.pop }).freed x n d

/-- A ring request of one operation at the head of an ox's queue, its pages not pending (R223). -/
def ringRow (op x : Nat) (s : State) (f : List Line → State → State) : Host.Outcome State Fault Refusal :=
  onUnit (x < 16) s fun s =>
    match (s.site x).oxq.items with
    | [] => s
    | k :: _ =>
      let h := headOf k
      due (hCls h = op && !s.mustWait (hAddr h % 2 ^ 40) (64 * reqLines h)) s fun s => f k s

/-- The die whose ring stop takes a request's answer. -/
def askerDie (h : Line) : Nat := if ringKind h = 1 then dieOf (ringWho h) else 0

/-- A ring request is answered: to the host's DMA, to the fabric port it came from, or to another site's pass. -/
def State.ringAnswer (s : State) (h : Line) (status op0 : Nat) (data : List Line) : State :=
  match ringKind h with
  | 0 => s.dmaAnswer (ringWho h) (hTag h) status data
  | 2 => s.siteAnswer (edgeAt (ringWho h)) (hTag h) status data
  | _ => s.answer (ringWho h) h status op0 data

/-- A ring request served: its page check, its effect where allowed, and its answer. -/
def State.ringServe (s : State) (x : Nat) (k : List Line) (write : Bool) (f : Line → State → Nat × Nat × List Line × State) :
    State :=
  let h := headOf k
  let st := s.memStatus (hSrc h) (hPart h) write (hAddr h % 2 ^ 40) (64 * reqLines h)
  let s := s.popOx x k.length (askerDie h)
  if st ≠ 0 then s.ringAnswer h st 0 []
  else
    let (st, op0, data, s) := f h s
    s.ringAnswer h st op0 data

/-- Lines read from an offset, of which some were uncorrectable: those are as the stack returned them, and counted (R207). -/
def State.readChecked (s : State) (x a : Nat) (bad : List Nat) : Nat → List Line × State
  | 0 => ([], s)
  | n + 1 =>
    let (ls, s) := State.readChecked s x a bad n
    if bad.contains n then let (v, s) := s.freeLine; (ls ++ [v], s.uncorrectable x)
    else (ls ++ s.readLines (a + 64 * n) 1, s)

/-- RING_READ (R207, R216): `bad` numbers the lines of the request that the stack reports as uncorrectable. -/
def execRingRead (x : Nat) (bad : List Nat) (s : State) : Host.Outcome State Fault Refusal :=
  ringRow 0 x s fun k s => s.ringServe x k false fun h s =>
    let (ls, s) := s.readChecked x (hAddr h % 2 ^ 40) bad (reqLines h)
    (if bad.any fun i => i < reqLines h then 4 else 0, 0, ls, s)

/-- RING_WRITE (R216, R235): whole lines, or the bytes of one line that a mask names. -/
def execRingWrite (x : Nat) (s : State) : Host.Outcome State Fault Refusal :=
  ringRow 1 x s fun k s => s.ringServe x k true fun h s =>
    let a := hAddr h % 2 ^ 40
    let s :=
      if hOp h = 2 then
        let old := lineOf (s.readMem a 64)
        s.writeMem a (lineBytes (mergeLine old (k.getD 1 0) (BitVec.ofNat 64 (hOp0 h))))
      else s.writeLines a (k.drop 1)
    (0, 0, [], s)

/-- RING_ATOMIC (R236): one read and one write of the word. -/
def execRingAtomic (x : Nat) (bad : Bool) (s : State) : Host.Outcome State Fault Refusal :=
  ringRow 2 x s fun k s => s.ringServe x k true fun h s =>
    let a := hAddr h % 2 ^ 40
    let (old, s) : Dword × State :=
      if bad then let (v, s) := s.draw; (v, s.uncorrectable x) else (BitVec.ofNat 64 (leNat (s.readMem a 8)), s)
    let new := atomicNew (hArg h) old (BitVec.ofNat 64 (hOp0 h)) (BitVec.ofNat 64 (hOp1 h))
    (if bad then 4 else 0, old.toNat, [], s.writeMem a (leBytes 8 new.toNat))

/-! ### Ownership operations (R237, R242) -/

/-- IRANT_HANDOVER (R237, R223): a refusal answers with the record as found; an accepted one is answered at its
completion, or IN_PROGRESS. -/
def execIrantHandover (port : Nat) (s : State) : Host.Outcome State Fault Refusal :=
  fabricRow port s (fun h => hOp h = 4) fun k s =>
    let h := headOf k
    let st := s.fabricCheck port k
    let page := hAddr h % 2 ^ 40 / 2 ^ 21
    let o := hOp0 h
    let s' := s.popFq port
    if st ≠ 0 then s'.answer port h st (s.page page).toNat []
    else
      let st := s.handCheck page (hSrc h) (hPart h) (o % 4096)
      if st ≠ 0 then s'.answer port h st (s.page page).toNat []
      else s'.beginMove { page := page, dev := o / 2 ^ 12 % 8192, part := o / 2 ^ 25 % 16, mode := BitVec.ofNat 2 (o / 2 ^ 29),
                          zeroing := false, port := some port, req := [h], fn := none, cid := 0 }

/-- RECLAIM (R224, R237): a device listed in IRA_FM frees any mapped page. -/
def execReclaim (port : Nat) (s : State) : Host.Outcome State Fault Refusal :=
  fabricRow port s (fun h => hOp h = 5) fun k s =>
    let h := headOf k
    let st := s.fabricCheck port k
    let page := hAddr h % 2 ^ 40 / 2 ^ 21
    let s' := s.popFq port
    if st ≠ 0 then s'.answer port h st (s.page page).toNat []
    else if !s.mgt.isFm (hSrc h) then s'.answer port h 21 (s.page page).toNat []
    else if !s.pageMapped page then s'.answer port h 2 (s.page page).toNat []
    else if pgPending (s.page page) || s.moving page then s'.answer port h 7 (s.page page).toNat []
    else
      let s' := s'.freePage page
      s'.answer port h 0 (s'.page page).toNat []

/-- The operand that a response to a request repeats when it is answered from outside its own meaning: the page record for
the ownership operations (R235). -/
def State.foundRecord (s : State) (h : Line) : Nat :=
  if hOp h = 4 || hOp h = 5 then (s.page (hAddr h % 2 ^ 40 / 2 ^ 21)).toNat else 0

/-- The oldest request of a port that arrived 3.5 µs ago or more and is not answered (R242). -/
def State.overdue (s : State) (p : Nat) : Option (Nat × Nat × Nat) :=
  (s.port p).reqs.find? fun q => decide (3500000 ≤ tsDiff (s.stampAt (.iod (dieOf p))).toNat q.2.2)

/-- REQUEST_EXPIRED (R242): 3.5 µs after its arrival a hand-over in progress is answered IN_PROGRESS; a request not
started at its ox or not yet taken from the port's queue is withdrawn and answered EXPIRED; of one that a FLUSH discarded
nothing is left to answer. -/
def execRequestExpired (port : Nat) (s : State) : Host.Outcome State Fault Refusal :=
  onUnit (port < 48) s fun s =>
    match s.overdue port with
    | none => s
    | some r =>
      let his := fun (h : Line) => hSrc h = r.1 && hTag h = r.2.1
      match s.moves.find? fun m => m.port = some port && his (headOf m.req) with
      | some m =>
        let seen := fun (q : HandOver) => if q.page = m.page then { q with port := none, req := [] } else q
        { s with moves := s.moves.map seen }.answer port (headOf m.req) 25 (s.page m.page).toNat []
      | none =>
        let mine := fun (k : List Line) => let h := headOf k; ringKind h = 1 && ringWho h = port && his h
        match (List.range 16).find? fun x => (s.site x).oxq.items.any mine with
        | some x =>
          match (s.site x).oxq.items.find? mine with
          | some k =>
            let s := s.modSite x fun y => { y with oxq := { y.oxq with
              items := y.oxq.items.erase k, rptr := (y.oxq.rptr + k.length) % 2048 } }
            (s.freed x k.length (dieOf port)).answer port (headOf k) 17 0 []
          | none => s
        | none =>
          let q := (s.iod (dieOf port)).fq.look { n := 9 } (port % 12)
          match q.items.find? fun k => his (headOf k) with
          | some k =>
            let s := s.modIod (dieOf port) fun x => { x with fq := x.fq.put { n := 9 } (port % 12) { q with
              items := q.items.erase k, rptr := (q.rptr + k.length) % 1024 } }
            (s.freed (0x100 + port) k.length (dieOf port)).answer port (headOf k) 17 (s.foundRecord (headOf k)) []
          | none => s.modPort port fun x => { x with reqs := x.reqs.erase r }

end Sys2Proof.Machine
end

