-- ==== Sys2Proof/Machine/Ports.lean ====
section
/-!
DEFINITION. Ports that leave UP: departure, lane retirement, signal loss and retraining (R247, R252 to R256).
-/
namespace Sys2Proof.Machine

/-- A packet queued for a port that has left UP is looked up again, at the die it is at: where a port took it in, or the one
that formed it. A request of this module's own without a route completes here with NO_ROUTE (R243, R247). -/
def State.lookAgain (s : State) (k : Nat × List Line) : State :=
  let d := if k.1 < 48 then dieOf k.1 else k.1 - 48
  let h := headOf k.2
  if hCls h = 1 && 48 ≤ k.1 && (s.routeTo d (hDst h)).isNone then
    (s.modIod d fun x => { x with noRoute := sat16 (x.noRoute + 1) }).takeRsp d (hTag h / 16384) (response h 18 0 [])
  else s.sendOn d k.1 k.2

/-- A port leaves UP: what it had sent is lost, and what is queued is looked up again in queue order (R247, R253). One that
trains again does so in full where it has no saved record (R299). -/
def State.leaveUp (s : State) (p : Nat) (st : PortSt) (byDepart : Bool) : State :=
  let q := (s.port p).txq
  let full := !s.portSaved p
  let s := s.modPort p fun x => { x with
    st := st, downByDepart := byDepart, txq := [], tail := [], frames := [], nakked := false, mapAt := none, mapOwn := false,
    sentAdmit := false, gotAdmit := false, draining := false, gmValid := false,
    replay := [], full := full }
  q.foldl State.lookAgain s

/-- DEPART (R252 to R254): RETRAIN leads into retraining, another reason to DOWN. A port that has itself sent DEPART treats
the link as departed and goes on with its own. -/
def execDepart (port : Nat) (s : State) : Host.Outcome State Fault Refusal :=
  linkRow 5 port s fun h s =>
    let why := hAddr h % 16
    let s := s.modPort port fun x => { x with departRx := why }
    let s := if (s.port port).st == .up then s.leaveUp port (if why = 2 then .retraining else .down) true else s
    s.chooseParent

/-- LANE_RETIRE (R256): the port retires a lane that fails the rule and both ends switch 64 frames on, or it goes DOWN. Its
FAULT token's BEAT is device time (DESIGN CHOICE, log entry 65). -/
def execLaneRetire (port lane : Nat) (s : State) : Host.Outcome State Fault Refusal :=
  onUnit (port < 48 && lane < 9) s fun s =>
    due ((s.port port).st == .up && !(s.port port).retired.getLsbD lane &&
        ((s.port port).lanes.look {} lane).failing s.now) s fun s =>
      let s := s.modPort port fun x => { x with
        retired := setBit x.retired lane, laneRetires := sat16 (x.laneRetires + 1) }
      let s := s.raiseEdge (.iod (dieOf port)) 0 0 6 5 s.now false
      let x := s.port port
      if x.good.length < 4 then (s.leaveUp port .down false).chooseParent
      else if x.inService.contains lane then
        let f := (x.frame + 64) % 65536
        let m := laneMask x.lanesLeft
        (s.sendLink port 7 (m.toNat + f * 2 ^ 16) 0 0 0).modPort port fun x => { x with mapAt := some (f, m), mapOwn := true }
      else s

/-- PORT_SIGNAL_LOSS (R253). -/
def execPortSignalLoss (port : Nat) (s : State) : Host.Outcome State Fault Refusal :=
  onUnit (port < 48) s fun s =>
    due ((s.port port).st == .up) s fun s => (s.leaveUp port .down false).chooseParent

/-- A retrain of a port begins (R255): DEPART with reason RETRAIN from an UP port, whose replay buffer then drains. Without a
valid saved record it is full whatever was asked (R299). -/
def State.startRetrain (s : State) (p : Nat) (full : Bool) : State :=
  let full := full || !s.portSaved p
  let x := s.port p
  match x.st with
  | .up =>
    let s := s.sendLink p 5 2 0 0 0
    let q := x.txq
    let s := s.modPort p fun x => { x with
      st := .retraining, full := full, draining := true, txq := [], sentAdmit := false, gotAdmit := false, gmValid := false,
      departed := true }
    (q.foldl State.lookAgain s).chooseParent
  | .retraining => s.modPort p fun x => { x with full := x.full || full }
  | .dark => s
  | .retired => s
  | _ => s.modPort p fun x => { x with
      st := .retraining, full := full, sentAdmit := false, gotAdmit := false, failedQual := false, tail := [], frames := [] }

/-- AUTO_RETRAIN (R255). -/
def execAutoRetrain (port : Nat) (s : State) : Host.Outcome State Fault Refusal :=
  onUnit (port < 48) s fun s =>
    let x := s.port port
    let rested : Bool := match x.autoTime with
      | some t => t + 60000000 ≤ s.now
      | none => true
    due (s.mgt.ready && x.st == .down && !x.downByDepart && !x.failedQual && rested &&
      (s.iod (dieOf port)).st ≠ .dark) s fun s =>
      (s.modPort port fun x => { x with autoTime := some s.now }).startRetrain port false

/-- DEPART on every UP port of a die, which then go dark (R252). -/
def State.departDie (s : State) (d why : Nat) (st : PortSt) : State :=
  (forAll ((List.range 12).map fun i => 12 * d + i) s fun p s =>
    if (s.port p).st == .up then (s.sendLink p 5 why 0 0 0).leaveUp p st false
    else if (s.port p).st == .retired then s
    else s.modPort p fun x => { x with st := st, sentAdmit := false, gotAdmit := false }).chooseParent

end Sys2Proof.Machine
end

