-- ==== Sys2Proof/Machine/Collectives.lean ====
section
/-!
DEFINITION. Collective channels: passes, chunks, the fold in rank order, results, records and the digest log
(R261 to R282).
-/
namespace Sys2Proof.Machine

/-! ## Digests and times (R258, R268) -/

/-- One bit-serial step of the CRC of R268, most significant bit first. -/
def crc64Bits : Nat → BitVec 64 → BitVec 64
  | 0, c => c
  | n + 1, c => crc64Bits n (if c.getLsbD 63 then (c <<< 1) ^^^ 0x42F0E1EBA9EA3693#64 else c <<< 1)

/-- CRC-64 with the ECMA-182 polynomial (R268). -/
def crc64 (bs : List Byte) : Dword := bs.foldl (fun (c : BitVec 64) (b : Byte) => crc64Bits 8 (c ^^^ (b.setWidth 64 <<< 56))) 0

/-- The digest of a packet: header bytes 0x0E to 0x27, then its data (R268). -/
def colDigest (k : List Line) : Dword :=
  crc64 (((lineBytes (headOf k)).drop 14).take 26 ++ (k.drop 1).flatMap lineBytes)

/-! ## Fields of a COL packet (R267) -/

def cChan (h : Line) : Nat := bits h 117 112
def cFmt (h : Line) : Nat := bits h 123 120
def cSeq (h : Line) : Nat := bits h 159 128
def cChunk (h : Line) : Nat := bits h 191 160
def cRank (h : Line) : Nat := bits h 204 192
def cCount (h : Line) : Nat := bits h 223 208
def cElems (h : Line) : Nat := bits h 239 224
def cSeg (h : Line) : Nat := bits h 241 240
def cTime (h : Line) : Dword := h.extractLsb' 256 64
def cDigest (h : Line) : Dword := h.extractLsb' 320 64

/-- What a COL packet says besides its data. -/
structure ColHead where
  op : Nat
  dst : Nat
  fmt : Nat := 0
  seq : Nat
  chunk : Nat
  rank : Nat
  count : Nat := 0
  elems : Nat := 0
  seg : Nat := 0
  time : Dword := 0
  deriving DecidableEq, Repr

/-- A COL packet of a channel with its digest (R267, R268). -/
def State.colPacket (s : State) (c : Nat) (p : ColHead) (data : List Line) : List Line :=
  let h : Line := pack [(0, 3), (8, p.op), (16, data.length), (32, s.mgt.ownId), (48, p.dst), (64, (s.chan c).part),
    (112, c), (120, p.fmt), (128, p.seq), (160, p.chunk), (192, p.rank), (208, p.count), (224, p.elems), (240, p.seg),
    (256, p.time.toNat)]
  setField h 320 64 (colDigest (h :: data)).toNat :: data

/-! ## Chunks (R263, R265) -/

/-- E of a format (R265). -/
def chunkE (fmt : Nat) : Nat :=
  match fmt with
  | 0 => 64 | 1 => 128 | 2 => 128 | 3 => 256 | 4 => 256 | 7 => 224 | 8 => 224 | 9 => 320 | 10 => 320 | 11 => 480
  | 12 => 224 | _ => 64

def dKind (d : ColDesc) : Nat := d.kind.toNat
def dIn (d : ColDesc) : Nat := d.fmtIn.toNat
def dOut (d : ColDesc) : Nat := d.fmtOut.toNat
def dRnd (d : ColDesc) : Nat := bits d.rnd 1 0
/-- Elements of a chunk and chunks of a rank (R265). -/
def dE (d : ColDesc) : Nat := min (chunkE (dIn d)) (chunkE (dOut d))
def dL (d : ColDesc) : Nat := (d.count.toNat + dE d - 1) / dE d
/-- Elements of chunk `k`. -/
def dElems (d : ColDesc) (k : Nat) : Nat := min (dE d) (d.count.toNat - k * dE d)
/-- The window in picoseconds. -/
def dWindow (d : ColDesc) : Nat := d.windowUs.toNat * 1000000

/-- Bytes of some elements, and their scale bytes (R81, R265). -/
def elemBytes (fmt n : Nat) : Nat := (n * elemBits fmt + 7) / 8
def scaleBytes (fmt n : Nat) : Nat := if isMx fmt then n / 32 else 0

/-- Lines of a chunk's data flits. -/
def chunkLines (fmt n : Nat) : Nat := (elemBytes fmt n + scaleBytes fmt n + 63) / 64

/-- The keys of the chunks a device applies (R265, R266). -/
def Chan.keys (c : Chan) (d : ColDesc) : List Nat :=
  List.range (if dKind d = 3 then c.n * dL d else dL d)

/-- The owner of a chunk of a reducing kind (R265). -/
def Chan.owner (c : Chan) (k : Nat) : Nat := k % c.n

/-- The places of elements and scales at an offset. -/
def partsAt (fmt base scale pos E n : Nat) : List (Nat × Nat) :=
  (base % 2 ^ 40 + pos * elemBytes fmt E, elemBytes fmt n) ::
    (if isMx fmt then [(scale % 2 ^ 40 + pos * (E / 32), scaleBytes fmt n)] else [])

/-- The first refusal among accesses of a channel's partition (R219, R266). -/
def State.colStatus (s : State) (c : Nat) (write : Bool) (l : List (Nat × Nat)) : Nat :=
  ((l.map fun p => s.memStatus s.mgt.ownId (s.chan c).part write p.1 p.2).find? fun x => x ≠ 0).getD 0

/-- A chunk of a rank's source: its data lines, or none where an access is refused (R266, R277). -/
def State.formChunk (s : State) (c : Nat) (d : ColDesc) (k : Nat) : Option (List Line) :=
  let n := dElems d k
  let ps := partsAt (dIn d) d.src.toNat d.srcScale.toNat k (dE d) n
  if s.colStatus c false ps ≠ 0 then none
  else some (linesOf (ps.flatMap fun p => s.readMem p.1 p.2) (chunkLines (dIn d) n))

/-- The elements of a chunk widened (R90, R271). -/
def widenChunk (fmt n : Nat) (data : List Line) : List Word :=
  let bs := data.flatMap lineBytes
  let str := leNat (bs.take (elemBytes fmt n))
  (List.range n).map fun j => widen fmt ((bs.drop (elemBytes fmt n)).getD (j / 32) 0).toNat (packedElem fmt str j)

/-- An accumulator divided by a count (R271). -/
def meanOf (a : Word) (n : Nat) : Word :=
  match val32 a with
  | .fin m e => if m = 0 then a else divRound (a.getLsbD 31) m.natAbs e n 0
  | _ => fmul a 0x3F800000#32

/-- One element's fold over the ranks present, in ascending rank (R271). -/
def foldRanks (rop : Nat) : List Word → Word
  | [] => 0
  | x :: xs =>
    let a := xs.foldl (fun a b => match rop with
      | 2 => fmax a b
      | 3 => fmin a b
      | _ => fadd a b) x
    if rop = 1 then meanOf a (xs.length + 1) else a

/-- The generator of a chunk's stochastic rounding (R272). -/
def colSeed (seed : Dword) (seq k : Nat) : Dword :=
  let v := seed ^^^ BitVec.ofNat 64 (seq * 2 ^ 32) ^^^ BitVec.ofNat 64 k
  if v = 0 then 1 else v

/-- Words converted to a format: elements, then MX scales (R83, R85 to R87, R271); `sela` is the mode of R106. -/
def narrowChunk (sela : Bool) (fmt rnd : Nat) (rs : List Nat) (vs : List Word) : List Byte :=
  if isMx fmt then
    let blocks := (List.range (vs.length / 32)).map fun b =>
      convertBlock fmt rnd ((vs.drop (32 * b)).take 32) ((rs.drop (32 * b)).take 32)
    leBytes (elemBytes fmt vs.length) (packElems fmt (blocks.flatMap (·.2))) ++ blocks.map fun b => BitVec.ofNat 8 b.1
  else
    leBytes (elemBytes fmt vs.length) (packElems fmt (List.zipWith (fun v r => convert fmt rnd r sela v) vs rs))

/-! ## Operations in progress (R264) -/

/-- The pass of a channel that falls due next, with its descriptor, given the passes taken (R264). -/
def Chan.nextDue (c : Chan) (taken : Tab Nat) : Option (Nat × Nat) :=
  (List.range c.descs.length).foldl (fun b i =>
    match c.descs[i]? with
    | none => b
    | some d =>
      let p := taken.look 0 i
      if dKind d = 0 || (d.period = 0 && 0 < p) then b
      else
        let t := d.start.toNat + p * d.period.toNat
        match b with
        | some x => if t < x.1 then some (t, i) else b
        | none => some (t, i)) none

/-- The descriptor of the pass `n` places ahead (R262, R264). -/
def Chan.descAhead (c : Chan) (taken : Tab Nat) : Nat → Option Nat
  | 0 => (c.nextDue taken).map (·.2)
  | n + 1 =>
    match c.nextDue taken with
    | some x => Chan.descAhead c (taken.put 0 x.2 (taken.look 0 x.2 + 1)) n
    | none => none

def Chan.op (c : Chan) (seq : Nat) : Option ColOp := c.ops.find? fun o => o.seq = seq
def Chan.desc (c : Chan) (i : Nat) : ColDesc := c.descs.getD i ⟨0, 0, 0, 0, 0, 0, 0, 0, 0, 0, 0, 0, 0, 0, 0, 0⟩

/-- An operation of a channel changed. -/
def State.modOp (s : State) (c seq : Nat) (f : ColOp → ColOp) : State :=
  s.modChan c fun x => { x with ops := x.ops.map fun o => if o.seq = seq then f o else o }

/-- A new operation. -/
def newOp (seq desc : Nat) : ColOp :=
  { seq := seq, desc := desc, started := false, tStart := 0, contribs := [], opened := [], closed := [], results := [],
    rosters := [], applied := [], missing := [], partialN := 0, countMin := 0, countMax := 0, lateSent := 0,
    lateFlag := false, rejectFlag := false, refused := false, present := [], sentTimes := [], sentDig := [],
    rcvdDig := [], rejected := [], lateRx := [] }

/-- The descriptor of an operation that a message names before the channel knows it; none where it is known or no pass
can have its number. -/
def Chan.opening (x : Chan) (seq : Nat) : Option Nat :=
  match x.op seq with
  | some _ => none
  | none => x.descAhead x.passes ((seq + 2 ^ 32 - x.next.toNat) % 2 ^ 32 % 128)

/-- The operation of a sequence number, made where its pass has not yet fallen due (R264, R269). -/
def State.openOp (s : State) (c seq : Nat) : State :=
  match (s.chan c).opening seq with
  | some i => s.modChan c fun x => { x with ops := x.ops ++ [newOp seq i] }
  | none => s

/-- (SEQ − DONE − 1) mod 2^32. -/
def Chan.ahead (x : Chan) (seq : Nat) : Nat := (seq + 2 ^ 32 + 2 ^ 32 - x.done.toNat - 1) % 2 ^ 32

/-- The device and partition of a rank. -/
def Chan.peer (x : Chan) (r : Nat) : Nat × Nat := x.ranks.getD r (8192, 16)

/-- A COL packet sent by the home die (R266). -/
def State.colSend (s : State) (c : Nat) (k : List Line) : State :=
  s.sendOn (s.chan c).home (48 + (s.chan c).home) k

/-- Device time at a channel's home die. -/
def State.chanTime (s : State) (c : Nat) : Dword := s.stampAt (.iod (s.chan c).home)

/-- Whether a channel's partition runs in Sela compatibility mode (R106). -/
def State.chanSela (s : State) (c : Nat) : Bool :=
  match (s.part (s.chan c).part).img with
  | some i => i.flags.getLsbD 0
  | none => false

/-! ## The digest log (R131, R279 to R281) -/

/-- The banks exchange roles; the bank that fills next starts empty (R131, R132). The new number goes to the bank just filled,
and the other keeps its own (DESIGN CHOICE, log entry 133: R132 does not say which bank takes it). -/
def DigestLog.swap (l : DigestLog) : DigestLog :=
  let n := (if l.seq0.toNat < l.seq1.toNat then l.seq1 else l.seq0) + 1
  { l with fill := !l.fill, entries := 0, seq0 := if l.fill then l.seq0 else n, seq1 := if l.fill then n else l.seq1 }

/-- An entry appended; a full bank swaps unless it is frozen (R281). -/
def DigestLog.add (l : DigestLog) (e : BitVec 256) : DigestLog :=
  if 32768 ≤ l.entries then { l with discards := sat16 (l.discards + 1) }
  else
    let l := { l with
      bank0 := if l.fill then l.bank0 else l.bank0.put 0 l.entries e,
      bank1 := if l.fill then l.bank1.put 0 l.entries e else l.bank1, entries := l.entries + 1 }
    if 32768 ≤ l.entries && !l.freeze then l.swap else l

/-- Insertion by chunk. -/
def insertChunk (p : Nat × Dword) : List (Nat × Dword) → List (Nat × Dword)
  | [] => [p]
  | q :: qs => if p.1 ≤ q.1 then p :: q :: qs else q :: insertChunk p qs

/-- The log entries of an operation in one direction (R279, R280). -/
def logEntries (x : Chan) (c now : Nat) (o : ColOp) (received : Bool) : List (BitVec 256) :=
  let l := if received then o.rcvdDig else o.sentDig
  let keys := (l.map fun e => (e.1, e.2.1)).eraseDups
  keys.map fun k =>
    let ds := (l.filter fun e => e.1 = k.1 && e.2.1 = k.2).foldl (fun a e => insertChunk (e.2.2.1, e.2.2.2) a) []
    let n := fun (m : List (Nat × Nat)) => if received then (m.filter fun e => e = k).length else 0
    pack [(0, (crc64 (ds.flatMap fun d => leBytes 8 d.2.toNat)).toNat), (64, o.seq), (96, (x.peer k.2).1), (112, k.2),
      (128, c), (136, b2n received + 2 * k.1), (160, ds.length), (192, sat16 (n o.rejected)), (208, sat16 (n o.lateRx)),
      (224, now % 2 ^ 32)]

/-! ## Records (R277, R282) -/

/-- SLACK_NS of an operation (R282): the chunks it contributed to and has a result of, its own result among them. -/
def ColOp.slackNs (o : ColOp) : BitVec 32 :=
  match o.results.filterMap fun r => (o.sentTimes.find? fun q => q.1 = r.chunk).map fun q =>
      tsDiff r.time.toNat q.2.toNat with
  | [] => 0x7FFFFFFF#32
  | a :: l => sat32 ((l.foldl min a) / 1000)

/-- STATUS of a record (R277). -/
def ColOp.status (o : ColOp) (aborted : Bool) : Nat :=
  if aborted then 4 else if o.refused then 3 else if !o.missing.isEmpty then 2 else if 0 < o.partialN then 1 else 0

/-- The record's bytes (R277). -/
def recordBytes (x : Chan) (c : Nat) (o : ColOp) (aborted : Bool) (done : Dword) : List Byte :=
  let maskByte := fun (b : Nat) => BitVec.ofNat 8 (((List.range 8).map fun i =>
    b2n (o.present.contains (8 * b + i)) * 2 ^ i).sum)
  leBytes 4 o.seq ++ leBytes 1 c ++ leBytes 1 (o.status aborted) ++
    leBytes 2 (b2n o.lateFlag + 2 * b2n o.rejectFlag) ++ leBytes 4 (o.applied.length) ++ leBytes 4 o.partialN ++
    leBytes 4 o.missing.length ++ leBytes 2 o.countMin ++ leBytes 2 o.countMax ++ leBytes 4 o.lateSent ++
    leBytes 4 o.slackNs.toNat ++ leBytes 8 done.toNat ++ leBytes 2 x.n ++ leBytes 2 x.rank ++ leBytes 20 0 ++
    (List.range (8 * ((x.n + 63) / 64))).map maskByte

/-- The record of an operation is written, or refused with its fault; DONE advances and the log takes its entries. -/
def State.writeRecord (s : State) (c : Nat) (o : ColOp) (aborted : Bool) : State :=
  let x := s.chan c
  let bs := recordBytes x c o aborted (s.chanTime c)
  let a := (x.desc o.desc).record.toNat % 2 ^ 40
  let s := if s.memStatus s.mgt.ownId x.part true a bs.length = 0 then s.writeMem a bs
    else match s.leadOf x.part with
      | some l => let k := (s.region l).ctl; s.raiseEdge (.iod x.home) x.part k.runGen 1 4 k.sched false
      | none => s
  let es := logEntries x c s.now o false ++ logEntries x c s.now o true
  let s := { s with dlog := es.foldl DigestLog.add s.dlog }
  let s := s.modMgt fun m => { m with
    slacks := (s.now, o.slackNs.toInt) :: m.slacks.filter fun q => s.now < q.1 + 1000 }
  s.modChan c fun x => { x with
    done := BitVec.ofNat 32 o.seq, slack := o.slackNs, ops := x.ops.filter fun p => p.seq ≠ o.seq }

/-! ## Applying results (R266, R273, R275, R276) -/

/-- The key a result is kept under. -/
def resKey (d : ColDesc) (r : ChunkRes) : Nat := if dKind d = 3 then r.owner * dL d + r.chunk else r.chunk

/-- Whether a result may be applied: all of its rosters are there (R275). -/
def Chan.applicable (x : Chan) (d : ColDesc) (o : ColOp) (r : ChunkRes) : Bool :=
  dKind d = 3 || x.n ≤ r.count || r.owner = x.rank ||
    (List.range ((x.n + 2047) / 2048)).all fun g => o.rosters.any fun q => q.1 = r.chunk && q.2.1 = g

/-- The ranks whose data a result holds. -/
def Chan.ranksOf (x : Chan) (d : ColDesc) (o : ColOp) (r : ChunkRes) : List Nat :=
  if dKind d = 3 then List.range x.n
  else if x.n ≤ r.count then List.range x.n
  else if r.owner = x.rank then r.ranks
  else (o.rosters.filter fun q => q.1 = r.chunk).flatMap fun q => q.2.2

/-- Where a chunk is written (R266): position, or nothing for another rank's chunk of a REDUCE_SCATTER. -/
def Chan.place (x : Chan) (d : ColDesc) (key : Nat) : Option Nat :=
  if dKind d = 2 then (if key % x.n = x.rank then some (key / x.n) else none) else some key

/-- The chunk number of a key. -/
def keyChunk (d : ColDesc) (key : Nat) : Nat := if dKind d = 3 then key % dL d else key

/-- A chunk's bytes written at DST, or the write refused (R277). -/
def State.putChunk (s : State) (c seq : Nat) (d : ColDesc) (key : Nat) (bs : List Byte) : State :=
  match (s.chan c).place d key with
  | none => s
  | some pos =>
    let n := dElems d (keyChunk d key)
    let ps := partsAt (dOut d) d.dst.toNat d.dstScale.toNat pos (dE d) n
    if s.colStatus c true ps ≠ 0 then s.modOp c seq fun o => { o with refused := true }
    else
      let s := s.writeMem (ps.headD (0, 0)).1 (bs.take (elemBytes (dOut d) n))
      match ps with
      | [_, q] => s.writeMem q.1 ((bs.drop (elemBytes (dOut d) n)).take q.2)
      | _ => s

/-- One chunk of the operation next to be recorded is settled, if it can be: written as missing where it has been given up,
else applied, which frees its place in the reduction buffer (R262, R276). COUNT_MIN is that of the chunks applied (R277). -/
def State.settle (c seq : Nat) (s : State) (key : Nat) : State :=
  let x := s.chan c
  match x.op seq with
  | none => s
  | some o =>
    let d := x.desc o.desc
    if o.applied.contains key then s
    else if o.missing.contains key then
      let n := dElems d (keyChunk d key)
      let s := if dKind d = 2 then s
        else s.putChunk c seq d key (List.replicate (elemBytes (dOut d) n + scaleBytes (dOut d) n) 0)
      s.modOp c seq fun o => { o with
        applied := o.applied ++ [key],
        present := if dKind d = 3 then o.present.filter fun r => r ≠ key / dL d else o.present }
    else match o.results.find? fun r => resKey d r = key && x.applicable d o r with
      | some r =>
        let s := s.putChunk c seq d key (r.data.flatMap lineBytes)
        let who := x.ranksOf d o r
        s.modOp c seq fun o => { o with
          applied := o.applied ++ [key],
          partialN := if dKind d ≠ 3 && r.count < x.n then o.partialN + 1 else o.partialN,
          countMin := if o.applied.all o.missing.contains then r.count else min o.countMin r.count,
          countMax := max o.countMax r.count, present := o.present.filter who.contains,
          results := o.results.map fun q => if q = r then { q with data := [] } else q }
      | none => s

/-- Results are applied in sequence order while they can be; a whole operation gets its record (R273, R277). -/
def State.advance (s : State) (c : Nat) : Nat → State
  | 0 => s
  | n + 1 =>
    let seq := ((s.chan c).done + 1).toNat
    match (s.chan c).op seq with
    | none => s
    | some o =>
      if !o.started then s
      else
        let d := (s.chan c).desc o.desc
        let ps := ((s.chan c).keys d).flatMap fun k =>
          match (s.chan c).place d k with
          | some pos => partsAt (dOut d) d.dst.toNat d.dstScale.toNat pos (dE d) (dElems d (keyChunk d k))
          | none => []
        let rec_ := d.record.toNat % 2 ^ 40
        if ps.any (fun p => s.mustWait p.1 p.2) || s.mustWait rec_ (64 + 8 * (((s.chan c).n + 63) / 64)) then s
        else
          let keys := (s.chan c).keys d
          let s := keys.foldl (State.settle c seq) s
          match (s.chan c).op seq with
          | none => s
          | some o => if keys.all o.applied.contains then State.advance (s.writeRecord c o false) c n else s

/-- Every channel goes on. -/
def State.advanceAll (s : State) : State := forAll (List.range 64) s fun c s => s.advance c 8

/-! ## Contributions and results -/

/-- A contribution of this device was late (R274): LATE_TX, and LATE_SENT while the record is not written. -/
def State.lateNoticed (s : State) (c seq : Nat) : State :=
  (s.modChan c fun y => { y with lateTx := sat16 (y.lateTx + 1) }).modOp c seq fun o =>
    { o with lateFlag := true, lateSent := o.lateSent + 1 }

/-- T_open to now, against a window in picoseconds. -/
def lateAfter (now open_ : Dword) (w : Nat) : Bool := decide ((w : Int) ≤ tsDiff now.toNat open_.toNat)

/-- A contribution reaches the owner of its chunk (R270, R274, R279): it is late by the time its header reached the port, or
where the chunk has closed. The owner's own late one counts as its sender's too. -/
def State.contribute (s : State) (c seq : Nat) (h : Line) (data : List Line) (came now : Dword) : State :=
  let x := s.chan c
  let k := cChunk h
  let r := cRank h
  match x.op seq with
  | none => s
  | some o =>
    let d := x.desc o.desc
    let late := o.closed.contains k || (match o.opened.find? fun q => q.1 = k with
      | some q => lateAfter came q.2 (dWindow d)
      | none => false)
    if late then
      let s := s.modOp c seq fun o => { o with lateRx := o.lateRx ++ [(0, r)] }
      let s := s.modChan c fun x => { x with lateRx := sat16 (x.lateRx + 1) }
      if r = x.rank then s.lateNoticed c seq
      else s.colSend c (s.colPacket c { op := 3, dst := (x.peer r).1, seq := seq, chunk := k, rank := r } [])
    else s.modOp c seq fun o => { o with
      opened := if o.opened.any fun q => q.1 = k then o.opened else o.opened ++ [(k, now)],
      contribs := o.contribs ++ [{ chunk := k, rank := r, elems := cElems h, data := data, time := now, digest := cDigest h
                                   : Contrib }],
      rcvdDig := o.rcvdDig ++ [(0, r, k, cDigest h)] }

/-- A result taken in (R273, R279). -/
def State.takeResult (s : State) (c seq : Nat) (h : Line) (data : List Line) (ranks : List Nat) : State :=
  let r : ChunkRes := { chunk := cChunk h, owner := cRank h, count := cCount h, elems := cElems h, data := data,
                        time := cTime h, digest := cDigest h, ranks := ranks, rosters := [] }
  s.modOp c seq fun o => { o with
    results := o.results ++ [r], rcvdDig := o.rcvdDig ++ [(1, r.owner, r.chunk, r.digest)] }

/-- Chunk numbers in the order an engine sends them (R266). -/
def Chan.sendOrder (x : Chan) (d : ColDesc) : List Nat :=
  let k0 := (x.rank + 1) % x.n
  let l := dL d
  if k0 < l then (List.range l).map fun i => (k0 + i) % l else List.range l

/-- One contribution of a pass formed and sent (R266, R277). -/
def State.sendContrib (c seq : Nat) (d : ColDesc) (s : State) (k : Nat) : State :=
  let x := s.chan c
  match s.formChunk c d k with
  | none => s.modOp c seq fun o => { o with refused := true }
  | some data =>
    let t := s.chanTime c
    let own := x.owner k
    let pkt := s.colPacket c { op := 0, dst := (x.peer own).1, fmt := dIn d, seq := seq, chunk := k, rank := x.rank,
                               elems := dElems d k, time := t } data
    let s := s.modOp c seq fun o => { o with
      sentTimes := o.sentTimes ++ [(k, t)], sentDig := o.sentDig ++ [(0, own, k, cDigest (headOf pkt))] }
    if own = x.rank then s.contribute c seq (headOf pkt) data t t else s.colSend c pkt

/-- One chunk of an ALL_GATHER sent to every other rank and taken in here (R266). -/
def State.sendGather (c seq : Nat) (d : ColDesc) (s : State) (k : Nat) : State :=
  let x := s.chan c
  match s.formChunk c d k with
  | none => s.modOp c seq fun o => { o with refused := true }
  | some data =>
    let t := s.chanTime c
    let head := fun (r : Nat) => ({
      op := 1, dst := (x.peer r).1, fmt := dOut d, seq := seq, chunk := k, rank := x.rank, count := 1,
      elems := dElems d k, time := t } : ColHead)
    let pkt := fun (r : Nat) => s.colPacket c (head r) data
    let s := (List.range x.n).foldl (fun s r =>
      let s := s.modOp c seq fun o => { o with sentDig := o.sentDig ++ [(1, r, k, cDigest (headOf (pkt r)))] }
      if r = x.rank then s else s.colSend c (pkt r)) s
    s.takeResult c seq (headOf (pkt x.rank)) data [x.rank]

/-- COL_PASS_DUE (R264): the pass takes the next SEQ and sends its chunks, with at most 8 in progress. -/
def execColPassDue (c i : Nat) (s : State) : Host.Outcome State Fault Refusal :=
  onUnit (c < 64) s fun s =>
    let x := s.chan c
    match s.oxBeat (.iod x.home) x.part, x.nextDue x.passes with
    | some b, some (t, j) =>
      let d := x.desc i
      let srcs := (List.range (dL d)).flatMap fun k => partsAt (dIn d) d.src.toNat d.srcScale.toNat k (dE d) (dElems d k)
      due (x.st == .active && i = j && t ≤ b && (x.ops.filter (·.started)).length < 8 &&
        !(srcs.any fun p => s.mustWait p.1 p.2)) s fun s =>
        let seq := x.next.toNat
        let s := s.openOp c seq
        let tm := s.chanTime c
        let s := s.modChan c fun x => { x with next := x.next + 1, passes := x.passes.put 0 i (x.passes.look 0 i + 1) }
        let s := s.modOp c seq fun o => { o with started := true, tStart := tm, present := List.range x.n }
        let s := (x.sendOrder d).foldl (if dKind d = 3 then State.sendGather c seq d else State.sendContrib c seq d) s
        s.advance c 8
    | _, _ => s

/-! ## Received packets (R269) -/

/-- Lines in the reduction buffer of a home die's engine (R262). -/
def State.colLines (s : State) (d : Nat) : Nat :=
  ((List.range 64).map fun c =>
    let x := s.chan c
    if x.home = d then (x.ops.map fun o => (o.contribs.map fun q => q.data.length).sum +
      (o.results.map fun q => q.data.length).sum).sum else 0).sum

/-- Whether a packet is STALE (R269). -/
def State.colStale (s : State) (h : Line) : Bool :=
  let x := s.chan (cChan h)
  let sender := if hOp h = 3 then x.owner (cChunk h) else cRank h
  x.st ≠ .active || x.n ≤ sender || x.peer sender ≠ (hSrc h, hPart h) ||
    (64 ≤ x.ahead (cSeq h) && x.ahead (cSeq h) < 2 ^ 31)

/-- A COL packet of one operation: stale and rejected packets go no further (R269); while the buffer is full a data
packet waits (R262). -/
def colRow (op port : Nat) (s : State) (f : Nat → Dword → List Line → State → State) : Host.Outcome State Fault Refusal :=
  onUnit (port < 48) s fun s =>
    match s.takeRx port fun h => hCls h = 3 && hOp h = op && s.isOwn h with
    | none => s
    | some (came, k, s1) =>
      let h := headOf k
      let c := cChan h
      let x := s.chan c
      let d := dieOf port
      if s.colStale h then
        (s1.freeCredit port 3 k.length).modIod d fun y => { y with stale := sat16 (y.stale + 1) }
      else if 262144 ≤ s.colLines x.home && 0 < hData h then s
      else
        let s := s1.freeCredit port 3 k.length
        if colDigest k ≠ cDigest h then
          let kind := if op = 0 then 0 else 1
          let s := s.modChan c fun y => { y with digestRej := sat16 (y.digestRej + 1) }
          (if 2 ^ 31 ≤ x.ahead (cSeq h) then s else s.openOp c (cSeq h)).modOp c (cSeq h) fun o =>
            { o with rejectFlag := true, rejected := o.rejected ++ [(kind, cRank h)] }
        else f c came k s

/-- A packet that disagrees with the channel's descriptors, or comes from outside the group, is dropped as STALE (R262, R269;
log entry 140). -/
def State.colDrop (s : State) (port : Nat) : State :=
  s.modIod (dieOf port) fun y => { y with stale := sat16 (y.stale + 1) }

/-- Whether a packet carries what its descriptor says for a chunk: format, element count, and data flits (R262, R267). -/
def colFits (fmt elems flits : Nat) (h : Line) : Bool := cFmt h = fmt && cElems h = elems && hData h = flits

/-- A contribution (0) or result (1) that came before: a DUPLICATE, counted (R269). Else it is noted; what lies outside both
windows of R269 and R274 is forgotten. -/
def State.colSeen (s : State) (c kind port : Nat) (h : Line) (f : State → State) : State :=
  let q := (cSeq h, kind, cChunk h, cRank h)
  let x := s.chan c
  if x.seen.contains q then s.modIod (dieOf port) fun y => { y with duplicate := sat16 (y.duplicate + 1) }
  else f (s.modChan c fun x => { x with
    seen := (x.seen.filter fun e => x.ahead e.1 < 64 || 2 ^ 31 ≤ x.ahead e.1) ++ [q] })

/-- CONTRIB (R270, R274). -/
def execContrib (port : Nat) (s : State) : Host.Outcome State Fault Refusal :=
  colRow 0 port s fun c came k s =>
    let h := headOf k
    let x := s.chan c
    let seq := cSeq h
    if 2 ^ 31 ≤ x.ahead seq then s.colSeen c 0 port h fun s =>
      (s.modChan c fun y => { y with lateRx := sat16 (y.lateRx + 1) }).colSend c
        (s.colPacket c { op := 3, dst := (x.peer (cRank h)).1, seq := seq, chunk := cChunk h, rank := cRank h } [])
    else
      let s := s.openOp c seq
      match (s.chan c).op seq with
      | none => s
      | some o =>
        let d := x.desc o.desc
        let n := dElems d (cChunk h)
        if dKind d = 3 || dL d ≤ cChunk h || x.owner (cChunk h) ≠ x.rank || !colFits (dIn d) n (chunkLines (dIn d) n) h then
          s.colDrop port
        else s.colSeen c 0 port h fun s => s.contribute c seq h (k.drop 1) came (s.chanTime c)

/-- RESULT (R273, R275, R276). -/
def execResult (port : Nat) (s : State) : Host.Outcome State Fault Refusal :=
  colRow 1 port s fun c _ k s =>
    let h := headOf k
    let x := s.chan c
    let seq := cSeq h
    let late := fun (s : State) => s.modChan c fun y => { y with lateRx := sat16 (y.lateRx + 1) }
    if 2 ^ 31 ≤ x.ahead seq then s.colSeen c 1 port h late
    else
      let s := s.openOp c seq
      match (s.chan c).op seq with
      | none => s
      | some o =>
        let d := x.desc o.desc
        let key := if dKind d = 3 then cRank h * dL d + cChunk h else cChunk h
        let n := dElems d (cChunk h)
        if dL d ≤ cChunk h || (dKind d ≠ 3 && x.owner (cChunk h) ≠ cRank h) ||
            !colFits (dOut d) n (if dKind d = 2 then 0 else chunkLines (dOut d) n) h then s.colDrop port
        else s.colSeen c 1 port h fun s =>
          if o.missing.contains key then late (s.modOp c seq fun o => { o with lateRx := o.lateRx ++ [(1, cRank h)] })
          else (s.takeResult c seq h (k.drop 1) []).advance c 8

/-- ROSTER (R275). -/
def execRoster (port : Nat) (s : State) : Host.Outcome State Fault Refusal :=
  colRow 2 port s fun c _ k s =>
    let h := headOf k
    let seq := cSeq h
    if 2 ^ 31 ≤ (s.chan c).ahead seq then s
    else
      let s := s.openOp c seq
      let v := leNat ((k.drop 1).flatMap lineBytes)
      let who := (List.range 2048).filterMap fun j => if v.testBit j then some (2048 * cSeg h + j) else none
      (s.modOp c seq fun o =>
        if o.rosters.any fun q => q.1 = cChunk h && q.2.1 = cSeg h then o
        else { o with rosters := o.rosters ++ [(cChunk h, cSeg h, who)] }).advance c 8

/-- LATE_NOTICE (R274). -/
def execLateNotice (port : Nat) (s : State) : Host.Outcome State Fault Refusal :=
  colRow 3 port s fun c _ k s => s.lateNoticed c (cSeq (headOf k))

/-! ## Closing and giving up (R270 to R272, R275, R276) -/

/-- The data of a chunk's result, folded in rank order (R106, R271, R272). -/
def foldChunk (sela : Bool) (x : Chan) (d : ColDesc) (seq k : Nat) (cs : List Contrib) : List Line :=
  let n := dElems d k
  let ranks := (List.range x.n).filter fun r => cs.any fun q => q.rank = r
  let ws := ranks.map fun r => match cs.find? fun q => q.rank = r with
    | some q => widenChunk (dIn d) n q.data
    | none => []
  let vs := (List.range n).map fun j => foldRanks d.rop.toNat (ws.map fun w => w.getD j 0)
  let rs := if dRnd d = 2 then (draws sela n (genSeed sela (colSeed x.seed seq k))).2 else List.replicate n 0
  linesOf (narrowChunk sela (dOut d) (dRnd d) rs vs) (chunkLines (dOut d) n)

/-- A roster segment's data (R267). -/
def rosterData (ranks : List Nat) (seg : Nat) : List Line :=
  linesOf (leBytes 256 ((ranks.map fun r => if r / 2048 = seg then 2 ^ (r % 2048) else 0).sum)) 4

/-- The result of a closed chunk sent to every rank, with its rosters where ranks are missing (R266, R275). -/
def State.sendResult (s : State) (c seq k : Nat) (d : ColDesc) (ranks : List Nat) (last : Dword) (data : List Line) :
    State :=
  let x := s.chan c
  let carry := if dKind d = 2 then [] else data
  let head := fun (op r seg : Nat) => ({
    op := op, dst := (x.peer r).1, fmt := if op = 1 then dOut d else 0, seq := seq, chunk := k, rank := x.rank,
    count := ranks.length, elems := if op = 1 then dElems d k else 0, seg := seg,
    time := if op = 1 then last else 0 } : ColHead)
  let s := (List.range x.n).foldl (fun s r =>
    let pkt := s.colPacket c (head 1 r 0) carry
    let s := s.modOp c seq fun o => { o with sentDig := o.sentDig ++ [(1, r, k, cDigest (headOf pkt))] }
    if r = x.rank then s
    else
      let s := s.colSend c pkt
      if ranks.length < x.n then
        (List.range ((x.n + 2047) / 2048)).foldl (fun s g => s.colSend c (s.colPacket c (head 2 r g) (rosterData ranks g))) s
      else s) s
  s.takeResult c seq (headOf (s.colPacket c (head 1 x.rank 0) carry)) data ranks

/-- CHUNK_CLOSE (R270): all ranks are in, or T_close has come. -/
def execChunkClose (c seq ch : Nat) (s : State) : Host.Outcome State Fault Refusal :=
  onUnit (c < 64) s fun s =>
    let x := s.chan c
    match x.op seq with
    | none => s
    | some o =>
      match o.opened.find? fun q => q.1 = ch with
      | none => s
      | some q =>
        let d := x.desc o.desc
        let cs := o.contribs.filter fun p => p.chunk = ch
        let now := s.chanTime c
        due (x.st == .active && !o.closed.contains ch && (cs.length = x.n || lateAfter now q.2 (dWindow d))) s fun s =>
          let ranks := (List.range x.n).filter fun r => cs.any fun p => p.rank = r
          let last := cs.foldl (fun a p => if 0 < tsDiff p.time.toNat a.toNat then p.time else a) q.2
          let data := foldChunk (s.chanSela c) x d seq ch cs
          let s := s.modOp c seq fun o => { o with
            closed := o.closed ++ [ch], contribs := o.contribs.map fun p => if p.chunk = ch then { p with data := [] } else p }
          (s.sendResult c seq ch d ranks last data).advance c 8

/-- Picoseconds from T_start to the giving up of a chunk: 2 × WINDOW + 100 µs (R276). -/
def giveUpAfter (d : ColDesc) : Nat := 2 * dWindow d + 100000000

/-- CHUNK_GIVE_UP (R276): at T_start + 2 × WINDOW + 100 µs without a valid result. For an ALL_GATHER the chunk is named
`rank × L + k`. -/
def execChunkGiveUp (c seq ch : Nat) (s : State) : Host.Outcome State Fault Refusal :=
  onUnit (c < 64) s fun s =>
    let x := s.chan c
    match x.op seq with
    | none => s
    | some o =>
      let d := x.desc o.desc
      let now := s.chanTime c
      let held := o.results.any fun r => resKey d r = ch && x.applicable d o r
      due (x.st == .active && o.started && (x.keys d).contains ch && !held && !o.missing.contains ch &&
        lateAfter now o.tStart (giveUpAfter d)) s fun s =>
        let s := s.modOp c seq fun o => { o with missing := o.missing ++ [ch] }
        (s.modChan c fun y => { y with missing := sat16 (y.missing + 1) }).advance c 8

/-! ## The ends of channels (R261, R278) -/

/-- A channel is ABORTED (R278): operations in progress end with STATUS ABORTED where their record can be written. -/
def State.abortChan (c : Nat) (s : State) : State :=
  let s := ((s.chan c).ops.filter (·.started)).foldl (fun s o => s.writeRecord c o true) s
  s.modChan c fun x => { x with st := .aborted, ops := [] }

/-- Whether a loaded image uses a channel (R261). -/
def State.chanHeld (s : State) (c : Nat) : Bool :=
  (List.range 16).any fun p => match (s.part p).img with
    | some i => i.channels.any fun y => y.chan = c
    | none => false

/-- The channels of a partition, or of a home die. -/
def State.chansWhere (s : State) (f : Chan → Bool) : List Nat := (List.range 64).filter fun c => f (s.chan c)

/-- Every channel of a die that stops being RUNNING is ABORTED (R278). -/
def State.abortDie (s : State) (d : Nat) : State :=
  forAll ((s.chansWhere fun x => x.home = d).filter fun c => (s.chan c).st == .active || s.chanHeld c) s State.abortChan

/-- HANDOVER_COMPLETE (R223). -/
def execHandoverComplete (page : Nat) (s : State) : Host.Outcome State Fault Refusal :=
  onUnit (page < 524288) s fun s => (s.completeMove page).advanceAll

end Sys2Proof.Machine
end

