-- ==== Sys2Proof/Machine/Lifecycle.lean ====
section
/-!
DEFINITION. The start and the end of a run: run-start beat, completion, end beat, dump, scrub and what they leave
(R133 to R137, R151, R155, R166, R388, R390).
-/
namespace Sys2Proof.Machine

/-! ## What an ended run leaves in routers, edges and channels (R155, R209, R388) -/

/-- The bits of an entry that hold fields of partition-owned outputs (R140, R142). -/
def Router.partMask (x : Router) : Dword :=
  (List.range 5).foldl (fun m o => if x.transit o then m else setField m (12 * o) 12 0xFFF) 0

/-- A router with its partition-owned state cleared; `tin` says which inputs are transit-owned (R155). -/
def Router.dropPart (x : Router) (tin : Nat → Bool) : Router :=
  let keep := ~~~ x.partMask
  let clean := fun (tb : Tab Dword) => tb.foldl (fun (a : Tab Dword) p => a.put 0 p.1 (p.2 &&& keep)) []
  { x with
    bank0 := clean x.bank0, bank1 := clean x.bank1, pp0 := 512, pp1 := 512, spos := 0,
    ins := x.ins.filter fun w => w.transit, bq := x.bq.filter fun q => 4 ≤ q.1,
    assessed := x.assessed.filter fun a => 4 ≤ a.1,
    slackN := if tin 0 then x.slackN else 0, slackE := if tin 1 then x.slackE else 0,
    slackS := if tin 2 then x.slackS else 0, slackW := if tin 3 then x.slackW else 0 }

/-- R155 in one region. -/
def State.dropRouters (s : State) (r : Nat) : State :=
  forAll (keysIn s.routers r) s fun t s' => s'.modRouter t fun x => x.dropPart fun i => s.inTransit t (dirOf i)

/-- The edge ports that face one of the regions, without tables and words (R151, R155, R210). -/
def State.dropPorts (s : State) (rs : List Nat) : State :=
  allEdges.foldl (fun s e => s.modEdge e fun g => { g with
    ports := g.ports.filter fun q => !rs.contains (regionOf (edgeTile e q.1).1) }) s

/-- A share is given up: its lines are zeroed, its descriptors and passes go (R209). -/
def Edge.dropShare (g : Edge) (i : Nat) : Edge :=
  let h := g.share i
  let g := { g with
    lines := g.lines.clear h.first (h.first + h.lines), descs := g.descs.clear h.descBase (h.descBase + h.descCount),
    passes := g.passes.filter fun p => p.share ≠ i, served := g.served.clear (servedKey i 0) (servedKey (i + 1) 0),
    lateAt := g.lateAt.filter fun p => p.1 / 4096 ≠ i }
  let g := { g with holding := g.holding && !g.lateAt.isEmpty }
  if i = 0 then { g with share0 := {} } else { g with share1 := {} }

/-- The shares of a partition are zeroed; answers still to come for their passes find none. -/
def State.dropShares (s : State) (p : Nat) : State :=
  (allEdges.foldl (fun s e =>
    match (s.edge e).shareOf p with
    | none => s
    | some (i, _) =>
      forAll [0, 1, 2, 3] (s.modEdge e fun g => g.dropShare i) fun d s => s.modIod d fun x => { x with
        outstanding := x.outstanding.map fun q => if q.edge = e && q.share = i then { q with share := 2 } else q }) s).markPending

/-- The channels of a partition after a run (R261, R278, R388). -/
def State.dropChans (s : State) (p : Nat) (aborted : Bool) : State :=
  forAll (s.chansWhere fun x => x.part = p && 0 < x.n && (aborted || x.st == .active)) s fun c s =>
    if aborted then s.abortChan c else s.modChan c fun x => { x with st := .idle, ops := [] }

/-! ## The end of a run -/

/-- The schedule beat of a region's end: the announced one, which the count has just passed, or the present one (R134). -/
def Region.endBeat (x : Region) (b : Nat) : Nat :=
  match x.ctl.atStop with
  | some (k, _) => if k < x.clk.count && !x.ctl.held then b - 1 else b
  | none => b

/-- A tile of the run enters SCRUB (R134): TIL_BEAT, STATE and TIL_ARRAY are kept as at the end beat for the dump (R137),
its pipes are abandoned. Only a tile whose rail is off will not be dumped; one in retention waits (R319). -/
def State.scrubTile (s : State) (r : Nat) (dump : Bool) (t : Nat) : State :=
  let x := s.region r
  s.modTile t fun y =>
    let e := x.endBeat y.beat
    let y := { y with endSt := tileCode y.st x.ctl.held, endBeat := e, beat := e, endArr := ({ y with beat := e } : Tile).arrays4 }
    let y := { y.abandon with st := .scrub, dumped := !dump, wait := none }
    if x.pwr.railOff then y.lost else y

/-- A region's part of a run closes (R151, R155, R166); its tests are abandoned (R349). -/
def State.closeRegion (s : State) (p r : Nat) (dump : Bool) : State :=
  let owned := (s.part p).owned.filter fun t => regionOf t = r
  let s := forAll owned s fun t s => if (s.tile t).st == .scrub then s else s.scrubTile r dump t
  let s := s.modCtl r fun c => { c with
    run := false, tables := false, held := false, hstate := .running, reasons := 0, atStart := none, atStop := none,
    atHold := none, atResume := none, atPSwap := none }
  let s := s.modTest r fun h => { h with pending := false, coord := false, waiting := [], failed := false, tested := 0 }
  let s := s.modPwr r fun q => { q with heldPower := false }
  ((s.dropRouters r).dropPorts [r]).abandonTests r

/-- The dump status that holds at the end of a run (R136, R390). -/
def State.dumpStatus (s : State) (p : Nat) : Nat :=
  let x := s.part p
  if !x.dumpAllowed then 0
  else match x.loader with
    | none => 2
    | some _ =>
      match (s.fn (p + 1)).windows.look none x.dumpWindow with
      | some w => if 471040 * x.owned.length ≤ w.2 then 1 else 3
      | none => 3

/-- The run of a partition is over: HST_RUN shows why, the routers keep no word of it, shares and channels go, the dump is
settled (R155, R388, R390). -/
def State.closeRun (s : State) (p reason : Nat) : State :=
  let d := s.dumpStatus p
  let s := s.modPart p fun x => { x with st := .ending, endReason := reason, dump := d, stopAt := none, altAt := none }
  let rs := s.partRegions p
  let s := (forAll rs s fun r s => s.dropRouters r).dropPorts rs
  ((s.dropShares p).dropChans p (reason = 3 || reason = 4 || (s.part p).aborting))

/-- The tiles of a run that have not been dumped are scrubbed without a dump from now on (R136, R390; log entry 130). -/
def State.stopDump (s : State) (p status : Nat) : State :=
  let x := s.part p
  let left := x.owned.filter fun t => (s.tile t).st == .scrub && !(s.tile t).dumped
  if x.st == .ending && x.dump = 1 && !left.isEmpty then
    (forAll left s fun t s => s.modTile t fun y => { y with dumped := true }).modPart p fun y => { y with dump := status }
  else s

/-- The regions of a partition in which its run is open. -/
def State.openRegions (s : State) (p : Nat) : List Nat := (s.partRegions p).filter fun r => (s.region r).ctl.run

/-- The arrays after a scrub: every part is zero, the scales of the columns too (R74). -/
def scrubbedArrays : Tab MArray :=
  let zeros : Tab Byte := (List.range 32).map fun c => (c, 0)
  (List.range 4).map fun a => (a, { ({} : MArray) with sAct := zeros, sSha := zeros })

/-- A tile after its scrub (R74, R134): the test registers, the error counts and the selections stay. -/
def Tile.scrubbed (x : Tile) : Tile :=
  { ({} : Tile) with
    arrays := scrubbedArrays,
    psSel := x.psSel, psCorr := x.psCorr, test := x.test,
    spr := { corr := x.spr.corr, uncorr := x.spr.uncorr, lineSel := x.spr.lineSel, enabled := x.spr.enabled } }

/-- The tiles of a partition that are still to be scrubbed and can be (R135). -/
def State.scrubbing (s : State) (p : Nat) : List Nat :=
  (s.partRegions p).flatMap fun r =>
    if (s.region r).dark then [] else (keysIn s.tiles r).filter fun t => (s.tile t).st == .scrub

/-- The pages a load had taken from FREE are freed again (R383). -/
def State.unclaim (s : State) (p : Nat) : State :=
  (forAll (s.part p).claimed s fun pg s => s.freePage pg).modPart p fun x => { x with claimed := [] }

/-- A teardown is over once the partition's pages are free (R381): the norm ring is flushed and cleared, and the
regions, the function and the partition number are given back (R129, R362). -/
def State.destroyed (s : State) (p : Nat) : State :=
  let x := s.part p
  let left := s.pages.any fun q => pgMode q.2 ≠ 0 && pgDev q.2 = s.mgt.ownId && pgPart q.2 = p
  let zeroing := s.moves.any fun m => m.mode = 0 && x.freeing.contains m.page
  if !x.destroying || x.st ≠ .empty || left || zeroing then s
  else
    let rs := s.partRegions p
    let s := forAll rs s fun r s => s.modCtl r fun c => { c with assigned := false, lead := false, part := 0 }
    let s := s.setPart p {
      runNo := x.runNo, runHidden := x.runHidden, endReason := x.endReason, dump := x.dump,
      normq := { x.normq.flush with hold := [] } }
    let s := s.modFn (p + 1) fun f => { f with enabled := false }
    match x.resetCid with
    | some cid => s.finish 0 (doneWith (BitVec.ofNat 16 cid) 0 0)
    | none => s

/-- The pages of a partition begin to be freed, for its teardown (R224); a hand-over in progress to the partition itself
becomes a release (log entry 59). -/
def State.freeAll (s : State) (p : Nat) : State :=
  let own := fun (q : HandOver) => q.mode ≠ 0 && q.dev = s.mgt.ownId && q.part = p
  let s := { s with moves := s.moves.map fun (q : HandOver) => if own q then { q with dev := 0, part := 0, mode := 0 } else q }
  let mine := s.pages.filter fun q => pgMode q.2 ≠ 0 && pgDev q.2 = s.mgt.ownId && pgPart q.2 = p
  (s.freePagesOf s.mgt.ownId p).modPart p fun x => { x with freeing := mine.map fun q => q.1 }

/-- What follows when a partition that is reset or torn down is EMPTY (R381, R382). -/
def State.resetOver (s : State) (p : Nat) : State :=
  let x := s.part p
  if x.destroying then (s.freeAll p).destroyed p
  else match x.resetCid with
    | some cid => (s.modPart p fun x => { x with resetCid := none }).finish 0 (doneWith (BitVec.ofNat 16 cid) 0 0)
    | none => s

/-- The partition is EMPTY again: RUN_END is raised after a run, and the commands that waited complete (R381, R388,
R389). Tiles still in SCRUB over a dark region are not dumped any more (log entry 130). -/
def State.emptied (s : State) (p : Nat) : State :=
  let x := s.part p
  if x.st ≠ .ending || !(s.openRegions p).isEmpty || !(s.scrubbing p).isEmpty then s
  else
    let ran := x.img.isSome
    let s := forAll x.owned s fun t s => s.modTile t fun y => if y.st == .scrub then { y with dumped := true } else y
    let s := s.modPart p fun x => { x with
      st := .empty, img := none, owned := [], killCid := none, loader := none, startCid := none, claimed := [] }
    let s := if ran then s.event (p + 1) 2 else s
    let s := match x.killCid with
      | some cid => s.finish (p + 1)
          { doneWith (BitVec.ofNat 16 cid) 0 (if x.endReason = 0 then 1 else 0) with
            result := pack [(0, x.runNo.toNat), (32, x.dump)] }
      | none => s
    s.resetOver p

/-- The regions that can no longer reach an announced end beat, their clocks being off, close with the last one. -/
def State.closeStopped (s : State) (p : Nat) (dump : Bool) : State :=
  let left := s.openRegions p
  if left.all fun r => !(s.region r).clk.on then forAll left s fun r s => s.closeRegion p r dump else s

/-! ## The commands -/

/-- A tile at its run-start beat (R43, R51, R52, R55, R56, R62, R75, R88, R106, R121,
R175). -/
def Tile.start (x : Tile) (sela audit : Bool) : Tile :=
  { x with
    st := .running, pc := 0, loops := [], nextIssue := 0, beat := 0,
    gen := genSeed sela x.seed, sregs := [], vregs := [], norms := [], normNew := [],
    arrays := x.arrays.foldl (fun t p => t.put {} p.1 { p.2 with split := 0, acc := [] }) [],
    firstPc := 0, swCode := 0, errBeat := 0, psCorr := 0, wait := none, latch := [], outst := [], phase := 0,
    spr := { enabled := audit, corr := x.spr.corr, uncorr := x.spr.uncorr, lineSel := x.spr.lineSel } }

/-- The learned currents of a region at run start (R321). -/
def learnStart (i : Image) (r : Nat) : Tab Learn :=
  i.phases.foldl (fun tb q =>
    if q.region = r then tb.put {} q.phase { value := fracInt q.estimate, seeded := true, n := 0 } else tb) []

/-- The run opens in a region: bank 0 is active from position 0 (R150, R151, R210, R211), schedule beat 0 begins. -/
def State.openRegion (s : State) (p r : Nat) (i : Image) : State :=
  let s := forAll (regionTiles r) s fun t s => s.modRouter t fun x => { x with
    active := ([0, 1, 2, 3, 4] : List Nat).foldl (fun a o => if x.transit o then a else clearBit a o) x.active,
    pSwaps := (x.pSwaps + 1) % 65536 }
  let s := allEdges.foldl (fun s e => s.modEdge e fun g => { g with
    ports := g.ports.foldl (fun tb q =>
      if regionOf (edgeTile e q.1).1 = r then tb.put {} q.1 { q.2 with active := false, pos := 0, off := 0 } else tb)
      g.ports }) s
  let s := s.modCtl r fun c => { c with
    run := true, tables := true, sched := 0, posBase := 0, held := false, hstate := .running, reasons := 0,
    atStart := none, atHold := none, atResume := none, atPSwap := none, bars := [] }
  let s := s.modPwr r fun q => { q with phase := 0, learn := learnStart i r, learnOn := true }
  forAll ((s.part p).owned.filter fun t => regionOf t = r) s fun t s => s.modTile t fun x => x.start (i.flags.getLsbD 0) (i.flags.getLsbD 1)

/-- RUN_START_BEAT (R43, R151, R166, R387): RUN_START completes, and channels are ACTIVE, from the lead hen's
run-start beat. -/
def execRunStartBeat (r : Nat) (s : State) : Host.Outcome State Fault Refusal :=
  onUnit (r < 40) s fun s =>
    let x := s.region r
    let p := x.ctl.part
    let q := s.part p
    match x.ctl.atStart, q.img with
    | some k, some i =>
      due (x.clk.on && k ≤ x.clk.count && x.ctl.assigned && (q.st == .starting || q.st == .running)) s fun s =>
        let s := s.openRegion p r i
        if !x.ctl.lead then s
        else
          let t := s.stampIn r
          let s := s.modPart p fun y => { y with st := .running, startTime := t, startCid := none, norm := [] }
          let s := forAll ((i.channels.map (·.chan)).filter fun c => (s.chan c).part = p && (s.chan c).st == .idle) s fun c s =>
            s.modChan c fun y => { y with
              st := .active, next := y.seqBase, done := y.seqBase - 1, passes := [], ops := [], seen := [] }
          match q.startCid with
          | some cid => s.finish (p + 1)
              { doneWith (BitVec.ofNat 16 cid) 0 0 with result := q.runNo.setWidth 64, info := t }
          | none => s
    | _, _ => s

/-- A tile has finished: HALTED with its pipes drained, or FAULTED (R55, R133). -/
def Tile.finished (x : Tile) : Bool :=
  x.st == .faulted || (x.st == .halted && x.pend.isEmpty && x.rds.isEmpty && x.wrs.isEmpty && x.entries.isEmpty &&
    x.drains.isEmpty && x.vsts.isEmpty && x.caps.isEmpty && x.outq.isEmpty)

/-- RUN_COMPLETE (R133): every owned tile has finished, none in a dark region. A tile that a hold or a wait stops has not
(it is running or waiting). -/
def execRunComplete (p : Nat) (s : State) : Host.Outcome State Fault Refusal :=
  onUnit (p < 16) s fun s =>
    let x := s.part p
    let rs := s.partRegions p
    due (x.st == .running && rs.all (fun r => (s.region r).ctl.run) && x.owned.all fun t =>
        (s.tile t).finished && !(s.region (regionOf t)).dark) s fun s =>
      let dump := s.dumpStatus p = 1
      let s := forAll rs s fun r s => s.closeRegion p r dump
      (s.closeRun p 0).emptied p

/-- END_BEAT (R134, R151, R166): the announced region beat has passed; the run is over once every region is there. -/
def execEndBeat (r : Nat) (s : State) : Host.Outcome State Fault Refusal :=
  onUnit (r < 40) s fun s =>
    let x := s.region r
    match x.ctl.atStop with
    | some (k, reason) =>
      due (k < x.clk.count && x.ctl.run) s fun s =>
        let p := x.ctl.part
        let dump := s.dumpStatus p = 1
        let s := (s.closeRegion p r dump).closeStopped p dump
        if (s.openRegions p).isEmpty then (s.closeRun p reason).emptied p else s
    | none => s

/-- SCRUB_COMPLETE (R134, R135): 6,144 scrub beats after its dump a tile is zero and IDLE. -/
def execScrubComplete (t : Nat) (s : State) : Host.Outcome State Fault Refusal :=
  onUnit (t < 20000) s fun s =>
    let x := s.tile t
    let r := s.region (regionOf t)
    due (x.st == .scrub && x.dumped && !r.dark) s fun s => (s.modTile t Tile.scrubbed).emptied r.ctl.part

/-! ## The dump (R136, R137, R390) -/

/-- `n` zero bytes up to an offset. -/
def padTo (n : Nat) (bs : List Byte) : List Byte := bs ++ List.replicate (n - bs.length) 0

/-- FILL, DRAIN and UE of a line in the dump. A line with a word of three or more wrong bits is dumped as stored with UE 1:
R116 leaves open what a read makes of it (DESIGN CHOICE, log entry 4). -/
def dumpLine (x : Tile) (l : Nat) : Nat :=
  let q := x.lst.look {} l
  b2n q.fill + 2 * b2n q.drain + 4 * b2n ((List.range 8).any fun w => x.spEcc.look .good (8 * l + w) ≠ .good &&
    x.spEcc.look .good (8 * l + w) ≠ .single)

/-- The 471,040 bytes of a tile's dump (R137). -/
def State.dumpBytes (s : State) (t reason : Nat) : List Byte :=
  let x := s.tile t
  let til := fun (k : Nat) => leBytes 8 (if k = 1 then (setField (s.tilReg t 8) 0 3 x.endSt).toNat
    else if k = 7 then x.endArr.toNat else (s.tilReg t (8 * k)).toNat)
  let b0 := leBytes 2 t ++ leBytes 1 (regionOf t) ++ leBytes 1 reason ++ leBytes 1 x.endSt ++ leBytes 3 0 ++
    leBytes 8 x.endBeat
  let b1 := padTo 0x40 b0 ++ (List.range 9).flatMap til
  let b2 := padTo 0x100 b1 ++ (List.range 11).flatMap fun k => leBytes 8 (spReg x (0x800 + 8 * k)).toNat
  let b3 := padTo 0x200 b2 ++ (List.range 32).flatMap fun k => leBytes 4 (x.sregs.look 0 k).toNat
  let b4 := padTo 0x1000 b3 ++ (List.range 3072).map fun k =>
    BitVec.ofNat 8 (dumpLine x (2 * k) + 16 * dumpLine x (2 * k + 1))
  let b5 := padTo 0x2000 b4 ++ (List.range 6144).flatMap fun l => lineBytes (x.sp.look 0 l)
  let b6 := padTo 0x62000 b5 ++ (List.range 4).flatMap fun a =>
    let m := x.arr a
    (List.range 4096).flatMap fun k => leBytes 4 (m.acc.look 0 k).toNat
  padTo 0x72000 b6 ++ (List.range 16).flatMap fun v => leBytes 256 (x.vregs.look 0 v).toNat

/-- The place of a tile among the owned ones, ascending. -/
def Part.rankOf (p : Part) (t : Nat) : Nat := (p.owned.filter fun u => u < t).length

/-- DUMP_COMPLETE (R135, R136, R390): the dump has been written, or a host write failed and the rest is not dumped. A tile
of a dark region cannot be read. -/
def execDumpComplete (t : Nat) (ok : Bool) (s : State) : Host.Outcome State Fault Refusal :=
  onUnit (t < 20000) s fun s =>
    let x := s.tile t
    let p := (s.region (regionOf t)).ctl.part
    let q := s.part p
    due (x.st == .scrub && !x.dumped && q.st == .ending && q.dump = 1 && !(s.region (regionOf t)).dark) s fun s =>
      if ok then
        let s := match (s.fn (p + 1)).windows.look none q.dumpWindow with
          | some w => { s with
              host := writeBytes s.host (w.1 + 471040 * q.rankOf t) (s.dumpBytes t q.endReason) }
          | none => s
        s.modTile t fun x => { x with dumped := true }
      else
        s.stopDump p 4

/-! ## Pages of a partition that is torn down (R224, R381) -/

/-- PAGE_ZEROING_COMPLETE (R224): a teardown that waited for its last page is over. -/
def execPageZeroingComplete (page : Nat) (s : State) : Host.Outcome State Fault Refusal :=
  onUnit (page < 524288) s fun s =>
    let s := (s.completeZero page).advanceAll
    forAll (List.range 16) s fun p s => s.destroyed p

end Sys2Proof.Machine
end

