-- ==== Sys2Proof/Machine/Degrade.lean ====
section
/-!
DEFINITION. Wires, hens, ring segments, crossings, staging blocks, planes, the heat of I/O dies and stacks, coolant, and
the shutdowns (R30, R156, R160, R194, R252, R308, R329, R330, R350 to R354).
-/
namespace Sys2Proof.Machine

/-! ## I/O dies and stacks that leave service -/

/-- The state of an I/O die follows what holds it back. -/
def Iod.settle (x : Iod) : Iod :=
  { x with st := match x.st with
    | .absent => .absent
    | _ => if x.darkTillBoot then .dark else if x.hotOnly || x.coolOnly || x.laneOnly then .transitOnly else .running }

/-- An I/O die changed; a die that stops being RUNNING aborts its channels (R278). -/
def State.setDie (s : State) (d : Nat) (f : Iod → Iod) : State :=
  let was := (s.iod d).st
  let s := s.modIod d fun x => (f x).settle
  if was == .running && (s.iod d).st ≠ .running then s.abortDie d else s

/-- A stack is FAILED in service. -/
def State.failSite (s : State) (x : Nat) : State :=
  s.modSite x fun y => { y with st := if y.st == .absent then .absent else .failed }

/-! ## Wires (R350, R351) -/

/-- A seam group that exists: one of the 18 of a link over a stitched seam inside a half (R23). -/
def isSeam (g : SeamGroup) : Bool :=
  let x := g.tile % 200
  let y := g.tile / 200
  g.group < 18 && g.tile < 20000 &&
    (if g.northSouth then y % 25 = 24 && y < 99 else x % 20 = 19 && x ≠ 99 && x ≠ 199)

/-- The link of a seam group, as the tile and port it is sent from (R298). -/
def seamLink (g : SeamGroup) : Nat × Dir :=
  if g.northSouth then (if g.toLower then (g.tile + 200, .s) else (g.tile, .n))
  else (if g.toLower then (g.tile + 1, .w) else (g.tile, .e))

/-- The row of a bridge wire: 560 wires a row, in order of row (R24; log entry 39). -/
def bridgeRow (g w : Nat) : Nat := 4 * g + w / 560

/-- The row link of a bridge wire, as the tile and port it is sent from. -/
def bridgeLink (g dir w : Nat) : Nat × Dir :=
  if dir = 0 then (bridgeRow g w * 200 + 99, .e) else (bridgeRow g w * 200 + 100, .w)

/-- A wire of the module, spares included (R23, R25, R298). -/
def isWire : WireId → Bool
  | .seam g w => isSeam g && w ≤ (if g.group = 16 then 16 else 32)
  | .bridge g dir w => g < 25 && dir < 2 && w < 2256
  | .iodLane d dir l => d < 4 && dir < 2 && l < 992

/-- A lane of a site that is not fitted carries nothing. -/
def wireFitted (f : Fuses) : WireId → Bool
  | .seam _ _ => true
  | .bridge _ _ _ => true
  | .iodLane d _ _ => iodFitted f d

/-- The pool a wire draws its spares from: a seam group, a bridge and direction, an I/O-to-half direction (R23, R24,
R351). -/
def wirePool : WireId → Nat × Nat × Nat
  | .seam g _ => (0, seamIndex g, 0)
  | .bridge g dir _ => (1, g, dir)
  | .iodLane d dir _ => (2, d, dir)

/-- The number of a wire in its pool, and the wire of a pool with a number. -/
def wireNo : WireId → Nat
  | .seam _ w => w
  | .bridge _ _ w => w
  | .iodLane _ _ l => l
def wireAt (w : WireId) (n : Nat) : WireId :=
  match w with
  | .seam g _ => .seam g n
  | .bridge g dir _ => .bridge g dir n
  | .iodLane d dir _ => .iodLane d dir n

/-- The first spare of a wire's pool and the number of its spares: the last wires of the pool (R298; log entry 39). -/
def spareBase : WireId → Nat
  | .seam g _ => if g.group = 16 then 16 else 32
  | .bridge _ _ _ => 2240
  | .iodLane _ _ _ => 960
def spareCount : WireId → Nat
  | .seam _ _ => 1
  | .bridge _ _ _ => 16
  | .iodLane _ _ _ => 32

/-- Whether a wire is a spare. -/
def isSpare (w : WireId) : Bool := spareBase w ≤ wireNo w

/-- A spare of a wire's pool that is neither in use nor bad, the lowest first (log entry 39). -/
def Units.freeSpare (u : Units) (w : WireId) : Option Nat :=
  let lost : Bool := match w with
    | .seam g _ => u.seamUsed.contains g || u.seamDead.contains g
    | _ => false
  if lost then none
  else ((List.range (spareCount w)).map fun k => spareBase w + k).find? fun k =>
    !(u.spared.any fun q => wirePool q.1 = wirePool w && q.2 = k) && !u.badSpares.contains (wireAt w k)

/-- Whether a spare of a wire is free. -/
def Units.spareFree (u : Units) (w : WireId) : Bool := (u.freeSpare w).isSome

/-- The wire whose place a wire serves: its own, that of the wire a spare has replaced, or none where the wire is out of
service.  A seam spare assigned by fuse or log stands for a wire of its group that the spec does not record. -/
def Units.carries (u : Units) (w : WireId) : Option WireId :=
  if isSpare w then
    match u.spared.find? fun q => wirePool q.1 = wirePool w && q.2 = wireNo w with
    | some q => some q.1
    | none => match w with
      | .seam g _ => if u.seamUsed.contains g then some w else none
      | _ => none
  else if u.spared.any fun q => q.1 = w then none else some w

/-- The check group of a wire (R350), as a kind and a number: a spare belongs to the group of the wire it replaced. -/
def checkGroup : WireId → Nat × Nat
  | .seam g _ => (0, seamIndex g)
  | .bridge g dir w => (1, 2 * bridgeRow g w + dir)
  | .iodLane d dir _ => (2, 2 * d + dir)
def Units.groupOf (u : Units) (w : WireId) : Nat × Nat := checkGroup ((u.carries w).getD w)

/-- KIND and INDEX of a wire in the field defect log. -/
def wireIndex : WireId → Nat × Nat
  | .seam g _ => (4, seamIndex g)
  | .bridge g dir w => (5, bridgeIndex (g, dir, w))
  | .iodLane d dir l => (6, laneIndex (d, dir, l))

/-- The link a wire belongs to, of tiles. -/
def wireLink : WireId → Option (Nat × Dir)
  | .seam g _ => some (seamLink g)
  | .bridge g dir w => some (bridgeLink g dir w)
  | .iodLane _ _ _ => none

/-- A free spare takes the place a wire served; a spare that gives way is spent (R351). -/
def Units.useSpare (u : Units) (w : WireId) : Units :=
  let k := (u.freeSpare w).getD 0
  let u := match w with
    | .seam g _ => { u with seamUsed := u.seamUsed ++ [g] }
    | _ => u
  if isSpare w then { u with
    spared := u.spared.map fun q => if wirePool q.1 = wirePool w && q.2 = wireNo w then (q.1, k) else q,
    badSpares := u.badSpares ++ [w], spent := u.spent ++ [w] }
  else { u with spared := u.spared ++ [(w, k)], badWires := u.badWires.filter fun v => v ≠ w }

/-- The wire stays in service, FAILING. -/
def Units.failing (u : Units) (w : WireId) : Units :=
  { u with badWires := if u.badWires.contains w then u.badWires else u.badWires ++ [w] }

/-- A wire of the same check group is in service as FAILING. -/
def Units.groupFailing (u : Units) (w : WireId) : Bool :=
  (u.badWires.any fun v => u.groupOf v = u.groupOf w) ||
  (match w with
   | .seam g _ => u.seamFailing.contains g
   | _ => false)

/-- The state of the link of a place moves on; a DOWN I/O-to-half direction leaves its die TRANSIT_ONLY (R351). -/
def State.wireState (s : State) (w : WireId) (st : Nat) : State :=
  match w with
  | .iodLane d dir _ =>
    if st = 3 then
      (s.modUnits fun u => { u with
        laneDown := if u.laneDown.contains (d, dir) then u.laneDown else u.laneDown ++ [(d, dir)] }).setDie d fun x =>
          { x with laneOnly := true }
    else s
  | _ => match wireLink w with
    | some (t, d) => s.linkTo t d st
    | none => s

/-- Whether the link of a place is DOWN already. -/
def State.wireDown (s : State) (w : WireId) : Bool :=
  match w with
  | .iodLane d dir _ => s.units.laneDown.contains (d, dir)
  | _ => match wireLink w with
    | some (t, d) => s.units.links.look 0 (4 * t + dirNo d) = 3
    | none => false

/-- The LINK token of a place (R335, R351): raised where the link arrives. -/
def State.wireToken (s : State) (w : WireId) (cause : Nat) : State :=
  match w with
  | .iodLane d _ _ => s.raiseEdge (.iod d) 0 0 6 cause s.now false
  | _ => match wireLink w with
    | some (t, d) =>
      let u := (neighbour t d).getD t
      s.raise (regionOf u) 6 cause u (s.region (regionOf u)).clk.count true
    | none => s

/-- A wire event is logged and exported (R351, R355): `w` is the wire logged, `v` the place it served. -/
def State.wireFound (s : State) (w v : WireId) (finding cause : Nat) : State :=
  let i := wireIndex w
  ((s.log i.1 finding i.2).wireToken v cause).cper
    { source := 3, unitKind := i.1, finding := finding, unit := i.2, severity := if finding = 1 then 2 else 0,
      published := true }

/-! ### Alternate table sets (R352) -/

/-- Whether an image routes over a port of a tile: a field of the port has a source, or an edge port's table reads
staging toward the tile (R142, R210). -/
def usesLink (i : Image) (t : Nat) (d : Dir) : Bool :=
  (i.slots.any fun q => q.tile = t && (q.first ++ q.second).any fun e => fSrcA (entryField e.2 (dirNo d)) ≠ 0) ||
  (match edgeOf t d with
   | some (e, p) => i.shares.any fun h => h.edge = e && h.ports.any fun q =>
       q.port = p && (q.first ++ q.second).any fun x => eOp x.2 = 1
   | none => false)

/-- Whether a set avoids a link, named at either end. -/
def avoidsLink (a : ImgAlternate) (t : Nat) (d : Dir) : Bool :=
  a.avoids.contains (t, d) || a.avoids.contains ((neighbour t d).getD t, opposite d)

/-- The partition-owned fields and period of a set go into a router's standby bank. -/
def Router.loadStandby (x : Router) (q : ImgSlots) : Router :=
  let mask := x.partMask
  let merge := fun (old : Tab Dword) => (List.range 512).foldl (fun (a : Tab Dword) k =>
    a.put 0 k ((a.look 0 k &&& ~~~mask) ||| (q.first.look 0 k &&& mask))) old
  if x.active.getLsbD 4 then { x with bank0 := merge x.bank0, pp0 := q.period0 }
  else { x with bank1 := merge x.bank1, pp1 := q.period0 }

/-- Links of a partition's running image become FAILING: the first set that avoids those it uses is loaded, and the lead
hen swaps at the first pause point at least 96 beats ahead (R352; log entry 40). -/
def State.alternateFor (s : State) (p : Nat) (ls : List (Nat × Dir)) : State :=
  match (s.part p).img, s.leadOf p with
  | some i, some l =>
    let used := ls.filter fun q => usesLink i q.1 q.2
    if used.isEmpty || !s.running p || i.ownSwaps || i.stepPeriod = 0 then s
    else
      match i.alternates.find? fun a => used.all fun q => avoidsLink a q.1 q.2 with
      | some a =>
        let s := a.slots.foldl (fun s q => s.modRouter q.tile fun x => x.loadStandby q) s
        let w := pausePoint i.stepStart i.stepPeriod (s.region l).ctl.sched
        (s.announcePSwap l w).modPart p fun x => { x with altAt := some w }
      | none => s
  | _, _ => s

/-- The ports of tiles that a place's link joins: both ends of a link between tiles, the outward ports that an
I/O-to-half direction serves. -/
def placeLinks : WireId → List (Nat × Dir)
  | .iodLane d _ _ => (List.range 50).map (edgeTile (.iod d))
  | .seam g _ => let l := seamLink g; [l, ((neighbour l.1 l.2).getD l.1, opposite l.2)]
  | .bridge g dir w => let l := bridgeLink g dir w; [l, ((neighbour l.1 l.2).getD l.1, opposite l.2)]

/-- The link of a place becomes FAILING under the running images. -/
def State.alternate (s : State) (w : WireId) : State :=
  forAll (List.range 16) s fun p s => s.alternateFor p (placeLinks w)

/-- The corrections of a wire counted so far, and those of the last 1 s (R350, R351). -/
def Units.corrected (u : Units) (w : WireId) : Nat := ((u.corrections.find? fun q => q.1 = w).map (·.2)).getD 0
def Units.inSecond (u : Units) (w : WireId) (now : Nat) : Nat :=
  ((u.recent.filter fun q => q.1 = w && now < q.2.1 + 1000000).map (·.2.2)).sum

/-- `n` corrections are counted against the wire corrected (R350). -/
def Units.correct (u : Units) (w : WireId) (now n : Nat) : Units :=
  { u with
    corrections := (u.corrections.filter fun q => q.1 ≠ w) ++ [(w, u.corrected w + n)],
    recent := (u.recent.filter fun q => now < q.2.1 + 1000000) ++ [(w, now, n)] }

/-- WIRE_RETIRE (R350, R351): a wire's corrections are counted. At 64 within 1 s, or 16 in consecutive beats, a
spare takes over, the wire stays in service as FAILING, or its link goes DOWN. A retired spare is logged under its own
number while another takes over, and else under the wire it stood for (log entry 39). -/
def execWireRetire (corrected : WireCorrections) (s : State) : Host.Outcome State Fault Refusal :=
  onUnit (isWire corrected.wire) s fun s =>
    let wire := corrected.wire
    let v := (s.units.carries wire).getD wire
    due (wireFitted s.mgt.fuses wire && !s.wireDown v && (s.units.carries wire).isSome) s fun s =>
      let s := s.modUnits fun u => u.correct wire s.now corrected.n
      if s.units.badWires.contains wire || (s.units.inSecond wire s.now < 64 && corrected.inRow < 16) then s
      else if s.units.spareFree wire then
        ((s.modUnits fun u => u.useSpare wire).wireState v 1).wireFound wire v 1 1
      else if s.units.groupFailing wire then
        ((s.modUnits fun u => u.failing wire).wireState v 3).wireFound v v 4 3
      else
        (((s.modUnits fun u => u.failing wire).wireState v 2).wireFound v v 2 2).alternate v

/-- The word due at a router's border input in this beat is presented idle, with a late event where an applied field names
the input (R147, R351). -/
def State.spoilInput (s : State) (u : Nat) (d : Dir) : State :=
  let r := s.region (regionOf u)
  let tr := s.inTransit u d
  let c := if tr then r.clk.count else r.ctl.sched
  let n := dueWord c ((allowance u d).getD 0) ((s.router u).slack d)
  let named := namesInput ((s.router u).fields r.ctl r.clk.count) (dirNo d)
  let s := s.modRouter u fun x =>
    let q := x.bq.look {} (bqKey d tr)
    { x with bq := x.bq.put {} (bqKey d tr) { q with held := q.held.filter fun w => (w.1 : Int) ≠ n } }
  if named then s.lateWord u (dirNo d) tr c else s

/-- The same at an edge router's port, where an entry stores the word. -/
def State.spoilEdge (s : State) (e : EdgeId) (p : Nat) : State :=
  let (t, side) := edgeTile e p
  let n := s.edgeDue t side
  let c := (s.region (regionOf t)).ctl
  let stores : Bool := c.tables && !c.held && ((s.edge e).shareOf c.part).isSome &&
    eOp ((s.edge e).ports.look ({} : EPort) p).entry = 2
  let s := s.modEdge e fun g =>
    let y := g.ports.look {} p
    { g with ports := g.ports.put {} p { y with bq := { y.bq with held := y.bq.held.filter fun w => (w.1 : Int) ≠ n } } }
  if stores then s.lateEdge e p else s

/-- The words of a check group in this beat; the control wires of a seam group carry none. -/
def State.spoil (s : State) (w : WireId) : State :=
  match w with
  | .iodLane d dir _ =>
    forAll (List.range 50) s fun p s =>
      if dir = 0 then s.spoilEdge (.iod d) p else let t := edgeTile (.iod d) p; s.spoilInput t.1 t.2
  | .seam g _ => if g.group = 17 then s else let l := seamLink g; s.spoilInput ((neighbour l.1 l.2).getD l.1) (opposite l.2)
  | .bridge g dir k => let l := bridgeLink g dir k; s.spoilInput ((neighbour l.1 l.2).getD l.1) (opposite l.2)

/-- DOUBLE_WIRE_ERROR (R351): two wrong wires in one check group in a beat; DOWN at the second such beat within 1 s. -/
def execDoubleWireError (wire : WireId) (s : State) : Host.Outcome State Fault Refusal :=
  onUnit (isWire wire) s fun s =>
    let v := (s.units.carries wire).getD wire
    due (wireFitted s.mgt.fuses wire && !s.wireDown v && (s.units.carries wire).isSome) s fun s =>
      let k := checkGroup v
      let again := s.units.doubles.any fun q => q.1 = k.1 && q.2.1 = k.2 && s.now ≤ q.2.2 + 1000000
      let s := s.spoil v
      let s := s.modUnits fun u => { u with
        doubles := (k.1, k.2, s.now) :: u.doubles.filter fun q => !(q.1 = k.1 && q.2.1 = k.2) }
      if again then (s.wireState v 3).wireFound v v 4 4 else s.wireToken v 4

/-! ## Hens, ring, crossings, staging blocks (R30, R160, R353) -/

/-- Every tile of a region is FAILED with its hen (R296, R353): the hen is logged, not each tile (log entry 41). -/
def State.henTiles (s : State) (r : Nat) : State :=
  forAll (regionTiles r) s fun t s =>
    let old := s.tileState t
    if old = 0 || old = 3 then s.modUnits fun u => { u with tiles := u.tiles.put 0 t 2 } else s

/-- HEN_POLL (R353): a poll answered drains the hen's fault queue (log entry 42); after three missed polls the hen is
FAILED, its tiles FAILED and the region ISOLATED until the next boot. -/
def execHenPoll (r : Nat) (ok : Bool) (s : State) : Host.Outcome State Fault Refusal :=
  onUnit (r < 40) s fun s =>
    due (s.mgt.ready && !(s.region r).henBad) s fun s =>
      if ok then s.modRegion r fun x => { x with
        missedPolls := 0, faults := (List.range x.faults.items.length).foldl (fun q _ => q.pop) x.faults }
      else
        let s := s.modRegion r fun x => { x with missedPolls := x.missedPolls + 1 }
        due (3 ≤ (s.region r).missedPolls) s fun s =>
          let s := (s.modRegion r fun x => { x with henBad := true }).henTiles r
          ((s.log 3 2 r).cper { source := 7, unitKind := 3, finding := 2, unit := r, published := true }).isolate r true

/-- What two failed segments cut off from I/O die 0 (R30). -/
def State.cutOff (s : State) : State :=
  let s := forAll (List.range 16) s fun x s =>
    if hbmFitted s.mgt.fuses x && !s.ringJoins (.iod 0) (.hbm x) then s.failSite x else s
  forAll [1, 2, 3] s fun d s =>
    if iodFitted s.mgt.fuses d && !s.ringJoins (.iod 0) (.iod d) then s.setDie d fun x => { x with laneOnly := true } else s

/-- RING_SEGMENT_FAIL (R30). -/
def execRingSegmentFail (seg : Nat) (s : State) : Host.Outcome State Fault Refusal :=
  onUnit (seg < 20) s fun s =>
    due (!s.units.segments.contains seg) s fun s =>
      (s.modUnits fun u => { u with segments := u.segments ++ [seg] }).cutOff

/-- CONTROL_CROSSING_FAIL (R160): the south crossing takes over from the north one. -/
def execControlCrossingFail (south : Bool) (s : State) : Host.Outcome State Fault Refusal :=
  onUnit true s fun s =>
    let u := s.units
    let north := u.northBad || !south
    let southB := u.southBad || south
    s.modUnits fun u => { u with
      northBad := north, southBad := southB, xjoin := if north && !southB then true else u.xjoin }

/-- STAGING_BLOCK_TEST (R353): tested while no share is held. -/
def execStagingBlockTest (e : EdgeId) (ok : Bool) (s : State) : Host.Outcome State Fault Refusal :=
  onUnit (match e with | .hbm x => x < 16 | .iod d => d < 4) s fun s =>
    let g := s.edge e
    due (edgeFitted s.mgt.fuses e && !g.share0.valid && !g.share1.valid && !ok && !g.blockBad) s fun s =>
      let s := (s.modEdge e fun g => { g with blockBad := true }).log 9 2 (stagingIndex e)
      let s := s.cper { source := 7, unitKind := 9, finding := 2, unit := stagingIndex e, published := true }
      match e with
      | .hbm x => s.failSite x
      | .iod d => s.setDie d fun x => { x with laneOnly := true }

/-! ## Router planes (R156, R194) -/

/-- ROUTER_PLANE_FEED_LOSS (R156, R194). -/
def execRouterPlaneFeedLoss (r : Nat) (s : State) : Host.Outcome State Fault Refusal :=
  onUnit (r < 40) s fun s => s.planeOff r

/-- ROUTER_PLANE_FEED_RETURN (R194): the region acquires; ROUTER_OK returns at the publication after LOCKED (R422). -/
def execRouterPlaneFeedReturn (r : Nat) (own : Bool) (s : State) : Host.Outcome State Fault Refusal :=
  onUnit (r < 40) s fun s =>
    let s := s.modPwr r fun p => { p with feedOwn := p.feedOwn || own, feedNb := p.feedNb || !own }
    s.feedCheck r

/-! ## Heat of I/O dies and stacks (R329) -/

/-- IOD_HOT (R329). -/
def execIodHot (d : Nat) (s : State) : Host.Outcome State Fault Refusal :=
  onUnit (d < 4) s fun s =>
    due (!(s.iod d).hotOnly) s fun s =>
      (s.setDie d fun x => { x with hotOnly := true }).raiseEdge (.iod d) 0 0 5 9 s.now false

/-- IOD_COOL (R329). -/
def execIodCool (d : Nat) (s : State) : Host.Outcome State Fault Refusal :=
  onUnit (d < 4) s fun s => s.setDie d fun x => { x with hotOnly := false }

/-- IOD_TRIP (R329): DEPART with reason SHUTDOWN, then dark until the next boot. -/
def execIodTrip (d : Nat) (s : State) : Host.Outcome State Fault Refusal :=
  onUnit (d < 4) s fun s =>
    due (!(s.iod d).darkTillBoot) s fun s =>
      ((s.departDie d 1 .dark).setDie d fun x => { x with darkTillBoot := true }).raiseEdge (.iod d) 0 0 5 0x0A s.now false

/-- HBM_HOT (R329). -/
def execHbmHot (x : Nat) (s : State) : Host.Outcome State Fault Refusal :=
  onUnit (x < 16) s fun s =>
    due (hbmFitted s.mgt.fuses x && !(s.site x).halfSlots) s fun s =>
      (s.modSite x fun y => { y with halfSlots := true }).raiseEdge (.hbm x) 0 0 5 8 s.now false

/-- HBM_STACK_COOL (R329). -/
def execHbmStackCool (x : Nat) (s : State) : Host.Outcome State Fault Refusal :=
  onUnit (x < 16) s fun s => s.modSite x fun y => { y with halfSlots := false }

/-! ## Coolant (R287, R330) -/

/-- The regions of a half. -/
def halfRegions (west : Bool) : List Nat := (List.range 40).filter fun r => westRegion r = west

/-- COOLANT_LOSS (R287, R330): at t0. -/
def execCoolantLoss (s : State) : Host.Outcome State Fault Refusal :=
  onUnit true s fun s =>
    due s.mgt.coolantOk s fun s =>
      let s := s.modMgt fun m => { m with coolantOk := false, coolantLost := some m.nextTick }
      due (s.mgt.pwrOk && 2 ≤ s.mgt.stage && !s.mgt.stopped) s fun s =>
        let s := forAll (List.range 40) s fun r s => (s.pwrNote r 7).requestDark r .coolant
        let s := forAll (List.range 4) s fun d s => s.setDie d fun x => { x with coolOnly := true }
        s.fly .mc (faultTok .mc 0 0 5 0x0B 0x7FFF s.now false)

/-- A half whose rails go off: cause OFF, contents lost, its planes and oscillators stopped (R319, R330). -/
def State.halfOffNow (s : State) (west : Bool) : State :=
  let s := forAll (halfRegions west) s fun r s =>
    let s := s.modPwr r fun p =>
      if p.st == .isolated then { p with wantDark := none }
      else { p with st := .dark, cause := .off, wantDark := none, darkTime := s.now }
    (s.railsOff r).planeOff r
  s.modMgt fun m => if west then { m with railsOffW := true } else { m with railsOffE := true }

/-- COOLANT_RAIL_CHECK (R330): at t0 + 20 ms. -/
def execCoolantRailCheck (westRose eastRose : Bool) (s : State) : Host.Outcome State Fault Refusal :=
  onUnit true s fun s =>
    match s.mgt.coolantLost with
    | some t0 =>
      due (!s.mgt.coolantOk && decide (t0 + 20000 ≤ s.now)) s fun s =>
        let s := if westRose && !s.mgt.railsOffW then s.halfOffNow true else s
        if eastRose && !s.mgt.railsOffE then s.halfOffNow false else s
    | none => s

/-- COOLANT_DEPART (R330): at t0 + 10 s every die departs and its ports go dark. -/
def execCoolantDepart (s : State) : Host.Outcome State Fault Refusal :=
  onUnit true s fun s =>
    match s.mgt.coolantLost with
    | some t0 =>
      due (!s.mgt.coolantOk && decide (t0 + 10000000 ≤ s.now)) s fun s =>
        forAll (List.range 4) s fun d s =>
          (s.departDie d 4 .dark).modIod d fun x => { x with st := if x.st == .absent then .absent else .dark }
    | none => s

/-- COOLANT_RETURN (R330): before any rail went off, regions leave retention and dies return; dark ports go DOWN, from
where they are retrained. -/
def execCoolantReturn (s : State) : Host.Outcome State Fault Refusal :=
  onUnit true s fun s =>
    due (!s.mgt.coolantOk) s fun s =>
      let s := s.modMgt fun m => { m with coolantOk := true, coolantLost := none }
      due (!s.mgt.railsOffW && !s.mgt.railsOffE) s fun s =>
        let s := forAll (List.range 40) s fun r s => (s.modPwr r fun p => { p with coolOff := false }).reasonGone r
        let s := forAll (List.range 48) s fun p s =>
          if (s.iod (dieOf p)).coolOnly && (s.port p).st == .dark && !(s.iod (dieOf p)).darkTillBoot then
            s.modPort p fun x => { x with st := .down, downByDepart := false } else s
        forAll (List.range 4) s fun d s => s.setDie d fun x => { x with coolOnly := false }

/-! ## Resets and shutdowns (R252, R308, R330) -/

/-- What module flash and the one-time store keep (R288 to R300, R358, R368). -/
def Mgt.flash (m : Mgt) : Mgt :=
  { ({ fuses := m.fuses } : Mgt) with
    slotA := { m.slotA with failed := false }, slotB := { m.slotB with failed := false },
    cfgSlot := m.cfgSlot, cfgRestore := m.cfgRestore, cfgStriped := m.cfgStriped, fdl := m.fdl, keys := m.keys,
    imageKeys := m.imageKeys, saved := m.saved, dropBins := m.dropBins, warnCond := m.warnCond, eolCond := m.eolCond, boot := m.boot,
    cperId := m.cperId }

/-- What the stacks keep without power (R208): repaired rows. -/
def Site.cold (y : Site) : Site := { ({} : Site) with repaired := y.repaired, hardRows := y.hardRows }

/-! Counters that only power-on resets stand over a module reset (R121, R158, R182, R198, R225, R259, R283, R332, R359,
R360). -/

def Tile.warm (x : Tile) : Tile :=
  { ({} : Tile) with
    spr := { corr := x.spr.corr, uncorr := x.spr.uncorr },
    test := { arrCount := x.test.arrCount, rtrCount := x.test.rtrCount, tests := x.test.tests } }
def Router.warm (x : Router) : Router :=
  { ({} : Router) with
    count := x.count, lateCount := x.lateCount, overCount := x.overCount, pSwaps := x.pSwaps, tSwaps := x.tSwaps }
def Region.warm (x : Region) : Region :=
  { ({} : Region) with
    ctl := { holds := x.ctl.holds, errCount := x.ctl.errCount, stale := x.ctl.stale },
    clk := { slipReqs := x.clk.slipReqs, droops := x.clk.droops, errCount := x.clk.errCount },
    pwr := { errCount := x.pwr.errCount }, test := { lapses := x.test.lapses } }
def Edge.warm (g : Edge) : Edge := { ({} : Edge) with lateCount := g.lateCount, missCount := g.missCount }
def Site.warm (y : Site) : Site :=
  { y.cold with
    corr := y.corr, uncorr := y.uncorr, soft := y.soft, hard := y.hard, oxq := { n := 10, drops := y.oxq.drops },
    edge := y.edge.warm }
def Iod.warm (x : Iod) : Iod :=
  { ({} : Iod) with
    timeouts := x.timeouts, lateRsp := x.lateRsp, nacks := x.nacks, expired := x.expired, quiesced := x.quiesced,
    malformed := x.malformed, denied := x.denied, transit := x.transit, noRoute := x.noRoute, dropped := x.dropped,
    stale := x.stale, duplicate := x.duplicate, edge := x.edge.warm,
    fq := x.fq.foldl (fun t q => t.put { n := 9 } q.1 { n := 9, drops := q.2.drops }) [] }
def Port.warm (x : Port) : Port :=
  { ({} : Port) with
    cwUncorr := x.cwUncorr, crcErr := x.crcErr, replays := x.replays, laneRetires := x.laneRetires,
    lanes := x.lanes.foldl (fun t q => t.put {} q.1 { ({} : Lane) with symCorr := q.2.symCorr }) [] }
def Chan.warm (x : Chan) : Chan :=
  { ({} : Chan) with lateRx := x.lateRx, lateTx := x.lateTx, digestRej := x.digestRej, missing := x.missing }

/-- Every member of a table made afresh. -/
def Tab.remake {α : Type} [DecidableEq α] (d : α) (t : Tab α) (f : α → α) : Tab α :=
  t.foldl (fun a q => a.put d q.1 (f q.2)) []

/-- The module with every block as after power-on but the controller's flash and the repairs of the stacks; what it has
written to the host, and the commands that wait, stand. -/
def State.cleared (s : State) (m : Mgt) : State :=
  { State.reset with
    pending := s.pending, mgt := m, sites := Tab.remake {} s.sites Site.cold, host := s.host, msix := s.msix, free := s.free }

/-- The same over a module reset, in which the stacks keep their data (R205) and the power-on counters stand (log entry
43). -/
def State.clearedWarm (s : State) (m : Mgt) : State :=
  { s.cleared m with
    sites := Tab.remake {} s.sites Site.warm, tiles := Tab.remake {} s.tiles Tile.warm,
    routers := Tab.remake {} s.routers Router.warm, regions := Tab.remake {} s.regions Region.warm,
    iods := Tab.remake {} s.iods Iod.warm, ports := Tab.remake {} s.ports Port.warm,
    chans := Tab.remake {} s.chans Chan.warm, dlog := { discards := s.dlog.discards }, hbm := s.hbm }

/-- MODULE_RESET (R330): 10 s after the coolant's return with every sensor at 60 °C or less; the controller, its
firmware, PWR_OK and the I3C address stay (R404; log entry 43); the configuration record is read again (R292). -/
def execModuleReset (s : State) : Host.Outcome State Fault Refusal :=
  onUnit true s fun s =>
    let m := s.mgt
    due (m.coolantOk && (m.railsOffW || m.railsOffE)) s fun s =>
      s.clearedWarm { m.flash with
        stage := 2, slot := m.slot, svn := m.svn, pwrOk := m.pwrOk, perstLow := m.perstLow, perstPin := m.perstPin,
        perstWindow := m.perstWindow, pcieTraining := m.pcieTraining, pcieWait := m.pcieWait, i3c := m.i3c, restore := m.cfgRestore,
        bootStriped := m.cfgStriped, slotA := m.slotA, slotB := m.slotB, boot := m.boot + 1, spdmOut := m.spdmOut,
        accCount := m.accCount }

/-- BUSBAR_SHUTDOWN (R308, R404, R405): the module is unpowered. -/
def execBusbarShutdown (s : State) : Host.Outcome State Fault Refusal :=
  onUnit true s fun s => s.cleared { s.mgt.flash with powered := false, spdmOut := s.mgt.spdmOut }

/-- COMMANDED_SHUTDOWN (R252): DEPART with reason SHUTDOWN on every UP port, then the transmitters go dark. -/
def execCommandedShutdown (s : State) : Host.Outcome State Fault Refusal :=
  onUnit true s fun s =>
    due s.mgt.ready s fun s =>
      let s := forAll (List.range 4) s fun d s =>
        (s.departDie d 1 .dark).setDie d fun x => { x with darkTillBoot := true }
      s.modMgt fun m => { m with darkened := true }

end Sys2Proof.Machine
end

