-- ==== Sys2Proof/Machine/Map.lean ====
section
/-!
DEFINITION. The as-built map: its contents, its publication and its bytes, with the end-of-life conditions evaluated at
each publication (R33 to R40, R357, R358, R422).
-/
namespace Sys2Proof.Machine

/-! ## Contents -/

/-- The state byte of a tile: STATE and ROUTER_OK (R37). -/
def State.tileByte (s : State) (t : Nat) : BitVec 8 := BitVec.ofNat 8 (s.tileState t + 4 * b2n (s.routerOk t))

/-- The link byte of a tile. -/
def State.linkByte (s : State) (t : Nat) : BitVec 8 :=
  BitVec.ofNat 8 (([0, 1, 2, 3] : List Nat).map fun i => 4 ^ i * s.linkState t (dirOf i)).sum

/-- The codes of region, site and die states. -/
def regCode : RegSt → Nat
  | .normal => 0 | .capped => 1 | .dark => 2 | .isolated => 3
def siteCode : SiteSt → Nat
  | .ok => 0 | .degraded => 1 | .failed => 2 | .absent => 3
def iodCode : IodSt → Nat
  | .running => 0 | .transitOnly => 1 | .dark => 2 | .absent => 3

/-- TILES_GOOD of a region. -/
def State.goodTiles (s : State) (r : Nat) : Nat := 500 - ((keysIn s.units.tiles r).filter fun t => s.tileState t ≠ 0).length

/-- The region record. -/
def State.regRec (s : State) (r : Nat) : RegRec :=
  let p := (s.region r).pwr
  { phFailed := p.phFailed, st := regCode p.st, topMhz := p.topMhz, feed := b2n p.feedOwn + 2 * b2n p.feedNb,
    crack := p.crack, limitA := p.limitA, good := s.goodTiles r }

/-- The HBM site record: GIB by the channels of the last boot, 0 while FAILED or ABSENT (R202). -/
def State.siteRec (s : State) (x : Nat) : SiteRec :=
  let y := s.site x
  if !hbmFitted s.mgt.fuses x then { st := 3 }
  else { fitted := true, st := siteCode y.st, chFailed := y.chFailed, chRepaired := y.chRepaired,
         gib := if y.st == .failed then 0 else 2 * y.chans.length, mbps := y.mbps }

/-- The I/O die record. -/
def State.iodRec (s : State) (d : Nat) : IodRec :=
  let x := s.iod d
  if !iodFitted s.mgt.fuses d then { st := 3 }
  else { fitted := true, isS := s.mgt.fuses.iodS.getLsbD d, st := iodCode x.st, capLevel := x.capLevel,
         portsUp := (List.range 12).foldl (fun (m : BitVec 12) p =>
           if (s.port (12 * d + p)).st == .up then setBit m p else m) 0 }

/-- Wires of a record that are retired, with or without a spare, counted with the spares that were in use (R40). -/
def Units.retiredOf (u : Units) (pool : Nat × Nat × Nat) : Nat :=
  (u.spared.filter fun q => wirePool q.1 = pool).length + (u.badWires.filter fun w => wirePool w = pool).length +
    (u.spent.filter fun w => wirePool w = pool).length

/-- Spares of a record in use. -/
def Units.sparesOf (u : Units) (pool : Nat × Nat × Nat) : Nat := (u.spared.filter fun q => wirePool q.1 = pool).length

/-- A centre-join record: the worst of its rows' links in its direction (R24, R40). -/
def State.bridgeGrp (s : State) (g dir : Nat) : LaneGrp :=
  let u := s.units
  let st := ([0, 1, 2, 3] : List Nat).foldl (fun a i =>
    let l := bridgeLink g dir (560 * i)
    max a (u.links.look 0 (4 * l.1 + dirNo l.2))) 0
  { type := 1, dir := dir, instNo := g, lanes := 2240, spTotal := 16, spUsed := u.sparesOf (1, g, dir),
    failed := u.retiredOf (1, g, dir), st := st }

/-- An I/O-to-half record. -/
def State.iodGrp (s : State) (d dir : Nat) : LaneGrp :=
  let u := s.units
  { type := 2, dir := dir, instNo := d, lanes := 960, spTotal := 32, spUsed := u.sparesOf (2, d, dir),
    failed := u.retiredOf (2, d, dir), st := u.laneState d dir }

/-- An Irant port's record, the same in both directions (R256, R423); a port that has not qualified reads DOWN (log
entry 50). -/
def State.portGrp (s : State) (p : Nat) (rx : Bool) : LaneGrp :=
  let x := s.port p
  let wide : Bool := 8 ≤ x.inService.length
  let spare := wide && x.inService.contains 8
  let ok : Bool := x.st == .up || x.st == .ready
  { type := if rx then 4 else 3, dir := 0, instNo := p, lanes := if wide then 8 else 4, spTotal := 1,
    spUsed := b2n spare, failed := popcount x.retired,
    st := if !ok then 3 else if !wide then 2 else if spare then 1 else 0 }

/-- The lane group records in the order of R40. -/
def State.laneGroups (s : State) : List LaneGrp :=
  ((List.range 25).flatMap fun g => [s.bridgeGrp g 0, s.bridgeGrp g 1]) ++
    (([0, 1, 2, 3] : List Nat).filter fun d => iodFitted s.mgt.fuses d).flatMap fun d =>
      [s.iodGrp d 0, s.iodGrp d 1] ++
        (List.range 12).flatMap fun p => [s.portGrp (12 * d + p) false, s.portGrp (12 * d + p) true]

/-- A numbered list as a table, without defaults. -/
def tabOf {α : Type} [DecidableEq α] (d : α) (n : Nat) (f : Nat → α) : Tab α :=
  (List.range n).filterMap fun k => if f k = d then none else some (k, f k)

/-- The lane records, each dated at the publication that last changed it (log entry 51). -/
def datedLanes (old : Tab LaneGrp) (now : Nat) (l : List LaneGrp) : Tab LaneGrp :=
  tabOf {} l.length fun k =>
    let o := old.look {} k
    let n := l.getD k {}
    if { o with changedAt := 0 } = n then o else { n with changedAt := now % 2 ^ 32 }

/-- The map as the units stand; CHANGED_AT is that of the last publication. -/
def State.floor (s : State) : Floor :=
  let old := match s.mgt.pub with
    | some f => f
    | none => {}
  { tiles := tabOf 4 20000 s.tileByte, links := tabOf 0 20000 s.linkByte, regions := tabOf {} 40 s.regRec,
    sites := tabOf {} 16 s.siteRec, iods := tabOf {} 4 s.iodRec, lanes := datedLanes old.lanes s.now s.laneGroups,
    numLevel := s.mgt.numLevel, changedAt := old.changedAt }

/-! ## End of life (R357, R358) -/

/-- Two bounds of a condition: reached EOL_WARN, reached EOL. -/
def bounds (n warn eol : Nat) : Bool × Bool := (decide (warn ≤ n), decide (eol ≤ n))

/-- The conditions of R357 in order, each as (EOL_WARN, EOL). -/
def State.eolConds (s : State) : List (Bool × Bool) :=
  let good := 20000 - (s.units.tiles.filter fun q => q.2 ≠ 0).length
  let b := s.mgt.fuses.gradeB
  let count := fun (f : HenPwr → Bool) => ((List.range 40).filter fun r => f (s.region r).pwr).length
  let rows := ((List.range 100).filter fun y =>
    s.units.links.look 0 (4 * (200 * y + 99) + 1) = 3 || s.units.links.look 0 (4 * (200 * y + 100) + 3) = 3).length
  let nStacks := ((List.range 16).filter fun x => hbmFitted s.mgt.fuses x && (s.site x).st == .failed).length
  let lost := fun (d : Nat) => iodFitted s.mgt.fuses d && (s.iod d).laneOnly
  let dies := (([0, 1, 2, 3] : List Nat).filter lost).length
  let ports := ((List.range 48).filter fun p =>
    (s.port p).st == .retired || ((s.port p).st == .down && (s.port p).failedQual)).length
  [(!b && decide (good < 18600), !b && decide (good < 18000)), (b && decide (good < 17800), b && decide (good < 17200)),
    bounds (count fun p => (p.st == .dark && p.cause == .phases) || (p.st == .isolated && p.noReturn)) 1 3,
    bounds ((List.range 40).map fun r => popcount (s.region r).pwr.phFailed).sum 320 640,
    bounds (count fun p => p.crack) 1 3, bounds rows 4 10,
    bounds nStacks 1 (if s.mgt.fuses.nStacks = 8 then 1 else 2),
    (decide (0 < dies) && !lost 0, lost 0 || decide (2 ≤ dies)), bounds ports 4 12,
    bounds (b2n s.units.northBad + b2n s.units.southBad) 1 2]

/-- A condition reaches a column for the first time: latched, exported, and the EOL event raised (R358). -/
def State.latchEol (s : State) (i : Nat) (eol : Bool) : State :=
  let s := s.modMgt fun m => if eol then { m with eolCond := setBit m.eolCond i } else { m with warnCond := setBit m.warnCond i }
  (s.cper { source := 5, unit := i, severity := if eol then 1 else 3 }).event 0 5

/-- The evaluation at a publication (R357). -/
def State.endOfLife (s : State) : State :=
  let c := s.eolConds
  forAll (List.range 10) s fun i s =>
    let q := c.getD i (false, false)
    let s := if q.1 && !s.mgt.warnCond.getLsbD i then s.latchEol i false else s
    if q.2 && !s.mgt.eolCond.getLsbD i then s.latchEol i true else s

/-- FAULT_N is driven low from the end of stage 0 on (R403, R405). -/
def Mgt.faultLow (m : Mgt) : Bool := m.pwrOk && (m.fail ≠ 0 || m.recovery || m.eolCond ≠ 0)

/-! ## Publication (R34, R35, R422) -/

/-- ROUTER_OK returns for a region whose plane is LOCKED again (R422). -/
def State.relock (s : State) : State :=
  s.modUnits fun u => { u with planeLost := u.planeLost.filter fun r =>
    !((s.region r).planeOn && (s.region r).clk.st == .locked) }

/-- The map is published under the next generation, and every enabled function sees MAP_CHANGE (R35, R392). -/
def State.publish (s : State) : State :=
  let f := { s.floor with changedAt := s.now }
  let s := s.modMgt fun m => { m with pub := some f, gen := BitVec.ofNat 32 (nextGen m.gen) }
  let s := (0 :: (List.range 17).filter fun k => 0 < k && (s.fn k).enabled).foldl (fun s k => s.event k 0) s
  s.endOfLife

/-- MAP_PUBLICATION (R35): the changes of a 1 ms interval are published together. -/
def execMapPublication (s : State) : Host.Outcome State Fault Refusal :=
  onUnit true s fun s =>
    due s.mgt.ready s fun s =>
      let s := s.relock
      due (s.mgt.pub ≠ some s.floor) s fun s => s.publish

/-! ## The map's bytes (R33, R36, R39, R40) -/

/-- Tiles in a state. -/
def Floor.count (f : Floor) (st : Nat) : Nat :=
  if st = 0 then 20000 - (f.tiles.filter fun q => bits q.2 1 0 ≠ 0).length
  else (f.tiles.filter fun q => bits q.2 1 0 = st).length

/-- Bits by site. -/
def hbmBits (f : Fuses) : Nat := ((List.range 16).map fun x => 2 ^ x * b2n (hbmFitted f x)).sum
def iodBits (f : Fuses) : Nat := ((List.range 4).map fun d => 2 ^ d * b2n (iodFitted f d)).sum

/-- The map header. -/
def headerBytes (m : Mgt) (f : Floor) : List Byte :=
  leBytes 4 m.gen.toNat ++ leBytes 2 1 ++ leBytes 2 12 ++ leBytes 1 m.fuses.nStacks ++ leBytes 1 m.fuses.iods ++
    leBytes 1 (b2n m.fuses.gradeB) ++ leBytes 1 f.numLevel ++ leBytes 1 m.fuses.stepWest ++ leBytes 1 m.fuses.stepEast ++
    leBytes 2 (hbmBits m.fuses) ++ leBytes 1 (iodBits m.fuses) ++ leBytes 1 m.fuses.iodS.toNat ++ leBytes 2 0 ++
    leBytes 2 (f.count 0) ++ leBytes 2 (f.count 1) ++ leBytes 2 (f.count 2) ++ leBytes 2 (f.count 3) ++
    leBytes 2 (50 + 26 * m.fuses.iods) ++ leBytes 2 0 ++ leBytes 8 f.changedAt

/-- A region record of 32 bytes. -/
def regBytes (r : RegRec) : List Byte :=
  leBytes 8 r.phFailed.toNat ++ leBytes 1 (popcount r.phFailed) ++ leBytes 1 r.st ++ leBytes 2 r.topMhz ++
    leBytes 1 r.feed ++ leBytes 1 (b2n r.crack) ++ leBytes 2 r.limitA ++ leBytes 2 r.good

/-- A site record of 16 bytes. -/
def siteBytes (r : SiteRec) : List Byte :=
  leBytes 1 (b2n r.fitted) ++ leBytes 1 r.st ++ leBytes 2 0 ++ leBytes 4 r.chFailed.toNat ++
    leBytes 4 r.chRepaired.toNat ++ leBytes 2 r.gib ++ leBytes 2 r.mbps

/-- A die record of 64 bytes. -/
def iodBytes (r : IodRec) : List Byte :=
  leBytes 1 (b2n r.fitted) ++ leBytes 1 (b2n r.isS) ++ leBytes 1 r.st ++ leBytes 1 r.capLevel ++ leBytes 2 r.portsUp.toNat

/-- A lane group record of 16 bytes. -/
def laneBytes (r : LaneGrp) : List Byte :=
  leBytes 1 r.type ++ leBytes 1 r.dir ++ leBytes 2 r.instNo ++ leBytes 2 r.lanes ++ leBytes 1 r.spTotal ++
    leBytes 1 r.spUsed ++ leBytes 2 r.failed ++ leBytes 1 r.st ++ leBytes 1 0 ++ leBytes 4 r.changedAt

/-- A byte of the map; before the first publication all zero (R33). -/
def Mgt.mapByte (m : Mgt) (a : Nat) : Byte :=
  match m.pub with
  | none => 0
  | some f =>
    if a < 0x100 then (headerBytes m f).getD a 0
    else if a < 0x100 + 20000 then f.tiles.look 4 (a - 0x100)
    else if a < 0x5000 then 0
    else if a < 0x5000 + 20000 then f.links.look 0 (a - 0x5000)
    else if a < 0xA000 then 0
    else if a < 0xA500 then (regBytes (f.regions.look {} ((a - 0xA000) / 32))).getD (a % 32) 0
    else if a < 0xA800 then 0
    else if a < 0xA900 then (siteBytes (f.sites.look {} ((a - 0xA800) / 16))).getD (a % 16) 0
    else if a < 0xAA00 then (iodBytes (f.iods.look {} ((a - 0xA900) / 64))).getD (a % 64) 0
    else if a < 0xBA00 then (laneBytes (f.lanes.look {} ((a - 0xAA00) / 16))).getD (a % 16) 0
    else 0

end Sys2Proof.Machine
end

