-- ==== Sys2Proof/Machine/Bringup.lean ====
section
/-!
DEFINITION. Bring-up from power good to READY, firmware slots, recovery and live activation (R284 to R307, R402, R407).
-/
namespace Sys2Proof.Machine

/-! ## Stages and stops (R284, R307) -/

/-- The controller works at a stage of bring-up. -/
def Mgt.at (m : Mgt) (n : Nat) : Bool := m.powered && m.stage = n && !m.stopped && !m.recovery && !m.ready

/-- Bring-up stops at its stage with a code (R307). -/
def Mgt.halt (m : Mgt) (code : Nat) : Mgt := { m with stopped := true, fail := code }

/-- The retry of a code that allows one, from stage 2 (R307; log entry 47). -/
def Mgt.retry (m : Mgt) : Mgt :=
  if m.stopped && !m.retried && (m.fail = 4 || m.fail = 5 || m.fail = 6) then
    { m with retried := true, stopped := false, fail := 0, stage := 2 }
  else m

/-- A stage from 2 on is due while the coolant is good and both halves are out of retention for its sake (R287). -/
def State.works (s : State) (n : Nat) : Bool :=
  s.mgt.at n && s.mgt.coolantOk && !s.mgt.railsOffW && !s.mgt.railsOffE && (List.range 40).all fun r =>
    let p := (s.region r).pwr
    !p.coolOff && !(p.st == .dark && p.cause == .coolant) && p.wantDark ≠ some .coolant

/-- The training and interleave modes of a boot are those the configuration record holds at its start (R292). -/
def Mgt.bootModes (m : Mgt) : Mgt := { m with restore := m.cfgRestore, bootStriped := m.cfgStriped }

/-- POWER_GOOD (R284, R404): stage 0 ends, PWR_OK rises and a new boot is counted (R298). -/
def execPowerGood (s : State) : Host.Outcome State Fault Refusal :=
  onUnit true s fun s =>
    due (s.mgt.stage = 0 && !s.mgt.pwrOk) s fun s => s.modMgt fun m => { m.bootModes with
      powered := true, pwrOk := true, stage := 1, boot := m.boot + 1, perstLow := true, perstWindow := true }

/-! ## Firmware (R288 to R292) -/

/-- An image that the boot ROM accepts (R288). -/
def fwGood (bs : List Host.Cell) : Bool :=
  Config.firmwareOk bs && decide (Config.minimumSvn.toNat ≤ (Config.firmwareSvn bs).toNat)

/-- The slot stage 1 starts: the active one, else the other (R288, R289). -/
def Mgt.pickSlot (m : Mgt) (first : Bool) : Option Bool :=
  [first, !first].find? fun b => !(m.slotOf b).failed && fwGood (m.slotOf b).bytes

/-- In RECOVERY the halves have no power: rails, planes and oscillators are off, and READY is gone with them (R290; log
entry 129). -/
def State.unpower (s : State) : State :=
  if !s.mgt.recovery then s
  else (forAll (List.range 40) s fun r s => (s.railsOff r).planeOff r).modMgt fun m => { m with ready := false }

/-- CONTROLLER_FIRMWARE (R288, R299): a slot is authenticated and started, or the controller enters RECOVERY; a controller
that restarted after READY takes up its duties again (log entry 49). -/
def execControllerFirmware (s : State) : Host.Outcome State Fault Refusal :=
  onUnit true s fun s =>
    let m := s.mgt
    due (m.powered && m.stage = 1 && !m.stopped && !m.recovery) s fun s =>
      match m.pickSlot (if (m.slotOf m.cfgSlot).failed then !m.cfgSlot else m.cfgSlot) with
      | some b => s.modMgt fun m => { m with
          slot := b, svn := Config.firmwareSvn (m.slotOf b).bytes,
          restarts := if b = m.slot && !m.ready then m.restarts else 0, stage := if m.ready then 9 else 2 }
      | none => (s.modMgt fun m => { m with recovery := true, fail := 1 }).unpower

/-- The slot that runs has failed; with both failed the module waits in RECOVERY (R289). -/
def Mgt.dropSlot (m : Mgt) : Mgt :=
  let m := m.setSlot m.slot { m.slotOf m.slot with failed := true }
  if (m.slotOf (!m.slot)).failed then { m with recovery := true, fail := 1 } else { m with restarts := 0 }

/-- A restart of stage 1; the third in a row fails the slot (R289). -/
def Mgt.restart (m : Mgt) : Mgt :=
  let m := { m with
    restarts := m.restarts + 1, stage := 1, act := if m.act == .running then .failed else m.act }
  if 3 ≤ m.restarts then m.dropSlot else m

/-- WATCHDOG_EXPIRY (R289): stage 1 is repeated; after three restarts in one slot the other is used. -/
def execWatchdogExpiry (s : State) : Host.Outcome State Fault Refusal :=
  onUnit true s fun s =>
    due (s.mgt.powered && 2 ≤ s.mgt.stage && !s.mgt.recovery && !s.mgt.stopped) s fun s => (s.modMgt Mgt.restart).unpower

/-- A recovery image (R290): accepted, it goes to the slot not in use, which becomes active, and stage 1 begins. -/
def Mgt.recover (m : Mgt) (bs : List Host.Cell) : Mgt :=
  let b := !m.slot
  let m := m.setSlot b { bytes := bs, valid := true, failed := false }
  { m with cfgSlot := b, recovery := false, fail := 0, stage := 1, restarts := 0 }

/-- SPDM_RECOVERY_IMAGE (R290). -/
def execSpdmRecoveryImage (fw : List Byte) (s : State) : Host.Outcome State Fault Refusal :=
  onUnit true s fun s =>
    let bs := writeBytes [] 0 fw
    due (s.mgt.recovery && s.mgt.i3c.isSome && fwGood bs) s fun s => s.modMgt fun m => m.recover bs

/-- ACTIVATE in MGT_FW (R291): the standby image is authenticated and takes over. -/
def Mgt.activate (m : Mgt) (now : Nat) : Mgt :=
  let q := m.slotOf (!m.slot)
  if !m.ready then { m with actLast := 6 }
  else if m.act == .running || !q.valid then { m with actLast := 5 }
  else if !fwGood q.bytes then { m with act := .failed, actLast := 23 }
  else { m with act := .running, actTime := now, actLast := 0, slot := !m.slot, svn := Config.firmwareSvn q.bytes }

/-- ACTIVATION_HEALTHY (R291): within 10 s; the new slot is active. -/
def execActivationHealthy (s : State) : Host.Outcome State Fault Refusal :=
  onUnit true s fun s =>
    due (s.mgt.act == .running && decide (s.now < s.mgt.actTime + 10000000)) s fun s =>
      s.modMgt fun m => { m with act := .done, cfgSlot := m.slot }

/-- ACTIVATION_TIMEOUT (R291): control goes back to the previous image. -/
def execActivationTimeout (s : State) : Host.Outcome State Fault Refusal :=
  onUnit true s fun s =>
    due (s.mgt.act == .running && decide (s.mgt.actTime + 10000000 ≤ s.now)) s fun s =>
      s.modMgt fun m => { m with
        act := .failed, actLast := 23, slot := !m.slot, svn := Config.firmwareSvn (m.slotOf (!m.slot)).bytes }

/-! ## Stages 2 to 5 -/

/-- The always-on supply of a half feeds the planes; a block that is ISOLATED feeds none (R284, R315).  The rails of the
regions that may be on are asked for (R317). -/
def State.feedUp (s : State) (r : Nat) : State :=
  let ok := fun (q : Nat) => (s.region q).pwr.st ≠ .isolated
  let s := (s.modPwr r fun p => { p with feedOwn := ok r, feedNb := ok (partner r) }).feedCheck r
  if ok r && (s.region r).pwr.reason.isNone then s.requestRamp r else s

/-- HALF_ALWAYS_ON_POWER (R284, R307): the planes, hens and oscillators of both halves start; after a stop that allows it
this is the retry. -/
def execHalfAlwaysOnPower (ok : Bool) (s : State) : Host.Outcome State Fault Refusal :=
  onUnit true s fun s =>
    let q := s.modMgt Mgt.retry
    due (q.works 2) s fun _ =>
      if ok then (forAll (List.range 40) q fun r s => s.feedUp r).modMgt fun m => { m with stage := 3 }
      else q.modMgt fun m => m.halt 4

/-- FUSE_MAPS (R293): the fused states, in logical coordinates (R10); sites that are not fitted are ABSENT. -/
def execFuseMaps (s : State) : Host.Outcome State Fault Refusal :=
  onUnit true s fun s =>
    due (s.works 3) s fun s =>
      let f := s.mgt.fuses
      if !f.checkOk then s.modMgt fun m => m.halt 2
      else
        let s := { s with units := {
          tiles := f.tiles.foldl (fun (a : Tab Nat) t => a.put 0 t 1) [], badRouters := f.routers,
          planeLost := s.units.planeLost } }
        let s := forAll (List.range 16) s fun x s => s.modSite x fun y => { y with st := if hbmFitted f x then .ok else .absent }
        let s := forAll (List.range 4) s fun d s => s.modIod d fun x => { x with
          st := if iodFitted f d then .running else .absent, hotOnly := false, laneOnly := false, darkTillBoot := false }
        s.modMgt fun m => { m with stage := 4 }

/-- The units of one kind that the log names with a finding, in the order of its entries. -/
def Mgt.loggedAs (m : Mgt) (kind finding : Nat) : List Nat :=
  (m.fdl.filter fun e => e.kind = kind && e.finding = finding).map fun e => e.index.toNat

/-- Units from their INDEX (R298). -/
def seamAt (i : Nat) : SeamGroup :=
  { tile := i % 2 ^ 15, northSouth := i.testBit 15, toLower := i.testBit 16, group := i / 2 ^ 17 % 32 }
def wireOfIndex (kind i : Nat) : WireId :=
  if kind = 5 then .bridge (i % 32) (i / 32 % 2) (i / 64 % 4096) else .iodLane (i % 4) (i / 4 % 2) (i / 8 % 1024)
def Mgt.loggedWires (m : Mgt) (kind finding : Nat) : List WireId := (m.loggedAs kind finding).map (wireOfIndex kind)

/-- The link of a seam group moves on. -/
def State.seamState (s : State) (g : SeamGroup) (st : Nat) : State := let l := seamLink g; s.linkTo l.1 l.2 st

/-- What fuses and log say of seams (R294, R423): a spare taken, a spare lost (log entry 48), FAILING, DOWN. -/
def State.oldSeams (s : State) : State :=
  let m := s.mgt
  let s := (m.fuses.seamSpares ++ (m.loggedAs 4 1).map seamAt).foldl (fun s g =>
    (s.modUnits fun u => { u with seamUsed := if u.seamUsed.contains g then u.seamUsed else u.seamUsed ++ [g] }).seamState
      g 1) s
  let s := s.modUnits fun u => { u with
    seamDead := u.seamDead ++ (m.loggedAs 4 3).map seamAt, seamFailing := u.seamFailing ++ (m.loggedAs 4 2).map seamAt }
  let s := ((m.loggedAs 4 2).map seamAt).foldl (fun s g => s.seamState g 2) s
  ((m.loggedAs 4 4).map seamAt).foldl (fun s g => s.seamState g 3) s

/-- One seam group's test (R294): `bad` in-service wires, and whether the spare is bad. -/
def State.seamTest (s : State) (g : SeamGroup) (bad : Nat) (spareBad : Bool) : State :=
  let free := !s.units.seamUsed.contains g && !s.units.seamDead.contains g
  if bad = 0 then
    if spareBad && free then
      (s.modUnits fun u => { u with seamDead := u.seamDead ++ [g] }).log 4 3 (seamIndex g)
    else s
  else if bad = 1 && free && !spareBad then
    ((s.modUnits fun u => { u with seamUsed := u.seamUsed ++ [g] }).seamState g 1).log 4 1 (seamIndex g)
  else (s.seamState g 3).log 4 4 (seamIndex g)

/-- A spare that cannot be used: it leaves its pool, and the wire it served is without one. -/
def Units.loseSpare (u : Units) (w : WireId) : Units :=
  { u with
    spared := u.spared.filter fun q => !(wirePool q.1 = wirePool w && q.2 = wireNo w),
    badSpares := if u.badSpares.contains w then u.badSpares else u.badSpares ++ [w] }

/-- A bad wire takes the next spare of its pool, or its link is DOWN (R295, R301). -/
def State.repairWire (s : State) (w : WireId) : State :=
  let i := wireIndex w
  if s.units.spared.any fun q => q.1 = w then s
  else if s.units.spareFree w then ((s.modUnits fun u => u.useSpare w).wireState w 1).log i.1 1 i.2
  else ((s.modUnits fun u => u.failing w).wireState w 3).log i.1 4 i.2

/-- Wires in ascending order of their pools and numbers. -/
def wireOrder (l : List WireId) : List WireId :=
  sortBy (fun w => ((wirePool w).2.1 * 2 + (wirePool w).2.2) * 4096 + wireNo w) l

/-- The wires of a kind by the log and by a test (R295, R301, R423): bad spares leave the pools; the wires that the log
says hold a spare get theirs, in the order of its entries; FAILING and DOWN findings stand; then the wires found bad are
spared, in ascending order (log entry 39). -/
def State.testWires (s : State) (kind : Nat) (found : List WireId) : State :=
  let m := s.mgt
  let one := m.loggedWires kind 1
  let two := m.loggedWires kind 2
  let lose := fun (s : State) (w : WireId) => s.modUnits fun u => u.loseSpare w
  let s := ((one ++ two).filter isSpare).foldl lose s
  let s := ((wireOrder found).filter isSpare).foldl (fun s w => let i := wireIndex w; (lose s w).log i.1 2 i.2) s
  let s := (one.filter fun w => !isSpare w).foldl State.repairWire s
  let hold := fun (st : Nat) (s : State) (w : WireId) =>
    if s.units.spared.any fun q => q.1 = w then s else (s.modUnits fun u => u.failing w).wireState w st
  let s := (two.filter fun w => !isSpare w).foldl (hold 2) s
  let s := ((m.loggedWires kind 4).filter fun w => !isSpare w).foldl (hold 3) s
  ((wireOrder found).filter fun w => !isSpare w).foldl State.repairWire s

/-- SEAM_AND_BRIDGE_REPAIR (R294, R295). -/
def execSeamAndBridgeRepair (found : SeamFindings) (s : State) : Host.Outcome State Fault Refusal :=
  onUnit (found.groups.all (fun g => isSeam g.1) && found.wires.all fun w => isWire (.bridge w.1 w.2.1 w.2.2)) s fun s =>
    due (s.works 4) s fun s =>
      let s := found.groups.foldl (fun s g => s.seamTest g.1 g.2.1 g.2.2) s.oldSeams
      (s.testWires 5 (found.wires.map fun w => .bridge w.1 w.2.1 w.2.2)).modMgt fun m => { m with stage := 5 }

/-- BIST (R296): the regions that are neither ISOLATED nor off have their rails up. -/
def execBist (found : BistFindings) (s : State) : Host.Outcome State Fault Refusal :=
  onUnit (found.tiles.all (fun t => t < 20000) && found.routers.all (fun t => t < 20000) &&
      found.hens.all (fun r => r < 40) && found.phases.all (fun p => p.1 < 40 && p.2 < 64) &&
      found.hbmStaging.all (fun x => x < 16) && found.iodStaging.all (fun d => d < 4) &&
      found.tripped.all fun r => r < 40) s fun s =>
    due (s.works 5 && (List.range 40).all fun r => (s.region r).dark || (s.region r).pwr.railUp) s fun s =>
      (s.modUnits fun u => { u with bist := some found }).modMgt fun m => { m with stage := 6, bistRuns := m.bistRuns + 1 }

/-! ## Stage 6: the union rule (R297) -/

/-- A tile's STATE by fuse, log and test; a finding of this boot is logged. -/
def State.mergeTile (s : State) (b : BistFindings) (t : Nat) : State :=
  let set := fun (s : State) (v : Nat) => s.modUnits fun u => { u with tiles := u.tiles.put 0 t v }
  let fail := b.tiles.contains t && !b.tripped.contains (regionOf t)
  if s.mgt.fuses.tiles.contains t then set s 1
  else if s.logged 1 2 t then set s 2
  else if fail then (set s 2).log 1 2 t
  else if s.logged 1 3 t then set s 3
  else s

/-- Bad units of a kind: fused, logged, or found now and then logged, one that is logged RETIRED alone too (R297). -/
def State.mergeUnits (s : State) (kind : Nat) (fused found : List Nat) (eff : Nat → State → State) : State :=
  let known := fused ++ s.mgt.loggedAs kind 2
  let s := forAll (known ++ s.mgt.loggedAs kind 3) s eff
  forAll (found.filter fun i => !known.contains i) s fun i s => eff i (s.log kind 2 i)

/-- A hen that failed: its tiles FAILED and their routers bad (R296). -/
def State.badHen (r : Nat) (s : State) : State :=
  let s := (s.modRegion r fun x => { x with henBad := true }).henTiles r
  s.modUnits fun u => { u with badRouters := (regionTiles r).filter (fun t => !u.badRouters.contains t) ++ u.badRouters }

/-- A regulator phase that failed, with the state R313 gives a region in service; with 25 or more the region is DARK. -/
def State.badPhase (i : Nat) (s : State) : State :=
  s.modPwr (i % 64) fun p =>
    let p := { p with phFailed := setBit p.phFailed (i / 64 % 64) }
    let n := p.phCount
    let p := { p with topMhz := if n ≤ 16 then 1300 else if n ≤ 24 then 25 * (64 - n) else p.topMhz }
    if p.st == .isolated then p
    else if 25 ≤ n then { p with st := .dark, cause := p.darkFor .phases, railUp := false, rampWait := false }
    else if p.st == .dark then p
    else { p with st := p.service }

/-- A staging block that failed. -/
def State.badStaging (i : Nat) (s : State) : State :=
  if i % 2 = 0 then (s.modEdge (.hbm (i / 2)) fun g => { g with blockBad := true }).failSite (i / 2)
  else (s.modEdge (.iod (i / 2)) fun g => { g with blockBad := true }).setDie (i / 2) fun x => { x with laneOnly := true }

/-- An HBM channel failed in the field; more than 8 fail the stack (R205). -/
def State.badChannel (i : Nat) (s : State) : State :=
  s.modSite (i % 16) fun y =>
    let y := { y with chFailed := setBit y.chFailed (i / 16 % 32) }
    { y with st := match y.st with
      | .failed => .failed
      | .absent => .absent
      | _ => if 8 < popcount y.chFailed then .failed else .degraded }

/-- FLOOR_PLAN_MERGE (R297). -/
def execFloorPlanMerge (s : State) : Host.Outcome State Fault Refusal :=
  onUnit true s fun s =>
    match s.units.bist with
    | none => s
    | some b =>
      due (s.works 6) s fun s =>
        let f := s.mgt.fuses
        let s := forAll (f.tiles ++ s.mgt.loggedAs 1 2 ++ s.mgt.loggedAs 1 3 ++ b.tiles) s fun t s => s.mergeTile b t
        let s := s.mergeUnits 2 f.routers b.routers fun t s => s.modUnits fun u => { u with
          badRouters := if u.badRouters.contains t then u.badRouters else t :: u.badRouters }
        let s := s.mergeUnits 3 f.hens b.hens State.badHen
        let s := s.mergeUnits 7 (f.phases.map fun p => phaseIndex p.1 p.2) (b.phases.map fun p => phaseIndex p.1 p.2)
          State.badPhase
        let st := fun (h i : List Nat) => h.map (fun x => stagingIndex (.hbm x)) ++ i.map fun d => stagingIndex (.iod d)
        let s := s.mergeUnits 9 (st f.hbmStaging f.iodStaging) (st b.hbmStaging b.iodStaging) State.badStaging
        let s := s.mergeUnits 8 [] [] State.badChannel
        let s := forAll b.tripped s fun r s => s.isolate r false
        s.modMgt fun m => { m with stage := 7 }

/-! ## Stage 7: training (R200, R299, R303 to R305) -/

/-- The capability word a die's fuse map implies (R303). -/
def capWord (kind step iface io num : Nat) (serial : BitVec 32) : Dword :=
  pack [(0, kind), (4, step), (8, iface), (12, io), (16, num), (32, serial.toNat)]

/-- The IF_LEVEL and the numerics level of a half by stepping (R102, R303). -/
def ifLevel (step : Nat) : Nat := if step = 0 then 1 else 2
def numLevelOf (step : Nat) : Nat := if step = 0 then 2 else 3

def halfWord (f : Fuses) (west : Bool) : Dword :=
  let st := if west then f.stepWest else f.stepEast
  capWord (if west then 1 else 2) st (ifLevel st) 2 (numLevelOf st) (if west then f.west.serial else f.east.serial)

def dieWord (f : Fuses) (d : Nat) : Dword :=
  let small := f.iodS.getLsbD d
  capWord (if small then 4 else 3) 0 0 (if small then 1 else 2) (if small then 1 else 3) (f.serialIods.look 0 d)

/-- Every capability word agrees with its fuse map. -/
def capsMatch (f : Fuses) (q : TrainFindings) : Bool :=
  q.west = halfWord f true && q.east = halfWord f false && q.iods = (fittedDies f).map fun d => (d, dieWord f d)

/-- The device numerics level (R102). -/
def deviceLevel (f : Fuses) : Nat :=
  ((fittedDies f).map fun d => if f.iodS.getLsbD d then 1 else 3).foldl min
    (min (numLevelOf f.stepWest) (numLevelOf f.stepEast))

/-- A stack trained at one of the three rates, or FAILED (R200); its soft repairs are hard now (R208). -/
def Site.train (y : Site) (rate : Nat) : Site :=
  let ok := [6400, 5600, 4800].contains rate
  { y with
    hardRows := y.hardRows ++ y.repaired, repaired := [], hard := sat16 (y.hard + y.repaired.length),
    chRepaired := (y.hardRows ++ y.repaired).foldl (fun m q => setBit m q.1) y.chRepaired,
    mbps := if ok then rate else 0, st := if ok || y.st == .absent then y.st else .failed }

/-- The origin tick in a region with a fed plane (R190). MAX_LAG and the trim start from 0 with it (DESIGN CHOICE, log entry
132: the rule names E and the count only). -/
def HenClk.origin0 (k : HenClk) (now : Nat) : HenClk :=
  { k with
           count := 0, expect := 0, tick := now, origin := now, lag := {}, maxLag := 0, st := .locked, synth := 0,
           resyncDue := false, switchDue := false, epochAt := none, trim := 0 }

/-- The links that train in full (R299): all in full mode; in restore mode those without a valid saved record, and those
whose eye scan fails. -/
def Mgt.inFull (m : Mgt) (eyeBad : List (Nat × Nat)) : List (Nat × Nat) :=
  (bootLinks m.fuses).filter fun l => !m.restore || !m.savedOk l (0, 0) || eyeBad.contains l

/-- The tick inputs that work and the tree over them (R188); a hen no input reaches keeps its registers. -/
def State.growTree (s : State) (ins : List (Nat × Nat × Nat)) : State :=
  let s := s.modMgt fun m => { m with tickIns := ins }
  (s.units.tickTree ins 40).foldl (fun s p => s.modClk p.1 fun k => { k with
    parent := p.2.1, hops := p.2.2.1, delay := p.2.2.2 }) s

/-- Whether the tree reaches every hen whose plane is fed, so that each can mark a real tick (R304). -/
def State.treeReaches (s : State) (ins : List (Nat × Nat × Nat)) (u : Units) : Bool :=
  let tree := u.tickTree ins 40
  (List.range 40).all fun r => !(s.region r).clk.on || tree.any fun e => e.1 = r

/-- The ring segments and control crossings after training (R30, R160): what has failed stays failed. -/
def Units.trained (u : Units) (q : TrainFindings) : Units :=
  let n := u.northBad || q.northCrossing
  let so := u.southBad || q.southCrossing
  { u with
    segments := u.segments ++ q.segments.filter fun k => !u.segments.contains k, northBad := n, southBad := so,
    xjoin := n && !so }

/-- LINK_TRAINING (R188, R200, R208, R285, R299, R303, R304): with the origin tick the stage ends. -/
def execLinkTraining (found : TrainFindings) (s : State) : Host.Outcome State Fault Refusal :=
  onUnit (found.segments.all (fun k => k < 20) && found.ticks.all (fun p => p.1 < 40 && p.2.1 < 6) &&
      found.mbps.all (fun p => p.1 < 16) && found.peers.all fun p => p.1 < 48) s fun s =>
    let f := s.mgt.fuses
    due (s.works 7 && !s.mgt.refLost) s fun s =>
      if !capsMatch f found then s.modMgt fun m => m.halt 7
      else
        let s := s.modMgt fun m => { m with numLevel := deviceLevel f }
        if ifLevel f.stepWest ≠ ifLevel f.stepEast then s.modMgt fun m => m.halt 3
        else due (s.treeReaches found.ticks (s.units.trained found)) s fun s =>
          let s := s.modMgt fun m => { m with bands := found.temps.foldl (fun t p => t.put 0 p.1 (bandOf p.2)) [] }
          let s := s.modMgt fun m => { m with fullLinks := m.inFull found.eyeBad }
          let s := forAll ((List.range 16).filter fun x => hbmFitted f x) s fun x s =>
            s.modSite x fun y => y.train (Tab.look 0 found.mbps x)
          let s := forAll (fittedDies f) s fun d s => s.modIod d fun x => { x with
            capLevel := min (if f.iodS.getLsbD d then 1 else 2) 2 }
          let s := (s.modUnits fun u => u.trained found).cutOff
          let s := found.peers.foldl (fun s q => s.modPort q.1 fun x => { x with peerKey := q.2 }) s
          let s := forAll ((List.range 48).filter fun p => iodFitted f (dieOf p)) s fun p s =>
            if (s.port p).st == .dark && (s.iod (dieOf p)).st ≠ .dark then
              s.modPort p fun x => { x with
                st := .training, full := !s.mgt.restore || !s.mgt.savedOk (4, p) x.peerKey } else s
          let s := s.growTree found.ticks
          let s := forAll (List.range 40) s fun r s =>
            if (s.region r).clk.on then
              s.modRegion r fun x => { x with clk := x.clk.origin0 s.now, ctl := { x.ctl with tBase := 0 } }
            else s.modRegion r fun x => { x with
              clk := { x.clk with count := 0, expect := 0, lag := {} }, ctl := { x.ctl with tBase := 0 } }
          s.modMgt fun m => { m with originSet := true, bistTime := m.nextTick, stage := 8 }

/-- REFCLK (R305): no stable reference within 1 s in stage 7. -/
def execRefclk (s : State) : Host.Outcome State Fault Refusal :=
  onUnit true s fun s => due (s.works 7 && s.mgt.refLost) s fun s => s.modMgt fun m => m.halt 5

/-! ## Stage 8: qualification (R301) -/

/-- Whether a link that stage 7 trained has passed qualification (R301). -/
def State.linkPassed (s : State) (l : Nat × Nat) : Bool :=
  match l.1 with
  | 0 => (s.laneGroups.getD l.2 {}).st ≠ 3
  | 1 => !s.units.segments.contains l.2
  | 2 => if l.2 = 0 then !s.units.northBad else !s.units.southBad
  | _ => (s.site l.2).st ≠ .failed

/-- Each link trained in full that has passed has its saved record written or replaced (R299). -/
def State.saveLinks (s : State) (fell : List (Nat × Nat)) : State :=
  let ls := (bootLinks s.mgt.fuses).filter fun l => (s.mgt.fullLinks.contains l || fell.contains l) && s.linkPassed l
  ls.foldl (fun s l => s.modMgt fun m => m.save l (0, 0)) s

/-- ERROR_RATE_QUALIFICATION (R299, R301, R302): bridge wires by R295 again, lanes in ascending order. -/
def execErrorRateQualification (found : QualFindings) (s : State) : Host.Outcome State Fault Refusal :=
  onUnit (found.wires.all (fun w => isWire (.bridge w.1 w.2.1 w.2.2)) &&
      found.lanes.all (fun w => isWire (.iodLane w.1 w.2.1 w.2.2)) && found.segments.all (fun k => k < 20) &&
      found.channels.all fun q => q.1 < 16 && q.2 < 32) s fun s =>
    due (s.works 8) s fun s =>
      let s := s.testWires 5 (found.wires.map fun w => .bridge w.1 w.2.1 w.2.2)
      let lanes := found.lanes.filter fun w => iodFitted s.mgt.fuses w.1
      let s := s.testWires 6 (lanes.map fun w => .iodLane w.1 w.2.1 w.2.2)
      let s := s.modUnits fun u => { u with
        segments := u.segments ++ found.segments.filter fun k => !u.segments.contains k }
      let s := s.cutOff
      let s := found.channels.foldl (fun s q => s.failChannel q.1 q.2) s
      let s := s.modUnits fun u =>
        let n := u.northBad || !found.northCrossing
        let so := u.southBad || !found.southCrossing
        { u with northBad := n, southBad := so, xjoin := n && !so }
      (s.saveLinks found.fell).modMgt fun m => { m with stage := 9, restarts := 0 }

/-! ## Stage 9 (R306) -/

/-- PUBLICATION (R201, R202, R306): the interleave of this boot, the first map under GEN 2, READY. -/
def execPublication (s : State) : Host.Outcome State Fault Refusal :=
  onUnit true s fun s =>
    due (s.works 9) s fun s =>
      let s := forAll ((List.range 16).filter fun x => hbmFitted s.mgt.fuses x) s fun x s => s.modSite x fun y => { y with
        chans := (List.range 32).filter fun c => !y.chFailed.getLsbD c, bootFailed := y.st == .failed }
      let s := s.modMgt fun m => { m with ilv := m.bootStriped, striped := m.bootStriped, gen := 0, restarts := 0 }
      s.relock.publish.modMgt fun m => { m with ready := true }

/-- STAGE_TIMEOUT (R284, R307): a stage from 2 to 9 exceeds its maximum. -/
def execStageTimeout (s : State) : Host.Outcome State Fault Refusal :=
  onUnit true s fun s =>
    due (2 ≤ s.mgt.stage && s.works s.mgt.stage) s fun s => s.modMgt fun m => m.halt 6

/-! ## Pins (R402, R407) -/

/-- ENTDAA (R402): the bus is high impedance before the end of stage 0 (R405). -/
def execEntdaa (address : BitVec 7) (s : State) : Host.Outcome State Fault Refusal :=
  onUnit true s fun s => due s.mgt.pwrOk s fun s => s.modMgt fun m => { m with i3c := some address }

/-- A rise of PERST_N that is heard: the host port trains once the reference is stable (R407). -/
def Mgt.perstHeard (m : Mgt) : Mgt :=
  if m.refLost then { m with pcieWait := true } else { m with pcieTraining := true }

/-- PERST_N_DELAY_END (R407). -/
def execPerstNDelayEnd (s : State) : Host.Outcome State Fault Refusal :=
  onUnit true s fun s =>
    due (s.mgt.pwrOk && s.mgt.perstWindow) s fun s => s.modMgt fun m =>
      let m := { m with perstWindow := false, perstLow := !m.perstPin }
      if m.perstPin then m.perstHeard else m

/-- PERST_RISE (R407): link training of the host port starts, but not within 100 ms of PWR_OK. -/
def execPerstRise (s : State) : Host.Outcome State Fault Refusal :=
  onUnit true s fun s =>
    s.modMgt fun m =>
      let m := { m with perstPin := true }
      if m.pwrOk && !m.perstWindow then { m with perstLow := false }.perstHeard else m

end Sys2Proof.Machine
end

