-- ==== Sys2Proof/Machine/Regs.lean ====
section
/-!
DEFINITION. The control space: its address map and what a read of each register shows (R15 to R19, R127, R182, R198,
R225, R259, R260, R283, R332, R333, R360, R394 to R396).
-/
namespace Sys2Proof.Machine

/-! ## The address map (R15, R394) -/

/-- A block of the control space with its instance. `die` holds IRA and COL, `rgn` RGN, CLK and PWR, `tile` TIL, RTR and
TST. -/
inductive Block where
  | mgt
  | hst
  | page (f : Nat)
  | die (d : Nat)
  | rgn (r : Nat)
  | edg (x : Nat)
  | tile (t : Nat)
  deriving DecidableEq, Repr

/-- The block and the offset of an address; none where it is unmapped. -/
def blockOf (f : Fuses) (a : Nat) : Option (Block × Nat) :=
  if a < 0x3800 ∨ (0x10000 ≤ a ∧ a < 0x1C000) then some (.mgt, a)
  else if 0x800000 ≤ a ∧ a < 0x800010 then some (.hst, a - 0x800000)
  else if 0x900000 ≤ a ∧ a < 0x900000 + 17 * 0x10000 then some (.page ((a - 0x900000) / 0x10000), a % 0x10000)
  else if 0x1000000 ≤ a ∧ a < 0x1000000 + 4 * 0x100000 then
    let d := (a - 0x1000000) / 0x100000
    if iodFitted f d then some (.die d, a % 0x100000) else none
  else if 0x10000000 ≤ a ∧ a < 0x10000000 + 40 * 0x100000 then
    some (.rgn ((a - 0x10000000) / 0x100000), a % 0x100000)
  else if 0x20000000 ≤ a ∧ a < 0x20000000 + 16 * 0x100000 then
    let x := (a - 0x20000000) / 0x100000
    if hbmFitted f x then some (.edg x, a % 0x100000) else none
  else if 0x100000000 ≤ a ∧ a < 0x100000000 + 20000 * 0x1000 then
    some (.tile ((a - 0x100000000) / 0x1000), a % 0x1000)
  else none

/-- The address of an offset of a block. -/
def addrOf : Block → Nat → Nat
  | .mgt, o => o
  | .hst, o => 0x800000 + o
  | .page f, o => 0x900000 + f * 0x10000 + o
  | .die d, o => 0x1000000 + d * 0x100000 + o
  | .rgn r, o => 0x10000000 + r * 0x100000 + o
  | .edg x, o => 0x20000000 + x * 0x100000 + o
  | .tile t, o => 0x100000000 + t * 0x1000 + o

/-! ## MGT and HST -/

/-- Eight bytes from a function of an address. -/
def bytes8 (f : Nat → Byte) (a : Nat) : Dword := BitVec.ofNat 64 (leNat ((List.range 8).map fun i => f (a + i)))

/-- The fill and drain banks of the mailbox (R131). -/
def Mgt.fillBank (m : Mgt) : Tab Byte := if m.mboxFill then m.mbox1 else m.mbox0
def Mgt.drainBank (m : Mgt) : Tab Byte := if m.mboxFill then m.mbox0 else m.mbox1

/-- Bytes 8 to 15 and so on of an item in a queue's window (R127). -/
def windowWord (item : List Line) (a : Nat) : Dword := bytes8 (fun i => lineByte (item.getD (i / 64) 0) (i % 64)) a

/-- DEMAND_W and SLACK_NS (R328). -/
def Mgt.slackNs (m : Mgt) : Int :=
  ((m.slacks.filter fun q => m.nextTick < q.1 + 1000).map (·.2)).foldl (fun a b => if b < a then b else a) 0x7FFFFFFF

/-- The code of a live activation (R394). -/
def actCode : ActSt → Nat
  | .none => 0 | .running => 1 | .done => 2 | .failed => 3

/-- The MGT range. -/
def State.mgtReg (s : State) (off : Nat) : Dword :=
  let m := s.mgt
  let f := m.fuses
  match off with
  | 0x000 => pack [(0, f.nStacks), (5, f.iods), (8, b2n f.gradeB), (10, f.stepWest), (12, f.stepEast), (16, iodBits f),
      (20, f.iodS.toNat), (24, m.numLevel), (32, hbmBits f)]
  | 0x008 => f.serial
  | 0x010 => pack [(0, m.stage), (4, b2n m.ready), (5, b2n m.recovery), (6, b2n m.restore), (7, b2n m.slot), (8, m.fail),
      (32, m.boot)]
  | 0x018 => pack [(1, actCode m.act), (3, b2n (m.slotOf (!m.slot)).valid), (8, m.actLast), (16, m.svn.toNat)]
  | 0x020 => pack [(0, b2n m.fixed), (1, b2n m.ilv), (4, m.fixedMhz), (15, b2n m.modeWait), (16, m.modeLast), (24, m.fMhz)]
  | 0x028 => pack [(0, m.hostCap), (16, m.fmCap), (32, m.hostStatus), (36, m.fmStatus), (48, m.appliedW)]
  | 0x030 => pack [(0, m.floorW), (16, m.demandW), (32, (sat32 m.slackNs).toNat)]
  | 0x038 => pack [(0, b2n (m.warnCond ≠ 0)), (1, b2n (m.eolCond ≠ 0)), (16, m.warnCond.toNat), (32, m.eolCond.toNat)]
  | 0x040 => m.cperq.status
  | 0x050 => pack [(1, b2n m.mboxBusy), (2, b2n m.mboxRefused), (8, m.swaps.toNat)]
  | _ =>
    if off < 0x1000 then 0
    else if off < 0x2000 then bytes8 (m.fillBank.look 0) (off - 0x1000)
    else if off < 0x3000 then bytes8 (m.drainBank.look 0) (off - 0x2000)
    else if off < 0x3800 then windowWord m.cperq.window (off - 0x3000)
    else bytes8 m.mapByte (off - 0x10000)

/-- The HST global registers (R395). -/
def State.hstReg (s : State) (off : Nat) : Dword :=
  let m := s.mgt
  match off with
  | 0x0 => pack [(0, b2n m.accSeen), (8, m.accStatus), (16, m.accFn), (32, m.accCount)]
  | 0x8 => m.accAddr.setWidth 64
  | _ => 0

/-- The code of a run state (R396). -/
def runCode : RunSt → Nat
  | .empty => 0 | .loading => 1 | .loaded => 2 | .starting => 3 | .running => 4 | .ending => 5

/-- A function page (R396). -/
def State.pageReg (s : State) (f off : Nat) : Dword :=
  let x := s.fn f
  let p := s.part (f - 1)
  match off with
  | 0x00 => pack [(0, f), (8, f - 1), (12, b2n x.enabled), (13, b2n x.ring.isSome), (14, b2n x.fabric.isSome),
      (16, x.ring.getD 0)]
  | 0x08 => pack [(0, x.sqLog), (4, b2n x.sqOn), (12, x.sqBase.toNat)]
  | 0x10 => pack [(0, x.sqTail), (16, x.sqHead), (28, b2n x.sqPhase)]
  | 0x18 => pack [(0, x.cqLog), (4, b2n x.cqOn), (12, x.cqBase.toNat)]
  | 0x20 => pack [(0, x.cqHead), (16, x.cqTail), (28, b2n x.cqPhase), (29, b2n x.cqFull)]
  | 0x28 => pack [(0, x.events.toNat)]
  | 0x30 => pack [(0, x.mask.toNat)]
  | _ =>
    if f = 0 then 0
    else match off with
      | 0x38 => pack [(0, runCode p.st), (4, p.endReason), (8, p.dump), (32, if p.runHidden then 0 else p.runNo.toNat)]
      | 0x40 => p.normq.status
      | 0x50 => windowWord p.normq.window 0
      | 0x58 => windowWord p.normq.window 8
      | 0x60 => windowWord p.normq.window 16
      | 0x68 => windowWord p.normq.window 24
      | _ => 0

/-! ## Regions -/

/-- The low bits of a number in two's complement. -/
def wrapInt (n : Nat) (v : Int) : Nat := (v % (2 : Int) ^ n).toNat

/-- The codes of hold, clock and dark-cause states (R182, R198, R332). -/
def holdCode : HoldSt → Nat
  | .running => 0 | .announced => 1 | .held => 2 | .resuming => 3
def clkCode : ClkSt → Nat
  | .locked => 0 | .acquire => 1 | .holdover => 2 | .resync => 3
def darkCode : DarkCause → Nat
  | .none => 0 | .phases => 1 | .heat => 2 | .trip => 3 | .coolant => 4 | .off => 5

/-- The control-network registers of a hen (R182). -/
def State.henReg (s : State) (r off : Nat) : Dword :=
  let c := (s.region r).ctl
  let g := c.barSel.toNat
  let b := c.bars.look {} g
  let mine := match (s.part c.part).img with
    | some i => c.assigned && i.barriers.any fun q => q.group = g
    | none => false
  let bw := if mine then s.bellwether r g else none
  match off with
  | 0x200 => pack [(0, c.part), (4, b2n c.assigned), (5, b2n c.lead), (8, r % 8), (12, b2n s.units.xjoin)]
  | 0x208 => pack [(0, holdCode c.hstate), (8, if c.lead then c.reasons.toNat else 0), (16, c.holds)]
  | 0x210 => pack [(0, c.holdBeat % 2 ^ 48)]
  | 0x218 => pack [(0, c.resumeBeat % 2 ^ 48)]
  | 0x228 => pack [(0, c.err.toNat), (16, c.errCount), (32, c.stale)]
  | 0x230 => pack [(0, c.errBeat % 2 ^ 48), (62, b2n c.errRegion), (63, b2n c.errValid)]
  | 0x238 => pack [(0, g)]
  | 0x240 => pack [(0, if mine then ((s.membersOf c.part g).filter fun t => regionOf t = r).length else 0),
      (16, b.arrived), (32, bw.getD 0), (47, b2n (bw.any fun t => regionOf t = r)), (48, b.releases)]
  | 0x248 => pack [(0, b.bRel % 2 ^ 48)]
  | _ => 0

/-- The clock registers (R198). -/
def State.clkReg (s : State) (r off : Nat) : Dword :=
  let k := (s.region r).clk
  let top := (s.region r).pwr.topMhz
  let m := s.mgt
  let ceil := sprintCeil m.fMhz top
  match off with
  | 0x300 => pack [(0, m.fMhz), (16, k.rate.floor.toNat), (32, ceil.floor.toNat), (48, b2n m.fixedOn),
      (49, b2n (k.tripped || k.rising)), (50, b2n (k.rate = ceil)), (51, clkCode k.st)]
  | 0x308 => BitVec.ofNat 64 k.count
  | 0x310 => pack [(0, k.tick % 2 ^ 48), (48, k.origin % 2 ^ 16)]
  | 0x318 => pack [(0, wrapInt 16 k.lag.floor), (16, wrapInt 16 k.maxLag), (32, k.slipReqs), (48, k.droops)]
  | 0x320 => pack [(0, k.err.toNat), (16, k.errCount)]
  | 0x328 => pack [(0, k.errBeat % 2 ^ 63), (63, b2n k.errValid)]
  | 0x330 => pack [(0, k.parent), (4, k.hops), (16, k.delay), (32, 4000)]
  | 0x338 => pack [(0, b2n m.fabricLock), (1, b2n m.refLost), (2, b2n (0 < m.freeze)), (16, wrapInt 16 (max (-32767) (min 32767 m.offsetNs)))]
  | _ => 0

/-- The power registers (R332). -/
def State.pwrReg (s : State) (r off : Nat) : Dword :=
  let p := (s.region r).pwr
  let l := p.learn.look {} p.learnSel.toNat
  match off with
  | 0x400 => pack [(0, regCode p.st), (2, darkCode p.cause), (5, b2n p.crack), (6, b2n p.rampWait), (7, b2n p.ramping),
      (8, b2n p.feedOwn), (9, b2n p.feedNb), (16, p.phCount), (24, p.topMhz)]
  | 0x408 => p.phFailed
  | 0x410 => pack [(0, p.limitA), (16, if s.mgt.ready then (s.iMax r).floor.toNat / 10 else 0)]
  | 0x418 => pack [(0, p.budget), (16, p.pred), (32, p.duty), (40, p.phase), (48, p.interval % 2 ^ 16)]
  | 0x420 => pack [(0, p.iAvg), (16, p.iPeak), (32, p.vSet), (48, p.vMin)]
  | 0x428 => pack [(0, p.tMax.toNat), (8, p.tHigh.toNat), (16, p.hot)]
  | 0x430 => pack [(0, p.drop), (16, p.base), (32, p.ratio), (44, p.streak)]
  | 0x438 => pack [(0, p.err.toNat), (16, p.errCount)]
  | 0x440 => pack [(0, p.errTime % 2 ^ 63), (63, b2n p.errValid)]
  | 0x448 => pack [(0, p.learnSel.toNat)]
  | 0x450 => pack [(0, amps14 (p.learned p.learnSel.toNat)), (16, b2n l.seeded), (32, l.n % 2 ^ 32)]
  | _ => 0

/-- The telemetry and test registers of a hen (R333, R360). -/
def State.rgnReg (s : State) (r off : Nat) : Dword :=
  let x := s.region r
  if off < 0x300 then s.henReg r off
  else if off < 0x400 then s.clkReg r off
  else if off < 0x500 then s.pwrReg r off
  else if off < 0x580 then
    (if x.tlm.fill then x.tlm.bank0 else x.tlm.bank1).extractLsb' (8 * (off - 0x500)) 64
  else match off with
    | 0x600 => pack [(8, b2n x.test.pending), (9, b2n x.test.coord), (10, b2n x.test.noPause),
        (16, (s.testTiles r fun q => q == .due || q == .overdue || q == .lapsed).length),
        (32, (s.testTiles r isOverdue).length), (48, x.test.lapses)]
    | 0x608 => x.faults.status
    | _ => 0

/-! ## Edges -/

/-- A share register: the fields of an HBM site's, or of an I/O die's (R225, R260). -/
def shareReg (h : Share) (iod : Bool) : Dword :=
  if iod then pack [(0, h.part), (4, b2n h.valid), (8, h.base), (16, h.mib), (24, h.descBase), (36, h.descCount)]
  else pack [(0, h.part), (4, b2n h.valid), (8, h.base), (12, h.mib), (16, h.descBase), (28, h.descCount)]

/-- EDG_OX_STATUS and EDG_OX_BEAT. -/
def oxStatus (g : Edge) : Dword :=
  pack [(0, b2n g.holding), (1, b2n g.late), (2, b2n g.miss), (3, b2n g.refused), (16, g.lateCount), (32, g.missCount)]
def oxBeatReg (g : Edge) : Dword := pack [(0, g.beat % 2 ^ 48), (48, b2n g.beatShare), (63, b2n g.beatValid)]

/-- EDG_PAGE: the record of a page in the map. -/
def State.pageShown (s : State) (g : Edge) : Dword := if s.pageMapped g.pageSel then (s.page g.pageSel).setWidth 64 else 0

/-- EST_DATA and EST_PORT of the selected edge port. -/
def estData (e : EdgeId) (g : Edge) : Dword :=
  let y := g.ports.look {} g.estPort
  let v := if g.estPort < edgePorts e then (if g.estBank then y.bank1 else y.bank0).look 0 g.estPos else 0
  pack [(0, v.toNat), (32, g.last)]
def estPortReg (e : EdgeId) (g : Edge) : Dword :=
  let y := g.ports.look {} g.estPort
  if g.estPort < edgePorts e then
    pack [(0, y.per0), (10, y.per1), (20, y.step0), ((match e with | .hbm _ => 37 | .iod _ => 39), y.step1)]
  else 0

/-- The EDG registers of a site (R225). -/
def State.edgReg (s : State) (x off : Nat) : Dword :=
  let y := s.site x
  let g := y.edge
  let rec_ := s.siteRec x
  let l := s.stripes
  let n := if s.mgt.striped then l.length else 0
  let gib := if s.mgt.striped then l.length * s.cMin / 2 ^ 30
    else (l.map fun z => 2 * (s.site z).chans.length).sum
  match off with
  | 0x00 => pack [(0, x), (4, b2n rec_.fitted), (5, rec_.st), (16, y.mbps), (32, y.chans.length)]
  | 0x08 => pack [(0, b2n s.mgt.striped), (4, n),
      (16, if s.mgt.striped && l.contains x then (l.takeWhile fun z => z ≠ x).length else 0xFF), (32, gib), (48, rec_.gib)]
  | 0x10 => pack [(0, y.chFailed.toNat), (32, y.chRepaired.toNat)]
  | 0x18 => pack [(0, y.corr), (16, y.uncorr), (32, y.soft), (48, y.hard)]
  | 0x20 => shareReg g.share0 false
  | 0x28 => shareReg g.share1 false
  | 0x30 => pack [(0, g.share0.period)]
  | 0x38 => pack [(0, g.share1.period)]
  | 0x40 => oxStatus g
  | 0x48 => oxBeatReg g
  | 0x50 => y.oxq.status
  | 0x60 => pack [(0, g.pageSel)]
  | 0x68 => s.pageShown g
  | 0x70 => pack [(0, g.estPort), (5, g.estPos), (14, b2n g.estBank)]
  | 0x78 => estData (.hbm x) g
  | 0x80 => estPortReg (.hbm x) g
  | _ => 0

/-! ## I/O dies -/

/-- The code of a port state (R259). -/
def portCode : PortSt → Nat
  | .dark => 0 | .training => 1 | .qualifying => 2 | .ready => 3 | .up => 4 | .retraining => 5 | .down => 6 | .retired => 7

/-- The state of a lane (R259). -/
def Port.laneState (x : Port) (l : Nat) : Nat :=
  if x.retired.getLsbD l then 2 else if x.inService.contains l then 0 else if x.inService.length = 8 then 1 else 3

/-- The IRA registers of a die (R259, R260). -/
def State.iraReg (s : State) (d off : Nat) : Dword :=
  let x := s.iod d
  let m := s.mgt
  let rec_ := s.iodRec d
  let k := x.portSel.toNat
  let p := s.port (12 * d + k)
  let l := x.laneSel.toNat
  let lane := p.lanes.look {} l
  let g := x.edge
  match off with
  | 0x000 => pack [(0, d), (2, b2n rec_.isS), (3, rec_.st), (8, x.capLevel), (16, rec_.portsUp.toNat)]
  | 0x008 => pack [(0, m.devId.toNat), (13, b2n m.devValid), (14, b2n m.devRefused)]
  | 0x010 => pack [(0, b2n x.quiesce), (1, b2n x.gmSelf)]
  | 0x018 => m.fmDevs
  | 0x020 => pack [(0, k), (8, l)]
  | 0x028 => if 12 ≤ k then 0 else pack [(0, portCode p.st), (3, b2n (p.inService.length = 4)),
      (4, b2n (p.inService.contains 8)), (8, p.retired.toNat), (24, p.peerDev), (40, p.peerPort), (48, p.departRx)]
  | 0x038 => if 12 ≤ k then 0 else pack [(0, p.cwUncorr), (16, p.crcErr), (32, p.replays), (48, p.laneRetires)]
  | 0x040 => if 12 ≤ k ∨ 9 ≤ l then 0 else pack [(0, p.laneState l), (8, lane.berExp s.now), (32, lane.symCorr)]
  | 0x048 => pack [(0, x.routeSel.toNat)]
  | 0x050 => let e := x.entry x.routeSel.toNat; pack [(0, e.1), (8, e.2)]
  | 0x058 => pack [(0, x.outstanding.length), (16, x.timeouts), (32, x.lateRsp), (48, x.nacks)]
  | 0x060 => pack [(0, x.expired), (16, x.quiesced), (32, x.malformed), (48, x.denied)]
  | 0x068 => pack [(0, x.transit), (32, x.noRoute), (48, x.dropped)]
  | 0x070 => pack [(0, m.parent), (8, m.hops), (16, m.gmDev), (29, b2n m.gmValid)]
  | 0x078 => pack [(0, m.measOffset.toNat), (32, m.measDelay.toNat)]
  | 0x800 => shareReg g.share0 true
  | 0x808 => shareReg g.share1 true
  | 0x810 => pack [(0, g.share0.period)]
  | 0x818 => pack [(0, g.share1.period)]
  | 0x820 => oxStatus g
  | 0x828 => oxBeatReg g
  | 0x830 => pack [(0, g.pageSel)]
  | 0x838 => s.pageShown g
  | 0x840 => pack [(0, g.estPort), (6, g.estPos), (15, b2n g.estBank)]
  | 0x848 => estData (.iod d) g
  | 0x850 => estPortReg (.iod d) g
  | _ =>
    if 0x100 ≤ off ∧ off < 0x1C0 ∧ off % 16 = 0 then (x.fq.look { n := 9 } ((off - 0x100) / 16)).status else 0

/-- The code of a channel state (R283). -/
def chanCode : ChanSt → Nat
  | .idle => 0 | .active => 1 | .aborted => 2

/-- The COL registers of a die (R283). -/
def State.colReg (s : State) (d off : Nat) : Dword :=
  let x := s.iod d
  let c := s.chan x.colSel.toNat
  let l := s.dlog
  let entry := (if l.selBank then l.bank1 else l.bank0).look 0 l.selEntry.toNat
  match off with
  | 0x80000 => BitVec.ofNat 64 ((s.chansWhere fun q => q.st == .active && q.home = d).map fun k => 2 ^ k).sum
  | 0x80008 => pack [(0, x.colSel.toNat)]
  | 0x80010 => pack [(0, chanCode c.st), (8, c.part), (16, c.n), (32, c.rank), (48, (c.ops.filter (·.started)).length)]
  | 0x80018 => pack [(0, c.next.toNat), (32, c.done.toNat)]
  | 0x80020 => pack [(0, c.lateRx), (16, c.lateTx), (32, c.digestRej), (48, c.missing)]
  | 0x80028 => pack [(0, c.slack.toNat)]
  | 0x80030 => pack [(0, x.stale), (16, x.duplicate)]
  | 0x80038 => pack [(0, b2n l.freeze), (1, b2n l.fill), (16, l.discards), (32, l.entries)]
  | 0x80040 => pack [(0, l.selEntry.toNat), (15, b2n l.selBank)]
  | 0x80048 => entry.extractLsb' 0 64
  | 0x80050 => entry.extractLsb' 64 64
  | 0x80058 => entry.extractLsb' 128 64
  | 0x80060 => entry.extractLsb' 192 64
  | 0x80068 => pack [(0, l.seq0.toNat), (32, l.seq1.toNat)]
  | _ => 0

/-- What a read of a register shows; a reserved offset reads as zero (R18). Nothing changes (R17). -/
def State.readReg (s : State) (b : Block) (off : Nat) : Dword :=
  match b with
  | .mgt => s.mgtReg off
  | .hst => s.hstReg off
  | .page f => s.pageReg f off
  | .die d => if off < 0x80000 then s.iraReg d off else s.colReg d off
  | .rgn r => s.rgnReg r off
  | .edg x => s.edgReg x off
  | .tile t => if off < 0x100 then s.tilReg t off else if off < 0x800 then s.rtrReg t off else s.tstReg t off

end Sys2Proof.Machine
end

