-- ==== Sys2Proof/Machine/CtlSpace.lean ====
section
/-!
DEFINITION. Who may read and write what in the control space, and what a write does (R152 to R154, R363 to R366, R371 to
R374, R424), with the commands that are writes of one register.
-/
namespace Sys2Proof.Machine

/-! ## Fields (R17, R18, R366) -/

/-- The access codes of R17. -/
inductive FieldAcc where
  | ro | rw | w1c | wo
  deriving DecidableEq, Repr

/-- Whose field it is (R365): the owner of the block, the fabric manager, either for what it owns inside, or the host
only. -/
inductive FieldOf where
  | any | fm | both | host
  deriving DecidableEq, Repr

/-- A field of a register. -/
structure RegField where
  hi : Nat
  lo : Nat
  acc : FieldAcc
  who : FieldOf
  deriving DecidableEq, Repr

def ro (l : List (Nat × Nat)) : List RegField := l.map fun p => ⟨p.1, p.2, .ro, .any⟩
def rw_ (l : List (Nat × Nat)) : List RegField := l.map fun p => ⟨p.1, p.2, .rw, .any⟩
def w1c (l : List (Nat × Nat)) : List RegField := l.map fun p => ⟨p.1, p.2, .w1c, .any⟩
def wo (l : List (Nat × Nat)) : List RegField := l.map fun p => ⟨p.1, p.2, .wo, .any⟩
def ofFm (l : List RegField) : List RegField := l.map fun f => { f with who := .fm }
def ofHost (l : List RegField) : List RegField := l.map fun f => { f with who := .host }

/-- The status and control registers of a general queue (R127). -/
def qStatus : List RegField := ro [(15, 0), (31, 16), (32, 32), (33, 33), (43, 40), (63, 48)] ++ w1c [(34, 34), (35, 35)]
def qControl : List RegField := wo [(0, 0), (1, 1)]
/-- A whole read-only register. -/
def roAll : List RegField := ro [(63, 0)]

def mgtFields (off : Nat) : List RegField :=
  match off with
  | 0x000 => ro [(4, 0), (7, 5), (8, 8), (11, 10), (13, 12), (19, 16), (23, 20), (31, 24), (47, 32)]
  | 0x008 => roAll
  | 0x010 => ro [(3, 0), (4, 4), (5, 5), (6, 6), (7, 7), (15, 8), (63, 32)]
  | 0x018 => wo [(0, 0)] ++ ro [(2, 1), (3, 3), (15, 8), (47, 16)]
  | 0x020 => rw_ [(0, 0), (1, 1), (14, 4)] ++ ro [(15, 15), (23, 16), (34, 24)]
  | 0x028 => rw_ [(15, 0)] ++ ofFm (rw_ [(31, 16)]) ++ ro [(34, 32), (38, 36), (63, 48)]
  | 0x030 => ro [(15, 0), (31, 16), (63, 32)]
  | 0x038 => ro [(0, 0), (1, 1), (25, 16), (41, 32)]
  | 0x040 => qStatus
  | 0x048 => qControl
  | 0x050 => wo [(0, 0)] ++ w1c [(2, 2)] ++ ro [(1, 1), (39, 8)]
  | _ => if off < 0x1000 then [] else if off < 0x2000 then rw_ [(63, 0)] else roAll

def hstFields (off : Nat) : List RegField :=
  match off with
  | 0x0 => w1c [(0, 0)] ++ ro [(15, 8), (20, 16), (47, 32)]
  | 0x8 => ro [(39, 0)]
  | _ => []

def pageFields (f off : Nat) : List RegField :=
  match off with
  | 0x00 => ro [(4, 0), (11, 8), (12, 12), (13, 13), (14, 14), (20, 16)]
  | 0x08 => rw_ [(3, 0), (4, 4), (63, 12)]
  | 0x10 => rw_ [(11, 0)] ++ ro [(27, 16), (28, 28)]
  | 0x18 => rw_ [(3, 0), (4, 4), (63, 12)]
  | 0x20 => rw_ [(11, 0)] ++ ro [(27, 16), (28, 28), (29, 29)]
  | 0x28 => w1c [(7, 0)]
  | 0x30 => rw_ [(7, 0)]
  | 0x38 => ro [(2, 0), (6, 4), (10, 8), (63, 32)]
  | 0x40 => if f = 0 then [] else qStatus
  | 0x48 => if f = 0 then [] else qControl
  | _ => if 0x50 ≤ off ∧ off < 0x70 then roAll else []

def rgnFields (off : Nat) : List RegField :=
  match off with
  | 0x200 => ro [(3, 0), (4, 4), (5, 5), (10, 8), (12, 12)]
  | 0x208 => ro [(1, 0), (15, 8), (31, 16)]
  | 0x210 => ro [(47, 0)]
  | 0x218 => ro [(47, 0)]
  | 0x220 => ofHost (wo [(0, 0), (1, 1)]) ++ ofFm (wo [(2, 2), (3, 3)])
  | 0x228 => w1c [(5, 0)] ++ ro [(31, 16), (47, 32)]
  | 0x230 => ro [(47, 0), (62, 62), (63, 63)]
  | 0x238 => rw_ [(11, 0)]
  | 0x240 => ro [(8, 0), (24, 16), (46, 32), (47, 47), (63, 48)]
  | 0x248 => ro [(47, 0)]
  | 0x300 => ro [(10, 0), (26, 16), (42, 32), (48, 48), (49, 49), (50, 50), (52, 51)]
  | 0x308 => roAll
  | 0x310 => ro [(47, 0), (63, 48)]
  | 0x318 => rw_ [(31, 16)] ++ ro [(15, 0), (47, 32), (63, 48)]
  | 0x320 => w1c [(4, 0)] ++ ro [(31, 16)]
  | 0x328 => ro [(62, 0), (63, 63)]
  | 0x330 => ro [(2, 0), (7, 4), (31, 16), (47, 32)]
  | 0x338 => ro [(0, 0), (1, 1), (2, 2), (31, 16)]
  | 0x400 => ro [(1, 0), (4, 2), (5, 5), (6, 6), (7, 7), (9, 8), (22, 16), (34, 24)]
  | 0x408 => roAll
  | 0x410 => ro [(8, 0), (25, 16)]
  | 0x418 => ro [(13, 0), (29, 16), (36, 32), (47, 40), (63, 48)]
  | 0x420 => ro [(13, 0), (29, 16), (41, 32), (57, 48)]
  | 0x428 => rw_ [(15, 8)] ++ ro [(7, 0), (19, 16)]
  | 0x430 => ro [(11, 0), (27, 16), (43, 32), (47, 44)]
  | 0x438 => w1c [(7, 0)] ++ ro [(31, 16)]
  | 0x440 => ro [(62, 0), (63, 63)]
  | 0x448 => rw_ [(7, 0)]
  | 0x450 => ro [(13, 0), (16, 16), (63, 32)]
  | 0x600 => ofFm (wo [(0, 0)]) ++ w1c [(10, 10)] ++ ro [(8, 8), (9, 9), (25, 16), (41, 32), (63, 48)]
  | 0x608 => qStatus
  | 0x610 => qControl
  | _ => if 0x500 ≤ off ∧ off < 0x580 then roAll else []

/-- Fields of the registers that EDG and IRA share. -/
def oxStatusFields : List RegField := w1c [(1, 1), (2, 2), (3, 3)] ++ ro [(0, 0), (31, 16), (47, 32)]
def oxBeatFields : List RegField := ro [(47, 0), (48, 48), (63, 63)]
def estDataFields : List RegField := rw_ [(31, 0)] ++ ro [(34, 32)]

def edgFields (off : Nat) : List RegField :=
  match off with
  | 0x00 => ro [(3, 0), (4, 4), (6, 5), (31, 16), (37, 32)]
  | 0x08 => ro [(0, 0), (8, 4), (23, 16), (47, 32), (63, 48)]
  | 0x10 => ro [(31, 0), (63, 32)]
  | 0x18 => ro [(15, 0), (31, 16), (47, 32), (63, 48)]
  | 0x20 => ro [(3, 0), (4, 4), (10, 8), (15, 12), (27, 16), (40, 28)]
  | 0x28 => ro [(3, 0), (4, 4), (10, 8), (15, 12), (27, 16), (40, 28)]
  | 0x30 => ro [(31, 0)]
  | 0x38 => ro [(31, 0)]
  | 0x40 => oxStatusFields
  | 0x48 => oxBeatFields
  | 0x50 => qStatus
  | 0x58 => qControl
  | 0x60 => rw_ [(18, 0)]
  | 0x68 => ro [(31, 0)]
  | 0x70 => rw_ [(4, 0), (13, 5), (14, 14)]
  | 0x78 => estDataFields
  | 0x80 => rw_ [(9, 0), (19, 10), (36, 20), (53, 37)]
  | _ => []

/-- The IRA and COL registers of a die; those kept at site 0 only show there what they are and are read-only elsewhere
(R259, R283; log entry 52). -/
def dieFields (d off : Nat) : List RegField :=
  let at0 := fun (l : List RegField) => if d = 0 then l else l.map fun f => { f with acc := .ro }
  match off with
  | 0x000 => ro [(1, 0), (2, 2), (4, 3), (15, 8), (27, 16)]
  | 0x008 => at0 (ofFm (rw_ [(12, 0), (13, 13)]) ++ w1c [(14, 14)])
  | 0x010 => rw_ [(0, 0)] ++ ofFm (rw_ [(1, 1)])
  | 0x018 => at0 (ofFm (rw_ [(12, 0), (15, 15), (28, 16), (31, 31), (44, 32), (47, 47), (60, 48), (63, 63)]))
  | 0x020 => rw_ [(3, 0), (11, 8)]
  | 0x028 => ro [(2, 0), (3, 3), (4, 4), (16, 8), (36, 24), (45, 40), (51, 48)]
  | 0x030 => wo [(0, 0), (1, 1), (2, 2)]
  | 0x038 => ro [(15, 0), (31, 16), (47, 32), (63, 48)]
  | 0x040 => ro [(1, 0), (15, 8), (63, 32)]
  | 0x048 => rw_ [(12, 0)]
  | 0x050 => ofFm (rw_ [(5, 0), (13, 8)])
  | 0x058 => ro [(15, 0), (31, 16), (47, 32), (63, 48)]
  | 0x060 => ro [(15, 0), (31, 16), (47, 32), (63, 48)]
  | 0x068 => ro [(31, 0), (47, 32), (63, 48)]
  | 0x070 => ro [(5, 0), (11, 8), (28, 16), (29, 29)]
  | 0x078 => ro [(31, 0), (63, 32)]
  | 0x800 => ro [(3, 0), (4, 4), (12, 8), (21, 16), (35, 24), (48, 36)]
  | 0x808 => ro [(3, 0), (4, 4), (12, 8), (21, 16), (35, 24), (48, 36)]
  | 0x810 => ro [(31, 0)]
  | 0x818 => ro [(31, 0)]
  | 0x820 => oxStatusFields
  | 0x828 => oxBeatFields
  | 0x830 => rw_ [(18, 0)]
  | 0x838 => ro [(31, 0)]
  | 0x840 => rw_ [(5, 0), (14, 6), (15, 15)]
  | 0x848 => estDataFields
  | 0x850 => rw_ [(9, 0), (19, 10), (38, 20), (57, 39)]
  | 0x80000 => roAll
  | 0x80008 => rw_ [(5, 0)]
  | 0x80010 => ro [(1, 0), (11, 8), (29, 16), (44, 32), (51, 48)]
  | 0x80018 => ro [(31, 0), (63, 32)]
  | 0x80020 => ro [(15, 0), (31, 16), (47, 32), (63, 48)]
  | 0x80028 => ro [(31, 0)]
  | 0x80030 => ro [(15, 0), (31, 16)]
  | 0x80038 => at0 (rw_ [(0, 0)]) ++ ro [(1, 1), (31, 16), (47, 32)]
  | 0x80040 => at0 (rw_ [(14, 0), (15, 15)])
  | 0x80048 => roAll
  | 0x80050 => roAll
  | 0x80058 => roAll
  | 0x80060 => roAll
  | 0x80068 => ro [(31, 0), (63, 32)]
  | _ =>
    if 0x100 ≤ off ∧ off < 0x1C0 then (if off % 16 = 0 then qStatus else qControl) else []

/-- The TIL, RTR and TST registers of a tile; the slack of a transit-owned input is the fabric manager's (R365). -/
def State.tileFields (s : State) (t off : Nat) : List RegField :=
  let slack := fun (d : Dir) (l : List RegField) => if s.inTransit t d then ofFm l else l
  match off with
  | 0x000 => ro [(14, 0), (21, 16)]
  | 0x008 => ro [(2, 0), (5, 3), (28, 16)]
  | 0x010 => roAll
  | 0x018 => w1c [(8, 0)] ++ ro [(28, 16), (47, 32)]
  | 0x020 => roAll
  | 0x028 => rw_ [(12, 0)] ++ ro [(13, 13)]
  | 0x030 => roAll
  | 0x038 => ro ((List.range 4).flatMap fun a => [(8 * a + 1, 8 * a), (8 * a + 2, 8 * a + 2), (8 * a + 3, 8 * a + 3),
      (8 * a + 7, 8 * a + 4)])
  | 0x040 => rw_ [(31, 16)] ++ ro [(15, 0), (47, 32)]
  | 0x100 => ofFm (rw_ [(3, 0)]) ++ ro [(11, 8), (20, 16), (24, 24), (26, 25)]
  | 0x108 => rw_ [(9, 0), (25, 16)] ++ ofFm (rw_ [(41, 32), (57, 48)])
  | 0x110 => ro [(8, 0), (24, 16)]
  | 0x118 => rw_ [(8, 0), (16, 16)]
  | 0x120 => [⟨63, 0, .rw, .both⟩]
  | 0x128 => ro [(2, 0), (31, 16)] ++ w1c [(3, 3)]
  | 0x130 => slack .n (rw_ [(5, 0)]) ++ slack .e (rw_ [(13, 8)]) ++ slack .s (rw_ [(21, 16)]) ++ slack .w (rw_ [(29, 24)])
  | 0x138 => w1c [(3, 0), (7, 4)] ++ ro [(31, 16), (47, 32)]
  | 0x140 => ro [(61, 0), (62, 62), (63, 63)]
  | 0x148 => ro [(15, 0), (31, 16)]
  | 0x800 => ro [(0, 0), (1, 1), (2, 2), (31, 16), (47, 32)]
  | 0x808 => ro [(12, 0), (20, 16)]
  | 0x810 => roAll
  | 0x818 => ro [(12, 0), (20, 16)]
  | 0x820 => roAll
  | 0x828 => ro [(0, 0), (1, 1), (5, 2), (10, 6), (31, 16)]
  | 0x830 => roAll
  | 0x838 => ro [(15, 0), (31, 16), (44, 32), (45, 45)]
  | 0x840 => roAll
  | 0x848 => rw_ [(12, 0)]
  | 0x850 => ro [(0, 0), (1, 1)]
  | 0x858 => w1c [(0, 0), (1, 1)] ++ ro [(3, 2), (6, 4), (31, 16), (47, 32)]
  | 0x860 => ro [(47, 0), (48, 48), (63, 63)]
  | 0x868 => ro [(2, 0), (3, 3), (5, 4), (7, 6), (30, 16), (47, 32)]
  | 0x870 => roAll
  | _ => []

/-- The fields of a register; a reserved offset has none. -/
def State.fieldsOf (s : State) (b : Block) (off : Nat) : List RegField :=
  match b with
  | .mgt => mgtFields off
  | .hst => hstFields off
  | .page f => pageFields f off
  | .die d => dieFields d off
  | .rgn _ => rgnFields off
  | .edg _ => edgFields off
  | .tile t => s.tileFields t off

/-! ## Rights (R365) -/

/-- Whether a region belongs to partition `p`. -/
def State.regionIn (s : State) (r p : Nat) : Bool := (s.region r).ctl.assigned && (s.region r).ctl.part = p

/-- The MGT registers that others than the PF may read. -/
def mapWindow (off : Nat) : Bool := decide (0x10000 ≤ off)

/-- Whether a party may read at an offset of a block. -/
def State.mayRead (s : State) (w : Party) (b : Block) (off : Nat) : Bool :=
  match w with
  | .pf => true
  | .vf f =>
    match b with
    | .mgt => off = 0 || off = 8 || off = 0x10 || mapWindow off
    | .hst => false
    | .page g => g = f
    | .die _ => false
    | .rgn r => s.regionIn r (f - 1)
    | .edg _ => true
    | .tile t => s.regionIn (regionOf t) (f - 1)
  | .fm =>
    match b with
    | .mgt => !(0x1000 ≤ off && off < 0x3000)
    | .page _ => false
    | _ => true
  | .peer =>
    match b with
    | .mgt => off = 0 || off = 8 || mapWindow off
    | _ => false

/-- Whether a party writes the ordinary fields of a block. -/
def State.mayOwn (s : State) (w : Party) (b : Block) : Bool :=
  match w with
  | .pf => true
  | .vf f =>
    match b with
    | .page g => g = f
    | .rgn r => s.regionIn r (f - 1)
    | .tile t => s.regionIn (regionOf t) (f - 1)
    | _ => false
  | .fm =>
    match b with
    | .die _ => true
    | .rgn _ => true
    | _ => false
  | .peer => false

/-- Whether a party writes fabric-manager fields: a device of IRA_FM, or the PF with a FABRIC binding. -/
def State.mayFm (s : State) (w : Party) : Bool :=
  match w with
  | .pf => (s.fn 0).fabric.isSome
  | .fm => true
  | _ => false

/-- Whether the writer is the host. -/
def hosted : Party → Bool
  | .pf => true
  | .vf _ => true
  | _ => false

/-- Whether a party may write a field. -/
def State.mayWrite (s : State) (w : Party) (b : Block) (f : RegField) : Bool :=
  f.acc ≠ .ro &&
  (match f.who with
   | .any => s.mayOwn w b
   | .fm => s.mayFm w
   | .both => s.mayOwn w b || s.mayFm w
   | .host => s.mayOwn w b && hosted w)

/-- The bits of a field. -/
def RegField.mask (f : RegField) : Dword := BitVec.ofNat 64 (2 ^ (f.hi - f.lo + 1) - 1) <<< f.lo

/-- The bits of the fields of some kind that a party may write. -/
def State.writable (s : State) (w : Party) (b : Block) (off : Nat) (k : FieldAcc → Bool) : Dword :=
  ((s.fieldsOf b off).filter fun f => k f.acc && s.mayWrite w b f).foldl (fun m f => m ||| f.mask) 0

/-- R366: whether some field that the party may not write is given a value other than zero and its present value. -/
def State.overreach (s : State) (w : Party) (b : Block) (off : Nat) (mask v : Dword) : Bool :=
  (s.fieldsOf b off).any fun f =>
    let x := v &&& mask &&& f.mask
    !s.mayWrite w b f && x ≠ 0 && x ≠ s.readReg b off &&& mask &&& f.mask

/-! ## Slot tables (R140, R143, R152 to R154, R424) -/

/-- Whether a field is valid at an output (R143). -/
def Router.validField (x : Router) (tin : Nat → Bool) (o f : Nat) : Bool :=
  let a := fSrcA f
  let b := fSrcB f
  let from_ := fun (k : Nat) => k = 0 || (if x.transit o then k ≤ 4 && tin (k - 1) else k = 5 || !tin (k - 1))
  f / 1024 = 0 && a ≤ 5 && b ≤ 5 && fOp f ≤ 4 && (if fOp f = 0 then b = 0 else a ≠ 0 && b ≠ 0) &&
    (f / 512 % 2 = 1) = x.transit o && from_ a && from_ b

/-- Whether a link of a tile lies in its partition or leads to a fitted site (R153). -/
def State.linkInside (s : State) (t : Nat) (d : Dir) : Bool :=
  let c := (s.region (regionOf t)).ctl
  c.assigned &&
  (match edgeOf t d with
   | some (e, _) => edgeFitted s.mgt.fuses e
   | none =>
     match neighbour t d with
     | some u => s.regionIn (regionOf u) c.part
     | none => d = .l)

/-- Whether a partition-owned field names only links of R153; an idle field names none. -/
def State.confined (s : State) (t o f : Nat) : Bool :=
  let inside := fun (k : Nat) => k = 0 || k = 5 || s.linkInside t (dirOf (k - 1))
  fSrcA f = 0 || ((o = 4 || s.linkInside t (dirOf o)) && inside (fSrcA f) && inside (fSrcB f))

/-- The outcome of a checked write: status 0, or refused with a code of RTR_ST_STATUS. -/
def Router.status (x : Router) (code : Nat) : Router :=
  if code = 0 then { x with last := 0 } else { x with last := code, refused := true, count := sat16 (x.count + 1) }

/-- The first of INVALID, OWNER, CONFINE, ACTIVE and BUSY that holds, as a code of RTR_ST_STATUS (R424). -/
def refusal (invalid owner confine active busy : Bool) : Nat :=
  if invalid then 3 else if owner then 2 else if confine then 4 else if active then 1 else if busy then 5 else 0

/-- Whether a bank is active for an output of a router (R151, R152). -/
def State.bankActive (s : State) (t o : Nat) (bank : Bool) : Bool :=
  let x := s.router t
  x.active.getLsbD o = bank && (x.transit o || (s.region (regionOf t)).ctl.tables)

/-- A write to RTR_ST_DATA by a writer of partition fields, transit fields or both (R152, R153, R424). -/
def State.writeSlot (s : State) (t : Nat) (part fm : Bool) (v : Dword) : State :=
  let x := s.router t
  let cur := (x.bank x.selBank).look 0 x.selPos.toNat
  let tin := fun (i : Nat) => s.inTransit t (dirOf i)
  let ch := (List.range 5).filter fun o =>
    (if x.transit o then fm else part) && entryField v o ≠ entryField cur o
  let code := refusal (ch.any fun o => !x.validField tin o (entryField v o)) false
    (ch.any fun o => !x.transit o && !s.confined t o (entryField v o)) (ch.any fun o => s.bankActive t o x.selBank) false
  let new := ch.foldl (fun e o => setField e (12 * o) 12 (entryField v o)) cur
  s.setRouter t ((if code ≠ 0 then x
    else if x.selBank then { x with bank1 := x.bank1.put 0 x.selPos.toNat new }
    else { x with bank0 := x.bank0.put 0 x.selPos.toNat new }).status code)

/-- A write to RTR_PERIOD (R158, R424). -/
def State.writePeriods (s : State) (t : Nat) (v : Dword) : State :=
  let x := s.router t
  let now : List (Nat × Nat × Bool × Bool) :=
    [(x.pp0, bits v 9 0, false, false), (x.pp1, bits v 25 16, false, true), (x.tp0, bits v 41 32, true, false),
     (x.tp1, bits v 57 48, true, true)]
  let ch := now.filter fun q => q.1 ≠ q.2.1
  let code := refusal (ch.any fun q => q.2.1 = 0 || decide (512 < q.2.1)) false false
    (ch.any fun q => (List.range 5).any fun o => x.transit o = q.2.2.1 && s.bankActive t o q.2.2.2) false
  s.setRouter t ((if code ≠ 0 then x
    else { x with pp0 := bits v 9 0, pp1 := bits v 25 16, tp0 := bits v 41 32, tp1 := bits v 57 48 }).status code)

/-- A write to RTR_SLACK (R145, R158, R424). -/
def State.writeSlack (s : State) (t : Nat) (v : Dword) : State :=
  let x := s.router t
  let c := (s.region (regionOf t)).ctl
  let changed := x.slackN.toNat ≠ bits v 5 0 || x.slackE.toNat ≠ bits v 13 8 || x.slackS.toNat ≠ bits v 21 16 ||
    x.slackW.toNat ≠ bits v 29 24
  let code := refusal false false false false (changed && c.assigned && s.running c.part)
  s.setRouter t ((if code ≠ 0 then x
    else { x with
                  slackN := v.extractLsb' 0 6, slackE := v.extractLsb' 8 6, slackS := v.extractLsb' 16 6,
                  slackW := v.extractLsb' 24 6 }).status code)

/-- Whether a region has a loaded or running image (R154). -/
def State.imageOn (s : State) (r : Nat) : Bool :=
  let c := (s.region r).ctl
  c.assigned && (s.part c.part).img.isSome

/-- A write to T_OUT (R154, R424). -/
def State.writeTOut (s : State) (t : Nat) (v : BitVec 4) : State :=
  let x := s.router t
  let ch := ([0, 1, 2, 3] : List Nat).filter fun o => x.tOut.getLsbD o ≠ v.getLsbD o
  let code := refusal false
    (ch.any fun o => s.imageOn (regionOf t) || (neighbour t (dirOf o)).any fun u => s.imageOn (regionOf u)) false false false
  s.setRouter t ((if code ≠ 0 then x else { x with tOut := v }).status code)

/-! ## Edge tables (R210, R211, R424) -/

/-- Whether a bank of an edge port is active (R151, R210). -/
def State.edgeActive (s : State) (e : EdgeId) (y : EPort) (p : Nat) (bank : Bool) : Bool :=
  (s.region (regionOf (edgeTile e p).1)).ctl.tables && y.active = bank

/-- Whether an entry of an edge table is well formed (R210, R260). -/
def edgeEntryOk (e : EdgeId) (v : BitVec 32) : Bool :=
  eOp v ≠ 3 && bits v 31 (match e with | .hbm _ => 20 | .iod _ => 22) = 0

/-- Lines of the share that a port of an edge serves. -/
def State.portLines (s : State) (e : EdgeId) (p : Nat) : Nat :=
  let c := (s.region (regionOf (edgeTile e p).1)).ctl
  if c.assigned then
    match (s.edge e).shareOf c.part with
    | some (_, h) => h.lines
    | none => 0
  else 0

/-- A write to EST_DATA (R152, R211). -/
def State.writeEstData (s : State) (e : EdgeId) (v : BitVec 32) : State :=
  let g := s.edge e
  let p := g.estPort
  let y := g.ports.look {} p
  let cur := (if g.estBank then y.bank1 else y.bank0).look 0 g.estPos
  let code :=
    if edgePorts e ≤ p then (if v = 0 then 0 else 3)
    else if v = cur then 0
    else refusal (!edgeEntryOk e v) false (s.portLines e p ≤ eLine v) (s.edgeActive e y p g.estBank) false
  s.modEdge e fun g =>
    let g := { g with last := code }
    if code ≠ 0 then g
    else
      let z := if g.estBank then { y with bank1 := y.bank1.put 0 g.estPos v }
        else { y with bank0 := y.bank0.put 0 g.estPos v }
      { g with ports := g.ports.put {} p z }

/-- A write to EST_PORT (R152, R211); the steps are 17 bits wide at an HBM site and 19 at an I/O die. -/
def State.writeEstPort (s : State) (e : EdgeId) (v : Dword) : State :=
  let g := s.edge e
  let p := g.estPort
  let y := g.ports.look {} p
  let w := match e with
    | .hbm _ => 17
    | .iod _ => 19
  let st0 := bits v (19 + w) 20
  let st1 := bits v (19 + 2 * w) (20 + w)
  let bad := fun (old new : Nat) => old ≠ new && (new = 0 || decide (512 < new))
  let code :=
    if edgePorts e ≤ p then (if v = 0 then 0 else 3)
    else refusal (bad y.per0 (bits v 9 0) || bad y.per1 (bits v 19 10)) false false
      (((y.per0 ≠ bits v 9 0 || y.step0 ≠ st0) && s.edgeActive e y p false) ||
       ((y.per1 ≠ bits v 19 10 || y.step1 ≠ st1) && s.edgeActive e y p true)) false
  s.modEdge e fun g =>
    let g := { g with last := code }
    if code ≠ 0 then g
    else
      let z := { y with per0 := bits v 9 0, per1 := bits v 19 10, step0 := st0, step1 := st1 }
      { g with ports := g.ports.put {} p z }

/-- Ones written to the sticky bits of an ox status (R225). -/
def Edge.w1c (g : Edge) (v : Dword) : Edge :=
  let g := { g with late := g.late && !v.getLsbD 1, miss := g.miss && !v.getLsbD 2, refused := g.refused && !v.getLsbD 3 }
  { g with beatValid := g.beatValid && (g.late || g.miss || g.refused) }

/-! ## Rings (R362, R371 to R376) -/

/-- A submission entry from its 64 bytes. -/
def sqEntry (b : List Byte) : SqEntry :=
  let n := fun (o k : Nat) => leNat ((b.drop o).take k)
  { opcode := BitVec.ofNat 8 (n 0 1), flags := BitVec.ofNat 8 (n 1 1), cid := BitVec.ofNat 16 (n 2 2),
    window := BitVec.ofNat 8 (n 4 1), rsv0 := BitVec.ofNat 24 (n 5 3), hostOff := BitVec.ofNat 64 (n 8 8),
    devOff := BitVec.ofNat 64 (n 16 8), length := BitVec.ofNat 32 (n 24 4), arg := BitVec.ofNat 32 (n 28 4),
    arg2 := BitVec.ofNat 64 (n 32 8), rsv1 := BitVec.ofNat 184 (n 40 23), phase := BitVec.ofNat 8 (n 63 1) }

/-- The opcodes of R376: 1 to 8 on a VF's ring, 0x10 to 0x12 on the PF's. -/
def opKnown (op : Nat) : Bool := decide (1 ≤ op ∧ op ≤ 8) || decide (0x10 ≤ op ∧ op ≤ 0x12)

/-- Why a fetched entry is not executed, as status and DETAIL (R362, R370, R372, R375, R376; the order is log entry
53). -/
def Fn.screen (x : Fn) (f : Nat) (phase : Bool) (e : SqEntry) : Option (Nat × Nat) :=
  let op := e.opcode.toNat
  if e.phase.getLsbD 0 ≠ phase then some (9, 0)
  else if f ≠ 0 && !x.enabled then some (1, 1)
  else if x.ring.isNone then some (4, 0)
  else if !opKnown op then some (1, 5)
  else if (f = 0) ≠ (0x10 ≤ op) then some (1, 2)
  else if e.flags.toNat / 2 ≠ 0 || e.rsv0 ≠ 0 || e.rsv1 ≠ 0 || e.phase.toNat / 2 ≠ 0 then some (1, 3)
  else none

/-- Entries of a submission ring. -/
def Fn.sqSize (x : Fn) : Nat := 2 ^ x.sqLog

/-- The device fetches entries from its head up to TAIL while the CQ is not full (R372, R374). -/
def State.fetchRing (s : State) (f : Nat) : Nat → State
  | 0 => s
  | n + 1 =>
    let x := s.fn f
    if !x.sqOn || x.sqHead = x.sqTail || x.cqFull then s
    else
      let e := sqEntry (readBytes s.host (x.sqBase.toNat * 4096 + 64 * x.sqHead) 64)
      let h := (x.sqHead + 1) % x.sqSize
      let q : Fetched := { entry := e, head := h, rej := x.screen f x.sqPhase e }
      let s := s.modFn f fun x => { x with
        sqHead := h, sqPhase := if h = 0 then !x.sqPhase else x.sqPhase, queue := x.queue ++ [q] }
      State.fetchRing (s.ringOn f) f n

/-- Waiting completions are written, then entries fetched. -/
def State.ringAgain (s : State) (f : Nat) : State :=
  let s := s.drainCq f (s.fn f).waitCq.length
  s.fetchRing f 4096

/-- A write of TAIL (R372). -/
def State.writeTail (s : State) (f v : Nat) : State :=
  if (s.fn f).sqSize ≤ v then s.event f 7 else (s.modFn f fun x => { x with sqTail := v }).fetchRing f 4096

/-- A write of the CQ's HEAD (R373). -/
def State.writeHead (s : State) (f v : Nat) : State :=
  let x := s.fn f
  let n := x.cqSize
  if n ≤ v || (x.cqTail + n - x.cqHead) % n < (v + n - x.cqHead) % n then s.event f 7
  else (s.modFn f fun x => { x with cqHead := v }).ringAgain f

/-- A write of a ring's configuration: none where it is refused INVALID (R371; LOG2 outside 4 to 12 is log entry 54). -/
def State.writeRing (s : State) (f : Nat) (cq : Bool) (v : Dword) : Option State :=
  let x := s.fn f
  let l := bits v 3 0
  let on : Bool := v.getLsbD 4
  let base : BitVec 52 := v.extractLsb' 12 52
  let was : Bool := if cq then x.cqOn else x.sqOn
  let moved : Bool := if cq then decide (l ≠ x.cqLog ∨ base ≠ x.cqBase) else decide (l ≠ x.sqLog ∨ base ≠ x.sqBase)
  if l < 4 || 12 < l || (was && moved) then none
  else
    let s := s.modFn f fun x =>
      if cq then
        let x := { x with cqLog := l, cqBase := base, cqOn := on }
        if on && !was then { x with cqHead := 0, cqTail := 0, cqPhase := true } else x
      else
        let x := { x with sqLog := l, sqBase := base, sqOn := on }
        if on && !was then { x with sqHead := 0, sqTail := 0, sqPhase := true } else x
    some (s.ringAgain f)

/-! ## MGT, IRA and COL -/

/-- A write of MGT_MODE (R195, R201, R394); a refused field refuses the write (log entry 55). -/
def State.writeMode (s : State) (v : Dword) : State :=
  let mhz := bits v 14 4
  let ilv := v.getLsbD 1
  if mhz < 600 || 1200 < mhz || mhz % 25 ≠ 0 then s.modMgt fun m => { m with modeLast := 1 }
  else if ilv ≠ s.mgt.ilv &&
      (((List.range 16).any fun p => (s.part p).img.isSome) || s.pages.any fun r => pgMode r.2 ≠ 0 || pgPending r.2) then
    s.modMgt fun m => { m with modeLast := 5 }
  else s.modMgt fun m => { m with
    fixed := v.getLsbD 0, fixedMhz := mhz, ilv := ilv, striped := if ilv ≠ m.ilv then ilv else m.striped,
    modeWait := v.getLsbD 0 ≠ m.fixedOn, modeLast := 0 }

/-- The 4,096 bytes of a mailbox bank as the request or response they hold (R393). -/
def mbxNum (t : Tab Byte) (o n : Nat) : Nat := leNat ((List.range n).map fun i => t.look 0 (o + i))

/-- A response written in place: status, length and payload, the TAG kept (R393). -/
def Mgt.respond (m : Mgt) (status : Nat) (payload : List Byte) : Mgt :=
  let w := fun (t : Tab Byte) =>
    ((t.putAll 0 0 (leBytes 2 status ++ leBytes 2 payload.length)).putAll 0 8 payload)
  let m := { m with mboxBusy := false }
  if m.mboxFill then { m with mbox0 := w m.mbox0 } else { m with mbox1 := w m.mbox1 }

/-- A write of DOORBELL (R131, R393): a request with an unknown opcode or a payload over 4,088 bytes is answered INVALID
(log entry 56). -/
def Mgt.doorbell (m : Mgt) : Mgt :=
  if m.mboxBusy then { m with mboxRefused := true }
  else
    let m := { m with mboxFill := !m.mboxFill, swaps := m.swaps + 1, mboxBusy := true }
    let op := mbxNum m.drainBank 0 2
    if op = 0 || 6 < op || 4088 < mbxNum m.drainBank 2 2 then m.respond 1 [] else m

/-- A write of DEV_ID and VALID (R220, R250): refused while a port is UP. -/
def State.writeDevId (s : State) (v : Dword) : State :=
  let m := s.mgt
  let id : BitVec 13 := v.extractLsb' 0 13
  let valid := v.getLsbD 13
  if id = m.devId && valid = m.devValid then s
  else if (List.range 48).any fun p => (s.port p).st == .up then s.modMgt fun m => { m with devRefused := true }
  else
    let s := s.modMgt fun m => { m with
      devPrevs := (if m.devRewriting then m.devPrevs else []) ++ [m.ownId], devId := id, devValid := valid }
    let s := s.modMgt fun m => { m with devRewriting := m.devRewriting || valid }
    (forAll (List.range 48) s fun p s => s.modPort p fun x => { x with sentAdmit := x.sentAdmit && x.st ≠ .ready }).chooseParent

/-- A write of IRA_ROUTE (R250, R259): a port number 48 to 62 leaves the entry unchanged. -/
def Iod.writeRoute (x : Iod) (v : Dword) : Iod :=
  let p := bits v 5 0
  let a := bits v 13 8
  let ok := fun (n : Nat) => n < 48 || n = 63
  if ok p && ok a then { x with route := x.route.put 0xFFF x.routeSel.toNat (pack [(0, p), (6, a)]) } else x

/-- RETIRE of a port (R252, R255): DEPART with reason RETIRE, then dark and RETIRED. -/
def State.retirePort (s : State) (p : Nat) : State :=
  if (s.port p).st == .up then ((s.sendLink p 5 3 0 0 0).leaveUp p .retired false).chooseParent
  else s.modPort p fun x => { x with st := .retired, draining := false, sentAdmit := false, gotAdmit := false }

/-- A write of IRA_PORT_CTL acts on the selected port (R255, R259). -/
def State.portCtl (s : State) (d : Nat) (v : Dword) : State :=
  let k := (s.iod d).portSel.toNat
  if 12 ≤ k then s
  else if v.getLsbD 2 then s.retirePort (12 * d + k)
  else if v.getLsbD 0 then s.startRetrain (12 * d + k) (v.getLsbD 1)
  else s

/-- A write of FREEZE: clearing it lets a full bank swap (R281). -/
def DigestLog.setFreeze (l : DigestLog) (on : Bool) : DigestLog :=
  let l := { l with freeze := on }
  if !on && 32768 ≤ l.entries then l.swap else l

/-- A write to a queue's control register; FLUSH goes before POP, and only software-consumed queues pop (R126, R127). -/
def GQueue.control (q : GQueue) (v : Dword) (pops : Bool) : GQueue :=
  if v.getLsbD 0 then q.flush else if v.getLsbD 1 && pops then q.pop else q

/-- A flush of a queue whose producer is held back by credits: the entries it held are freed (R126, R181). -/
def State.flushOx (s : State) (x : Nat) : State :=
  let q := (s.site x).oxq
  match q.items with
  | [] => s
  | i :: _ =>
    let s := (s.modSite x fun y => { y with oxq := y.oxq.flush }).freed x q.used (askerDie (headOf i))
    q.items.foldl (fun s k => s.askAgain (headOf k)) s
def State.flushFq (s : State) (d p : Nat) : State :=
  let q := (s.iod d).fq.look { n := 9 } p
  if q.items.isEmpty then s
  else (s.modIod d fun x => { x with fq := x.fq.put { n := 9 } p q.flush }).freed (0x100 + 12 * d + p) q.used d

/-! ## What a write does -/

/-- A write to the MGT range: `v` has the register's new fields, `one` the ones written to W1C and WO fields, `wm` the
bits of RW fields written. -/
def State.writeMgt (s : State) (off : Nat) (wm v one : Dword) : State :=
  match off with
  | 0x018 => if one.getLsbD 0 then s.modMgt fun m => m.activate m.nextTick else s
  | 0x020 => if wm = 0 then s else s.writeMode v
  | 0x028 => s.modMgt fun m =>
    let m := if wm.getLsbD 0 then m.writeCap true (bits v 15 0) else m
    if wm.getLsbD 16 then m.writeCap false (bits v 31 16) else m
  | 0x040 => s.modMgt fun m => { m with cperq := m.cperq.w1c one }
  | 0x048 => s.modMgt fun m => { m with cperq := m.cperq.control one true }
  | 0x050 => s.modMgt fun m =>
    let m := { m with mboxRefused := m.mboxRefused && !one.getLsbD 2 }
    if one.getLsbD 0 then m.doorbell else m
  | _ =>
    if 0x1000 ≤ off ∧ off < 0x2000 then s.modMgt fun m =>
      let w := fun (t : Tab Byte) => t.putAll 0 (off - 0x1000) (leBytes 8 v.toNat)
      if m.mboxFill then { m with mbox1 := w m.mbox1 } else { m with mbox0 := w m.mbox0 }
    else s

/-- A write to a function page; none where it is refused INVALID. -/
def State.writePage (s : State) (f off : Nat) (wm v one : Dword) : Option State :=
  match off with
  | 0x08 => if wm = 0 then some s else s.writeRing f false v
  | 0x10 => some (if wm = 0 then s else s.writeTail f (bits v 11 0))
  | 0x18 => if wm = 0 then some s else s.writeRing f true v
  | 0x20 => some (if wm = 0 then s else s.writeHead f (bits v 11 0))
  | 0x28 => some (s.modFn f fun x => { x with events := x.events &&& ~~~ one.extractLsb' 0 8 })
  | 0x30 => some (s.modFn f fun x => { x with mask := v.extractLsb' 0 8 })
  | 0x40 => some (s.modPart (f - 1) fun p => { p with normq := p.normq.w1c one })
  | 0x48 => some (s.modPart (f - 1) fun p => { p with normq := p.normq.control one true })
  | _ => some s

/-- A write to a region's window. -/
def State.writeRgn (s : State) (r off : Nat) (wm v one : Dword) : State :=
  match off with
  | 0x220 =>
    let s := if one.getLsbD 0 then s.holdRequest r 0 16 else if one.getLsbD 1 then s.resumeRequest r 16 else s
    if one.getLsbD 2 then s.holdRequest r 0 32 else if one.getLsbD 3 then s.resumeRequest r 32 else s
  | 0x228 => s.modCtl r fun c =>
    let e := c.err &&& ~~~ one.extractLsb' 0 6
    { c with err := e, errValid := c.errValid && e ≠ 0 }
  | 0x238 => s.modCtl r fun c => { c with barSel := v.extractLsb' 0 12 }
  | 0x318 => if wm = 0 then s else s.modClk r fun k => { k with maxLag := (v.extractLsb' 16 16).toInt }
  | 0x320 => s.modClk r fun k =>
    let e := k.err &&& ~~~ one.extractLsb' 0 5
    { k with err := e, errValid := k.errValid && e ≠ 0 }
  | 0x428 => s.modPwr r fun p => { p with tHigh := v.extractLsb' 8 8 }
  | 0x438 => s.modPwr r fun p =>
    let e := p.err &&& ~~~ one.extractLsb' 0 8
    { p with err := e, errValid := p.errValid && e ≠ 0 }
  | 0x448 => s.modPwr r fun p => { p with learnSel := v.extractLsb' 0 8 }
  | 0x600 =>
    let s := s.modTest r fun t => { t with noPause := t.noPause && !one.getLsbD 10 }
    if one.getLsbD 0 then s.grant r else s
  | 0x608 => s.modRegion r fun x => { x with faults := x.faults.w1c one }
  | 0x610 => s.modRegion r fun x => { x with faults := x.faults.control one false }
  | _ => s

/-- A write to an HBM site's window. -/
def State.writeEdg (s : State) (x off : Nat) (wm v one : Dword) : State :=
  match off with
  | 0x40 => s.modEdge (.hbm x) fun g => g.w1c one
  | 0x50 => s.modSite x fun y => { y with oxq := y.oxq.w1c one }
  | 0x58 => if one.getLsbD 0 then s.flushOx x else s
  | 0x60 => s.modEdge (.hbm x) fun g => { g with pageSel := bits v 18 0 }
  | 0x70 => s.modEdge (.hbm x) fun g => { g with estPort := bits v 4 0, estPos := bits v 13 5, estBank := v.getLsbD 14 }
  | 0x78 => if wm = 0 then s else s.writeEstData (.hbm x) (v.extractLsb' 0 32)
  | 0x80 => if wm = 0 then s else s.writeEstPort (.hbm x) v
  | _ => s

/-- A write to an I/O die's window. -/
def State.writeDie (s : State) (d off : Nat) (wm v one : Dword) : State :=
  match off with
  | 0x008 =>
    let s := s.modMgt fun m => { m with devRefused := m.devRefused && !one.getLsbD 14 }
    if wm = 0 then s else s.writeDevId v
  | 0x010 =>
    let was := (s.iod d).gmSelf
    let s := s.modIod d fun x => { x with quiesce := v.getLsbD 0, gmSelf := v.getLsbD 1 }
    if v.getLsbD 1 = was then s else s.chooseParent
  | 0x018 => if wm = 0 then s else s.modMgt fun m => { m with fmDevs := v }
  | 0x020 => s.modIod d fun x => { x with portSel := v.extractLsb' 0 4, laneSel := v.extractLsb' 8 4 }
  | 0x030 => s.portCtl d one
  | 0x048 => s.modIod d fun x => { x with routeSel := v.extractLsb' 0 13 }
  | 0x050 => if wm = 0 then s else s.modIod d fun x => x.writeRoute v
  | 0x820 => s.modEdge (.iod d) fun g => g.w1c one
  | 0x830 => s.modEdge (.iod d) fun g => { g with pageSel := bits v 18 0 }
  | 0x840 => s.modEdge (.iod d) fun g => { g with estPort := bits v 5 0, estPos := bits v 14 6, estBank := v.getLsbD 15 }
  | 0x848 => if wm = 0 then s else s.writeEstData (.iod d) (v.extractLsb' 0 32)
  | 0x850 => if wm = 0 then s else s.writeEstPort (.iod d) v
  | 0x80008 => s.modIod d fun x => { x with colSel := v.extractLsb' 0 6 }
  | 0x80038 => if wm = 0 then s else { s with dlog := s.dlog.setFreeze (v.getLsbD 0) }
  | 0x80040 => if wm = 0 then s
    else { s with dlog := { s.dlog with selEntry := v.extractLsb' 0 15, selBank := v.getLsbD 15 } }
  | _ =>
    if 0x100 ≤ off ∧ off < 0x1C0 then
      let p := (off - 0x100) / 16
      if off % 16 = 0 then
        s.modIod d fun x => { x with fq := x.fq.put { n := 9 } p ((x.fq.look { n := 9 } p).w1c one) }
      else if one.getLsbD 0 then s.flushFq d p
      else s
    else s

/-- A write to a tile's window; `part` and `fm` say whose slot-table fields the writer owns (R152). -/
def State.writeTile (s : State) (t off : Nat) (part fm : Bool) (wm v one : Dword) : State :=
  match off with
  | 0x018 => s.modTile t fun x => { x with err := x.err &&& ~~~ one.extractLsb' 0 9 }
  | 0x028 => s.modTile t fun x => { x with psSel := v.extractLsb' 0 13 }
  | 0x040 => if wm = 0 then s else s.modTile t fun x => { x with xdrop := bits v 31 16 }
  | 0x100 => if wm = 0 then s else s.writeTOut t (v.extractLsb' 0 4)
  | 0x108 => if wm = 0 then s else s.writePeriods t v
  | 0x118 => s.modRouter t fun x => { x with selPos := v.extractLsb' 0 9, selBank := v.getLsbD 16 }
  | 0x120 => if wm = 0 then s else s.writeSlot t part fm v
  | 0x128 => s.modRouter t fun x => { x with refused := x.refused && !one.getLsbD 3 }
  | 0x130 => if wm = 0 then s else s.writeSlack t v
  | 0x138 => s.modRouter t fun x =>
    let l := x.late &&& ~~~ one.extractLsb' 0 4
    { x with late := l, ovr := x.ovr &&& ~~~ one.extractLsb' 4 4, lateValid := x.lateValid && l ≠ 0 }
  | 0x848 => s.modTile t fun x => { x with spr := { x.spr with lineSel := v.extractLsb' 0 13 } }
  | 0x858 => s.modTile t fun x =>
    let a := x.test.arrSeen && !one.getLsbD 0
    let b := x.test.rtrSeen && !one.getLsbD 1
    { x with test := { x.test with arrSeen := a, rtrSeen := b, resValid := x.test.resValid && (a || b) } }
  | _ => s

/-- A permitted write of the bits in `mask` (R366): the effect, or none where the register refuses it INVALID. -/
def State.writeReg (s : State) (w : Party) (b : Block) (off : Nat) (mask v : Dword) : Option State :=
  let wm := mask &&& s.writable w b off (· = .rw)
  let one := v &&& mask &&& s.writable w b off fun a => a = .w1c || a = .wo
  let v := (s.readReg b off &&& ~~~ wm) ||| (v &&& wm)
  match b with
  | .mgt => some (s.writeMgt off wm v one)
  | .hst => some (if off = 0 then s.modMgt fun m => { m with accSeen := m.accSeen && !one.getLsbD 0 } else s)
  | .page f => s.writePage f off wm v one
  | .die d => some (s.writeDie d off wm v one)
  | .rgn r => some (s.writeRgn r off wm v one)
  | .edg x => some (s.writeEdg x off wm v one)
  | .tile t => some (s.writeTile t off (s.mayOwn w b) (s.mayFm w) wm v one)

/-! ## Accesses (R286, R363, R364) -/

/-- Bits of a register that an access of 4 or 8 bytes reaches, and the place of the low one. -/
def accShift (a size : Nat) : Nat := if size = 4 ∧ a % 8 = 4 then 32 else 0
def accMask (a size : Nat) : Dword := if size = 4 then 0xFFFFFFFF#64 <<< accShift a size else BitVec.allOnes 64

/-- The refusals INVALID, UNMAPPED and NOT_READY that go before rights; 0 with block and offset where none applies. -/
def State.reach (s : State) (a size : Nat) : Nat × Block × Nat :=
  if !((size = 4 || size = 8) && a % size = 0) then (1, .mgt, 0)
  else match blockOf s.mgt.fuses a with
    | none => (7, .mgt, 0)
    | some (b, off) =>
      let early := match b with
        | .mgt => true
        | .hst => true
        | .page _ => true
        | _ => false
      if !s.mgt.ready && !early then (6, .mgt, 0) else (0, b, off - off % 8)

/-- What a read answers: its status, and the value shown (all ones where it is refused). -/
def State.ctlLoad (s : State) (w : Party) (a size : Nat) : Nat × Dword :=
  let r := s.reach a size
  if r.1 ≠ 0 then (r.1, BitVec.allOnes 64)
  else if !s.mayRead w r.2.1 r.2.2 then (8, BitVec.allOnes 64)
  else (0, (s.readReg r.2.1 r.2.2 &&& accMask a size) >>> accShift a size)

/-- A write's status and the state after it. -/
def State.ctlStore (s : State) (w : Party) (a size : Nat) (v : Dword) : Nat × State :=
  let r := s.reach a size
  if r.1 ≠ 0 then (r.1, s)
  else
    let b := r.2.1
    let off := r.2.2
    let mask := accMask a size
    let v := v <<< accShift a size
    if !s.mayRead w b off || s.overreach w b off mask v then (8, s)
    else match s.writeReg w b off mask v with
      | some t => (0, t)
      | none => (1, s)

/-- The function of a host party. -/
def partyFn : Party → Nat
  | .vf f => f
  | _ => 0

/-- A refused write of the host is counted, and recorded where none is (R364, R395). -/
def State.accError (s : State) (w : Party) (a st : Nat) : State :=
  if !hosted w then s
  else s.modMgt fun m =>
    let m := { m with accCount := sat16 (m.accCount + 1) }
    if m.accSeen then m
    else { m with accSeen := true, accStatus := st, accFn := partyFn w, accAddr := BitVec.ofNat 40 a }

/-- A write of a party. -/
def State.write (s : State) (w : Party) (a size : Nat) (v : Dword) : State :=
  let r := s.ctlStore w a size v
  if r.1 = 0 then r.2 else s.accError w a r.1

/-- Whether a party exists: the functions are the PF and VFs 1 to 16 (R362). -/
def partyOk : Party → Bool
  | .vf f => 1 ≤ f && f ≤ 16
  | _ => true

/-! ## The commands that write one register -/

/-- A write of a whole register. -/
def regRow (ok : Bool) (w : Party) (b : Block) (off : Nat) (v : State → Dword) (s : State) :
    Host.Outcome State Fault Refusal :=
  onUnit (ok && partyOk w) s fun s => s.write w (addrOf b off) 8 (v s)

/-- Where a queue's control register stands. -/
def queueAddr : QueueId → Block × Nat
  | .fault r => (.rgn r, 0x610)
  | .ox x => (.edg x, 0x58)
  | .fabric p => (.die (p / 12), 0x108 + 16 * (p % 12))
  | .cper => (.mgt, 0x48)
  | .norm p => (.page (p + 1), 0x48)

/-- The queues of R128. -/
def queueOk : QueueId → Bool
  | .fault r => r < 40
  | .ox x => x < 16
  | .fabric p => p < 48
  | .cper => true
  | .norm p => p < 16

/-- FLUSH (R126). -/
def execFlush (w : Party) (q : QueueId) (s : State) : Host.Outcome State Fault Refusal :=
  regRow (queueOk q) w (queueAddr q).1 (queueAddr q).2 (fun _ => 1) s

/-- POP (R124). -/
def execPop (w : Party) (q : QueueId) (s : State) : Host.Outcome State Fault Refusal :=
  regRow (queueOk q) w (queueAddr q).1 (queueAddr q).2 (fun _ => 2) s

/-- RTR_ST_DATA (R152). -/
def execRtrStData (w : Party) (t : Nat) (v : Dword) (s : State) : Host.Outcome State Fault Refusal :=
  regRow (t < 20000) w (.tile t) 0x120 (fun _ => v) s

/-- RTR_PERIOD (R152). -/
def execRtrPeriod (w : Party) (t : Nat) (v : Dword) (s : State) : Host.Outcome State Fault Refusal :=
  regRow (t < 20000) w (.tile t) 0x108 (fun _ => v) s

/-- RTR_SLACK (R145). -/
def execRtrSlack (w : Party) (t : Nat) (v : Dword) (s : State) : Host.Outcome State Fault Refusal :=
  regRow (t < 20000) w (.tile t) 0x130 (fun _ => v) s

/-- T_OUT (R154): the operand is the whole of RTR_CFG. -/
def execTOut (w : Party) (t : Nat) (v : Dword) (s : State) : Host.Outcome State Fault Refusal :=
  regRow (t < 20000) w (.tile t) 0x100 (fun _ => v) s

/-- HOST_HOLD (R176). -/
def execHostHold (w : Party) (r : Nat) (s : State) : Host.Outcome State Fault Refusal :=
  regRow (r < 40) w (.rgn r) 0x220 (fun _ => 1) s

/-- HOST_RESUME (R176). -/
def execHostResume (w : Party) (r : Nat) (s : State) : Host.Outcome State Fault Refusal :=
  regRow (r < 40) w (.rgn r) 0x220 (fun _ => 2) s

/-- FM_HOLD (R176). -/
def execFmHold (w : Party) (r : Nat) (s : State) : Host.Outcome State Fault Refusal :=
  regRow (r < 40) w (.rgn r) 0x220 (fun _ => 4) s

/-- FM_RESUME (R176). -/
def execFmResume (w : Party) (r : Nat) (s : State) : Host.Outcome State Fault Refusal :=
  regRow (r < 40) w (.rgn r) 0x220 (fun _ => 8) s

/-- FIXED (R195). -/
def execFixed (w : Party) (on : Bool) (s : State) : Host.Outcome State Fault Refusal :=
  regRow true w .mgt 0x20 (fun s => setField (s.mgtReg 0x20) 0 1 (b2n on)) s

/-- FIXED_MHZ (R195). -/
def execFixedMhz (w : Party) (mhz : Nat) (s : State) : Host.Outcome State Fault Refusal :=
  regRow (mhz < 2048) w .mgt 0x20 (fun s => setField (s.mgtReg 0x20) 4 11 mhz) s

/-- ILV (R201). -/
def execIlv (w : Party) (on : Bool) (s : State) : Host.Outcome State Fault Refusal :=
  regRow true w .mgt 0x20 (fun s => setField (s.mgtReg 0x20) 1 1 (b2n on)) s

/-- EDG_EST_DATA (R210). -/
def execEdgEstData (w : Party) (x : Nat) (v : Dword) (s : State) : Host.Outcome State Fault Refusal :=
  regRow (x < 16) w (.edg x) 0x78 (fun _ => v) s

/-- EDG_EST_PORT (R211). -/
def execEdgEstPort (w : Party) (x : Nat) (v : Dword) (s : State) : Host.Outcome State Fault Refusal :=
  regRow (x < 16) w (.edg x) 0x80 (fun _ => v) s

/-- IRA_EST_DATA (R260). -/
def execIraEstData (w : Party) (d : Nat) (v : Dword) (s : State) : Host.Outcome State Fault Refusal :=
  regRow (d < 4) w (.die d) 0x848 (fun _ => v) s

/-- IRA_EST_PORT (R260). -/
def execIraEstPort (w : Party) (d : Nat) (v : Dword) (s : State) : Host.Outcome State Fault Refusal :=
  regRow (d < 4) w (.die d) 0x850 (fun _ => v) s

/-- DEV_ID (R250). -/
def execDevId (w : Party) (v : Dword) (s : State) : Host.Outcome State Fault Refusal :=
  regRow true w (.die 0) 0x8 (fun _ => v) s

/-- IRA_ROUTE (R250). -/
def execIraRoute (w : Party) (d : Nat) (v : Dword) (s : State) : Host.Outcome State Fault Refusal :=
  regRow (d < 4) w (.die d) 0x50 (fun _ => v) s

/-- QUIESCE (R241). -/
def execQuiesce (w : Party) (d : Nat) (on : Bool) (s : State) : Host.Outcome State Fault Refusal :=
  regRow (d < 4) w (.die d) 0x10 (fun s => setField (s.iraReg d 0x10) 0 1 (b2n on)) s

/-- GM_SELF (R257). -/
def execGmSelf (w : Party) (on : Bool) (s : State) : Host.Outcome State Fault Refusal :=
  regRow true w (.die 0) 0x10 (fun s => setField (s.iraReg 0 0x10) 1 1 (b2n on)) s

/-- RETRAIN (R255). -/
def execRetrain (w : Party) (d : Nat) (full : Bool) (s : State) : Host.Outcome State Fault Refusal :=
  regRow (d < 4) w (.die d) 0x30 (fun _ => pack [(0, 1), (1, b2n full)]) s

/-- RETIRE (R255). -/
def execRetire (w : Party) (d : Nat) (s : State) : Host.Outcome State Fault Refusal :=
  regRow (d < 4) w (.die d) 0x30 (fun _ => 4) s

/-- FREEZE (R281). -/
def execFreeze (w : Party) (on : Bool) (s : State) : Host.Outcome State Fault Refusal :=
  regRow true w (.die 0) 0x80038 (fun s => setField (s.colReg 0 0x80038) 0 1 (b2n on)) s

/-- ACTIVATE (R291). -/
def execActivate (w : Party) (s : State) : Host.Outcome State Fault Refusal := regRow true w .mgt 0x18 (fun _ => 1) s

/-- HOST_CAP_W (R325). -/
def execHostCapW (w : Party) (watts : Nat) (s : State) : Host.Outcome State Fault Refusal :=
  regRow (watts < 65536) w .mgt 0x28 (fun s => setField (s.mgtReg 0x28) 0 16 watts) s

/-- FM_CAP_W (R325). -/
def execFmCapW (w : Party) (watts : Nat) (s : State) : Host.Outcome State Fault Refusal :=
  regRow (watts < 65536) w .mgt 0x28 (fun s => setField (s.mgtReg 0x28) 16 16 watts) s

/-- GRANT (R346). -/
def execGrant (w : Party) (r : Nat) (s : State) : Host.Outcome State Fault Refusal :=
  regRow (r < 40) w (.rgn r) 0x600 (fun _ => 1) s

/-- DOORBELL (R131). -/
def execDoorbell (w : Party) (s : State) : Host.Outcome State Fault Refusal := regRow true w .mgt 0x50 (fun _ => 1) s

/-- What software has written in host memory. -/
def State.hostBytes (s : State) (host : List (Nat × Byte)) : State :=
  { s with host := host.foldl (fun (h : List Host.Cell) p => Tab.put (0 : Byte) h p.1 p.2) s.host }

/-- TAIL (R372); `host` is what software has written in host memory since. -/
def execTail (w : Party) (f tail : Nat) (host : List (Nat × Byte)) (s : State) : Host.Outcome State Fault Refusal :=
  onUnit (f ≤ 16 && tail < 4096 && partyOk w) s fun s =>
    let s := s.hostBytes host
    s.write w (addrOf (.page f) 0x10) 8 (setField (s.pageReg f 0x10) 0 12 tail)

/-- HEAD (R373). -/
def execHead (w : Party) (f head : Nat) (s : State) : Host.Outcome State Fault Refusal :=
  regRow (f ≤ 16 && head < 4096) w (.page f) 0x20 (fun s => setField (s.pageReg f 0x20) 0 12 head) s

/-- ENABLE (R371). -/
def execEnable (w : Party) (f : Nat) (cq on : Bool) (s : State) : Host.Outcome State Fault Refusal :=
  let off := if cq then 0x18 else 0x08
  regRow (f ≤ 16) w (.page f) off (fun s => setField (s.pageReg f off) 4 1 (b2n on)) s

/-- REGISTER_WRITE (R366). -/
def execRegisterWrite (w : Party) (addr size : Nat) (v : Dword) (s : State) : Host.Outcome State Fault Refusal :=
  onUnit (partyOk w && addr < 2 ^ 40) s fun s => s.write w addr size v

/-! ## Control operations of the fabric (R237, R240, R365) -/

/-- The party that a device of the fabric is. -/
def Mgt.partyOf (m : Mgt) (dev : Nat) : Party := if m.isFm dev then .fm else .peer

/-- Whether a party may read an address at all; where nothing is mapped, only a fabric manager learns so (R364). -/
def State.ctlAllowed (s : State) (w : Party) (a : Nat) : Bool :=
  match blockOf s.mgt.fuses a with
  | some (b, off) => s.mayRead w b (off - off % 8)
  | none => w == .fm

/-- CTL_READ (R235, R237, R240). -/
def execCtlRead (port : Nat) (s : State) : Host.Outcome State Fault Refusal :=
  fabricRow port s (fun h => hOp h = 6) fun k s =>
    let h := headOf k
    let a := hAddr h
    let w := s.mgt.partyOf (hSrc h)
    let st := s.fabricCheck port k
    let s' := s.popFq port
    if st ≠ 0 then s'.answer port h st 0 []
    else if !s.ctlAllowed w a then s'.answer port h 21 0 []
    else match blockOf s.mgt.fuses a with
      | none => s'.answer port h 22 0 []
      | some (b, off) => s'.answer port h 0 (s.readReg b off).toNat []

/-- CTL_WRITE (R235, R237, R240). -/
def execCtlWrite (port : Nat) (s : State) : Host.Outcome State Fault Refusal :=
  fabricRow port s (fun h => hOp h = 7) fun k s =>
    let h := headOf k
    let a := hAddr h
    let w := s.mgt.partyOf (hSrc h)
    let v := BitVec.ofNat 64 (hOp0 h)
    let st := s.fabricCheck port k
    let s' := s.popFq port
    if st ≠ 0 then s'.answer port h st 0 []
    else if !s.ctlAllowed w a then s'.answer port h 21 0 []
    else match blockOf s.mgt.fuses a with
      | none => s'.answer port h 22 0 []
      | some (b, off) =>
        if s.overreach w b off (BitVec.allOnes 64) v then s'.answer port h 21 0 []
        else ((s'.writeReg w b off (BitVec.allOnes 64) v).getD s').answer port h 0 0 []

end Sys2Proof.Machine
end

