-- ==== Sys2Proof/Machine/Mailbox.lean ====
section
/-!
DEFINITION. The requests of the management mailbox (R131, R298, R368, R393).
-/
namespace Sys2Proof.Machine

/-- Payload bytes of the request in the drain bank. -/
def Mgt.mbxBytes (m : Mgt) (o n : Nat) : List Byte := (List.range n).map fun i => m.drainBank.look 0 (8 + o + i)

/-- A request of one opcode that waits in the drain bank is answered; `g` gets its LENGTH. -/
def mailRow (op : Nat) (s : State) (g : Nat → State → State) : Host.Outcome State Fault Refusal :=
  onUnit true s fun s =>
    due (s.mgt.mboxBusy && mbxNum s.mgt.drainBank 0 2 = op) s fun s => g (mbxNum s.mgt.drainBank 2 2) s

/-- A response. -/
def State.respond (s : State) (status : Nat) (payload : List Byte) : State := s.modMgt fun m => m.respond status payload

/-- The 16 bytes of a log entry (R298). -/
def fdlBytes (e : FdlEntry) : List Byte :=
  leBytes 4 e.boot ++ leBytes 1 e.kind ++ leBytes 1 e.finding ++ leBytes 2 0 ++ leBytes 4 e.index.toNat ++ leBytes 4 e.time

/-- FDL_READ (R393): a payload too short for its two fields is INVALID too (log entry 57). -/
def execFdlRead (s : State) : Host.Outcome State Fault Refusal :=
  mailRow 1 s fun n s =>
    let first := leNat (s.mgt.mbxBytes 0 4)
    let count := leNat (s.mgt.mbxBytes 4 2)
    if n < 6 || count = 0 || 255 < count then s.respond 1 []
    else s.respond 0 (((s.mgt.fdl.drop first).take count).flatMap fdlBytes)

/-- CONFIG_READ (R393). -/
def execConfigRead (s : State) : Host.Outcome State Fault Refusal :=
  mailRow 2 s fun _ s =>
    s.respond 0 ([s.mgt.cfgSlot, s.mgt.cfgRestore, s.mgt.cfgStriped].map fun b => BitVec.ofNat 8 (b2n b))

/-- CONFIG_WRITE (R292, R393): a byte other than 0 and 1, or a missing one, is INVALID (log entry 57). -/
def execConfigWrite (s : State) : Host.Outcome State Fault Refusal :=
  mailRow 3 s fun n s =>
    let b := s.mgt.mbxBytes 0 3
    if n < 3 || b.any fun x => 1 < x.toNat then s.respond 1 []
    else
      let on := fun (i : Nat) => b.getD i 0 = 1
      (s.modMgt fun m => { m with cfgSlot := on 0, cfgRestore := on 1, cfgStriped := on 2 }).respond 0 []

/-- FW_WRITE (R393): a slot that is written holds no committed image. -/
def execFwWrite (s : State) : Host.Outcome State Fault Refusal :=
  mailRow 4 s fun n s =>
    if n < 4 || 4084 < n then s.respond 1 []
    else
      let data := s.mgt.mbxBytes 4 (n - 4)
      (s.modMgt fun m =>
        let x := m.slotOf (!m.slot)
        m.setSlot (!m.slot) { x with bytes := writeBytes x.bytes (leNat (m.mbxBytes 0 4)) data, valid := false }).respond 0 []

/-- FW_COMMIT (R288, R290, R393). -/
def execFwCommit (s : State) : Host.Outcome State Fault Refusal :=
  mailRow 5 s fun _ s =>
    let x := s.mgt.slotOf (!s.mgt.slot)
    if !fwGood x.bytes then s.respond 13 []
    else
      (s.modMgt fun m => if m.recovery then m.recover x.bytes else m.setSlot (!m.slot) { x with valid := true }).respond 0 []

/-- The requester key table is empty (R368). -/
def Mgt.noKeys (m : Mgt) : Bool := (List.range 16).all fun i => (m.keys.look none i).isNone

/-- KEY_BOOTSTRAP (R368, R393): the key goes to slot 0 (log entry 57). -/
def execKeyBootstrap (s : State) : Host.Outcome State Fault Refusal :=
  mailRow 6 s fun n s =>
    let key := s.mgt.mbxBytes 0 n
    if n = 0 then s.respond 1 []
    else if !s.mgt.noKeys then s.respond 24 []
    else (s.modMgt fun m => { m with keys := m.keys.put none 0 (some { key := key, role := .admin, mask := 0 }) }).respond 0 []

end Sys2Proof.Machine
end

