-- ==== Sys2Proof/Machine/HostOps.lean ====
section
/-!
DEFINITION. Ring commands: their start (R375, R376), windows (R377), DMA (R378, R379) and the host's hand-over (R379).
-/
namespace Sys2Proof.Machine

/-! ## Starting a ring command (R375) -/

/-- Commands that wait until every earlier command of the ring has completed. -/
def opWaits (op : Nat) : Bool := decide (5 ≤ op ∧ op ≤ 8) || decide (0x10 ≤ op)

/-- Whether the command at the head of a ring's queue may start: FENCE and R375's commands wait for all earlier ones, and 8
DMAs run at once. -/
def Fn.mayStart (x : Fn) (q : Fetched) : Bool :=
  let op := q.entry.opcode.toNat
  (!(opWaits op || q.entry.flags.getLsbD 0) || x.idle) && !((op = 3 || op = 4) && 8 ≤ x.dmas.length)

/-- A ring command of one opcode, at the head of its queue and not refused, starts. -/
def ringCmd (op f : Nat) (s : State) (g : Fetched → State → State) : Host.Outcome State Fault Refusal :=
  onUnit (f ≤ 16) s fun s =>
    let x := s.fn f
    match x.queue with
    | [] => s
    | q :: qs =>
      due (q.rej.isNone && q.entry.opcode.toNat = op && x.mayStart q) s fun s =>
        g q (s.modFn f fun x => { x with queue := qs })

/-- A command completes as it starts. -/
def State.done (s : State) (f : Nat) (q : Fetched) (status detail result info : Nat) : State :=
  (s.complete f { cid := q.entry.cid, head := q.head, status := status, detail := detail,
                  result := BitVec.ofNat 64 result, info := BitVec.ofNat 64 info }).ringOn f

/-- A command that has started and will complete later. -/
def State.begin (s : State) (f : Nat) (q : Fetched) : State := s.modFn f fun x => { x with busy := some q }

/-! ## Windows (R377) -/

/-- WINDOW_REG (R376, R377): an id above 63 or a base that is not 4 KiB aligned is INVALID, DETAIL 3 (log entry 58). -/
def execWindowReg (f : Nat) (s : State) : Host.Outcome State Fault Refusal :=
  ringCmd 1 f s fun q s =>
    let w := q.entry.window.toNat
    let base := q.entry.hostOff.toNat
    let len := q.entry.arg2.toNat
    if 63 < w || base % 4096 ≠ 0 then s.done f q 1 3 0 0
    else if len = 0 then s.done f q 1 4 0 0
    else if 2 ^ 48 < len then s.done f q 2 0 0 len
    else if ((s.fn f).windows.look none w).isSome || ((s.fn f).unreg.look none w).isSome then s.done f q 5 0 0 0
    else (s.modFn f fun x => { x with windows := x.windows.put none w (some (base, len)) }).done f q 0 0 0 0

/-- A dump to a window of a function is given up with the window (R136, R390; log entry 130). -/
def State.dropDump (s : State) (f w : Nat) : State :=
  if 1 ≤ f && (s.part (f - 1)).dumpWindow = w then s.stopDump (f - 1) 3 else s

/-- WINDOW_UNREG (R377): the window is gone at once, the completion waits for the commands that use it. -/
def execWindowUnreg (f : Nat) (s : State) : Host.Outcome State Fault Refusal :=
  ringCmd 2 f s fun q s =>
    let w := q.entry.window.toNat
    if ((s.fn f).windows.look none w).isNone then s.done f q 3 0 0 0
    else ((s.dropDump f w).modFn f fun x => { x with
      windows := x.windows.drop w, unreg := x.unreg.put none w (some (q.entry.cid.toNat, q.head)) }).ringOn f

/-! ## DMA (R378, R379) -/

/-- The pages that a range of local offsets covers. -/
def pagesOf (a n : Nat) : List Nat := (List.range ((a + n - 1) / 2 ^ 21 - a / 2 ^ 21 + 1)).map fun i => a / 2 ^ 21 + i

/-- The checks of R378, in order: status, DETAIL and INFO of the first that fails. -/
def State.dmaRefused (s : State) (f : Nat) (e : SqEntry) (write : Bool) : Option (Nat × Nat × Nat) :=
  let n := e.length.toNat
  let a := e.devOff.toNat
  if n = 0 then some (1, 4, 0)
  else match (s.fn f).windows.look none e.window.toNat with
    | none => some (3, 0, e.window.toNat)
    | some w =>
      if w.2 < e.hostOff.toNat + n then some (2, 0, e.hostOff.toNat + n)
      else match (pagesOf a n).find? fun p => !s.pageMapped p with
        | some p => some (34, 0, max a (p * 2 ^ 21))
        | none =>
          let st := fun p => s.pageCheck s.mgt.ownId (f - 1) write p
          ((pagesOf a n).find? fun p => st p ≠ 0).map fun p => (32 + st p, 0, p * 2 ^ 21)

/-- A DMA is checked and starts: it asks for its first lines. -/
def dmaRow (op f : Nat) (s : State) : Host.Outcome State Fault Refusal :=
  ringCmd op f s fun q s =>
    match s.dmaRefused f q.entry (op = 3) with
    | some r => s.done f q r.1 r.2.1 0 r.2.2
    | none =>
      let base := match (s.fn f).windows.look none q.entry.window.toNat with
        | some w => w.1
        | none => 0
      (s.modFn f fun x => { x with dmas := x.dmas ++ [({
        cid := q.entry.cid, head := q.head, toDevice := decide (op = 3), window := q.entry.window.toNat,
        host := base + q.entry.hostOff.toNat, devOff := q.entry.devOff.toNat, length := q.entry.length.toNat } : Dma)] }).dmaAsk
        f q.head

/-- DMA_H2D (R378). -/
def execDmaH2d (f : Nat) (s : State) : Host.Outcome State Fault Refusal := dmaRow 3 f s

/-- DMA_D2H (R378). -/
def execDmaD2h (f : Nat) (s : State) : Host.Outcome State Fault Refusal := dmaRow 4 f s

/-- The completion of a DMA that has ended (R379): where it was refused, MEM + status with the refused offset; where a read was
uncorrectable, MEM + 4 with the first such offset (log entry 139). -/
def Dma.result (d : Dma) : CqEntry :=
  let (st, at_) : Nat × Nat := match d.stop, d.bad with
    | some q, _ => (32 + q.1, q.2)
    | none, some a => (36, a)
    | none, none => (0, 0)
  { cid := d.cid, head := d.head, status := st, detail := 0, result := BitVec.ofNat 64 d.moved, info := BitVec.ofNat 64 at_ }

/-- Whether a DMA has ended: every byte has moved, or a request of it was refused. -/
def Dma.ended (d : Dma) : Bool := d.stop.isSome || d.length ≤ d.moved

/-- DMA_COMPLETE (R379); before a DMA has ended it asks on. `host` is what software has written in host memory since. -/
def execDmaComplete (f cid : Nat) (host : List (Nat × Byte)) (s : State) : Host.Outcome State Fault Refusal :=
  onUnit (f ≤ 16 && cid < 65536) s fun s =>
    let s := s.hostBytes host
    match (s.fn f).dmas.find? fun d => d.cid.toNat = cid && d.ended with
    | some d => ((s.modFn f fun x => { x with dmas := x.dmas.erase d }).complete f d.result).ringOn f
    | none =>
      match (s.fn f).dmas.find? fun d => d.cid.toNat = cid with
      | some d => s.dmaAsk f d.head
      | none => s

/-! ## Hand-over (R223, R379) -/

/-- HANDOVER (R379): OPND0's layout is that of R235. -/
def execHandover (f : Nat) (s : State) : Host.Outcome State Fault Refusal :=
  ringCmd 8 f s fun q s =>
    let o := q.entry.arg2.toNat
    let page := q.entry.devOff.toNat / 2 ^ 21
    if 2 ^ 31 ≤ o then s.done f q 1 3 0 0
    else
      let st := s.handCheck page s.mgt.ownId (f - 1) (o % 4096)
      if st ≠ 0 then s.done f q (32 + st) 0 (s.page page).toNat 0
      else (s.begin f q).beginMove {
        page := page, dev := o / 2 ^ 12 % 8192, part := o / 2 ^ 25 % 16, mode := BitVec.ofNat 2 (o / 2 ^ 29),
        zeroing := false, port := none, req := [], fn := some f, cid := q.entry.cid.toNat }

end Sys2Proof.Machine
end

