-- ==== Sys2Proof/Machine/Load.lean ====
section
/-!
DEFINITION. Load images: the checks of R386 in their order, the claim and what a load writes (R41, R103 to R105, R118,
R143, R151 to R153, R160, R209 to R212, R222, R261, R263, R344, R383 to R386).
-/
namespace Sys2Proof.Machine

/-- A check: the status it refuses with and INFO, the byte offset or the unit concerned. -/
abbrev Refused := Option (Nat × Nat)

/-- A check that refuses where a condition holds. -/
def refuse (c : Bool) (st info : Nat) : Refused := if c then some (st, info) else none

/-- The first unit of a list that is bad. -/
def refuseAt (l : List Nat) (bad : Nat → Bool) (st : Nat) : Refused := (l.find? bad).map fun u => (st, u)

/-- The first check that refuses. -/
def firstRefused (l : List Refused) : Refused := l.findSome? id

/-! ## Step 1: FORMAT (R384, R385) -/

/-- Bytes of the whole image. -/
def imageSize (i : Image) : Nat := i.covered.length + i.sign.length

/-- The header's checks; the 32 bytes after r and s are reserved ones (log entry 60). -/
def headerChecks (i : Image) (length : Nat) : List Refused :=
  [refuse (imageSize i < 192 || imageSize i ≠ length || i.sign.length ≠ 128) 12 0, refuse (i.magic ≠ 0x4D495855) 12 0,
   refuse (i.format ≠ 1) 12 4, refuse (i.level = 0 || 3 < i.level) 12 6, refuse (4 ≤ i.flags.toNat) 12 7,
   refuse (i.length ≠ length) 12 8, refuse (i.nSections = 0 || 11 < i.nSections || i.nSections ≠ i.table.length) 12 0xC,
   refuse (i.rsv0 ≠ 0) 12 0xF, refuse (i.rsv1 ≠ 0) 12 0x14, refuse (i.rsv2 ≠ 0) 12 0x20,
   refuse (length < 0x40 + 16 * i.nSections + 128) 12 0xC,
   refuse ((i.sign.drop 96).any fun b => b ≠ 0) 12 (length - 32)]

/-- Whether two sections overlap; an empty one overlaps none. -/
def overlaps (a b : ImgSection) : Bool :=
  a.length ≠ 0 && b.length ≠ 0 && a.offset < b.offset + b.length && b.offset < a.offset + a.length

/-- A section entry with the ones before it. -/
def sectionBad (i : Image) (length : Nat) (before : List ImgSection) (x : ImgSection) : Bool :=
  x.type = 0 || 11 < x.type || (before.any fun y => y.type = x.type || overlaps y x) || x.flags ≠ 0 || x.offset % 64 ≠ 0 ||
    x.offset < 0x40 + 16 * i.nSections || length - 128 < x.offset + x.length || x.bytes.length ≠ x.length ||
    crc32c x.bytes ≠ x.crc

/-- A section of a type, where it is present and not empty. -/
def hasSection (i : Image) (type : Nat) : Bool := i.table.any fun x => x.type = type && x.length ≠ 0

/-- The offset of a section. -/
def sectionAt (i : Image) (type : Nat) : Nat :=
  match i.table.find? fun x => x.type = type with
  | some x => x.offset
  | none => 0xC

/-- Numbers a body cannot hold: units the module does not have, positions past a table, repeated tiles and groups. -/
def bodyChecks (i : Image) : List Refused :=
  let sec := fun (type : Nat) (bad : Bool) => refuse bad 12 (sectionAt i type)
  let tabs := fun (q : ImgSlots) => 20000 ≤ q.tile || (q.first ++ q.second).any fun e => 512 ≤ e.1
  [sec 1 (!(i.programs.map (·.tile)).Nodup || i.programs.any fun q => 20000 ≤ q.tile || 6144 < q.words.length ||
      (q.norm.getD 0) ≥ 20000),
   sec 2 (i.scratch.any fun q => 20000 ≤ q.tile || 6144 ≤ q.line),
   sec 3 (!(i.slots.map (·.tile)).Nodup || i.slots.any tabs),
   sec 4 (!(i.barriers.map (·.group)).Nodup || i.barriers.any fun b => 4096 ≤ b.group || b.members.any fun t => 20000 ≤ t),
   sec 6 (i.windows.any fun w => w.mode = 0), sec 7 (i.channels.any fun c => 64 ≤ c.chan),
   sec 8 (i.phases.any fun q => 40 ≤ q.region || 256 ≤ q.phase), sec 9 (i.fallow.any fun q => 40 ≤ q.region || 8192 ≤ q.testLine),
   sec 11 (i.alternates.any fun a => a.slots.any tabs)]

/-- Step 1. -/
def formatChecks (i : Image) (length : Nat) : List Refused :=
  headerChecks i length ++
  ((List.range i.table.length).map fun k =>
    refuse (sectionBad i length (i.table.take k) (i.table.getD k ⟨0, 0, 0, 0, 0, []⟩)) 12 (0x40 + 16 * k)) ++
  [refuse (!hasSection i 1) 12 0xC] ++ bodyChecks i

/-! ## Steps 2 to 6 -/

/-- Step 2. -/
def State.signatureChecks (s : State) (i : Image) : List Refused :=
  let key := Tab.look [] s.mgt.imageKeys i.keyId
  [refuse (8 ≤ i.keyId || key.isEmpty) 13 0xE, refuse (!Config.signatureOk key i.covered (i.sign.take 96)) 13 (imageSize i - 128)]

/-- The lowest level that takes a format as a contribution (R103); 4 for a format that none takes. -/
def fmtLevel (c : Nat) : Nat := if c ≤ 1 then 1 else if c ≤ 4 then 2 else if isMx c then 3 else 4
/-- The lowest level that allows a descriptor's formats and rounding. -/
def descLevel (d : ColDesc) : Nat :=
  max (max (fmtLevel (dIn d)) (fmtLevel (dOut d))) (if dRnd d = 2 then 3 else 1)

/-- Step 3: R104, and R263 where the device level is the cause. -/
def State.levelChecks (s : State) (i : Image) : List Refused :=
  let n := s.mgt.numLevel
  [refuse (n < i.level) 14 6,
   (i.channels.find? fun c => c.descs.any fun d => n < descLevel d && descLevel d ≤ 3).map fun c => (14, c.chan)]

/-- A word that Sela compatibility mode does not take: VEXP2, an MX format, RND 2 on a format Sela lacked (R105). The spec
does not list the formats that Tirah Sela lacked: RND 2 is refused for codes 6 and above, INT32 and the MX formats
(DESIGN CHOICE, log entry 17). -/
def selaWord (w : Dword) : Bool :=
  if wCls w = 1 then
    wOp w = 0x0B || ((wOp w = 0x09 || wOp w = 0x0A) && isMx (vFmt w)) || (wOp w = 0x09 && vRnd w = 2 && 6 ≤ vFmt w)
  else if wCls w = 2 then
    ((wOp w = 2 || wOp w = 3 || wOp w = 4) && isMx (aFmt w)) || (wOp w = 3 && isMx (aFmt2 w)) ||
      (wOp w = 4 && aRnd w = 2 && 6 ≤ aFmt w)
  else false

/-- Step 4. -/
def selaChecks (i : Image) (regions : Nat) : List Refused :=
  if !i.flags.getLsbD 0 then []
  else
    [refuse (4 < regions) 15 0x10, (i.programs.find? fun q => q.words.any selaWord).map fun q => (15, q.tile),
     (i.channels.find? fun c => c.descs.any fun d => isMx (dIn d) || isMx (dOut d)).map fun c => (15, c.chan)]

/-- Tiles on which an image places work, and tiles it names. -/
def workTiles (i : Image) : List Nat :=
  i.programs.map (·.tile) ++ i.scratch.map (·.tile) ++ i.barriers.flatMap (·.members)
/-- The slot tables of an image, its alternate sets among them (R352, R385). -/
def allSlots (i : Image) : List ImgSlots := i.slots ++ i.alternates.flatMap (·.slots)
def slotTiles (i : Image) : List Nat := (allSlots i).map (·.tile)
/-- The ports of an image's edge tables, as the edge tile and its side that faces the site; one whose number the edge does
not have names none. -/
def edgeWays (i : Image) : List (Nat × Dir) :=
  i.shares.flatMap fun h => (h.ports.filter fun q => q.port < edgePorts h.edge).map fun q => edgeTile h.edge q.port

/-- The outputs of a router's tables that name a source, with the fields there. -/
def slotFields (q : ImgSlots) (x : Router) : List (Nat × Nat) :=
  (q.first ++ q.second).flatMap fun e => (List.range 5).filterMap fun o =>
    if x.transit o then none else some (o, entryField e.2 o)

/-- The sides of a router that its fields name as outputs or sources (R153). -/
def slotSides (q : ImgSlots) (x : Router) : List Dir :=
  (((slotFields q x).filter fun f => fSrcA f.2 ≠ 0).flatMap fun f => [f.1, fSrcA f.2 - 1, fSrcB f.2 - 1 + 5 * b2n (fSrcB f.2 = 0)]).eraseDups.filterMap
    fun k => if k < 4 then some (dirOf k) else none

/-- A site with the edges an image names: unfitted, FAILED or ABSENT (R41). -/
def State.edgeGone (s : State) (e : EdgeId) : Bool :=
  !edgeFitted s.mgt.fuses e ||
  (match e with
   | .hbm x => (s.site x).st == .failed || (s.site x).st == .absent
   | .iod _ => false)
/-- The number of a site. -/
def edgeUnit : EdgeId → Nat
  | .hbm x => x
  | .iod d => d

/-- Step 5: RECT, a join without a row in service (R354), then R41. Alternate sets and edge tables route and use regions as the slot tables do. -/
def State.placementChecks (s : State) (p : Nat) (i : Image) : List Refused :=
  let x := s.part p
  let used := workTiles i ++ slotTiles i ++ (edgeWays i).map (·.1)
  let bad := fun (q : ImgSlots) => (slotSides q (s.router q.tile)).any fun d => 2 ≤ s.linkState q.tile d ||
    (match edgeOf q.tile d with
     | some (e, _) => s.edgeGone e
     | none => false)
  [refuse (i.rect ≠ (x.cx0, x.cy0, x.cx1, x.cy1)) 16 0x10,
   refuse (x.cx0 < 5 && 5 ≤ x.cx1 && (List.range 100).all fun y => s.linkState (200 * y + 99) .e = 3) 16 0x10,
   refuseAt used (fun t => !s.regionIn (regionOf t) p) 16,
   (used.map regionOf).find? (fun r => (s.region r).dark) |>.map fun r => (16, r),
   refuseAt (workTiles i) (fun t => s.tileState t ≠ 0) 16,
   ((allSlots i).find? fun q => !s.routerOk q.tile && !(slotFields q (s.router q.tile)).all fun f => fSrcA f.2 = 0).map
     fun q => (16, q.tile),
   ((allSlots i).find? bad).map fun q => (16, q.tile),
   ((edgeWays i).find? fun w => 2 ≤ s.linkState w.1 w.2).map fun w => (16, w.1),
   (i.shares.find? fun h => s.edgeGone h.edge).map fun h => (16, edgeUnit h.edge)]

/-- Step 6: R160. -/
def State.crossingChecks (s : State) (i : Image) : List Refused :=
  [refuse (s.units.northBad && s.units.southBad && i.rect.1 < 5 && 5 ≤ i.rect.2.2.1) 17 0x10]

/-! ## Steps 7 and 8 -/

/-- A table period. -/
def periodBad (n : Nat) : Bool := n = 0 || 512 < n

/-- Whether the tables of a router are refused (R143, R152, R153). -/
def State.slotsBad (s : State) (q : ImgSlots) : Bool :=
  let x := s.router q.tile
  periodBad q.period0 || periodBad q.period1 || (slotFields q x).any fun f =>
    !x.validField (fun k => s.inTransit q.tile (dirOf k)) f.1 f.2 || !s.confined q.tile f.1 f.2

/-- Whether a port's edge tables are refused (R210, R211). -/
def State.portBad (s : State) (p : Nat) (h : ImgShare) (q : ImgEdgePort) : Bool :=
  edgePorts h.edge ≤ q.port || !s.regionIn (regionOf (edgeTile h.edge q.port).1) p || periodBad q.period0 ||
    periodBad q.period1 || (q.first ++ q.second).any fun e =>
      512 ≤ e.1 || !edgeEntryOk h.edge e.2 || h.stageMib * 16384 ≤ eLine e.2

/-- Step 7. -/
def State.tableChecks (s : State) (p : Nat) (i : Image) : List Refused :=
  [((allSlots i).find? s.slotsBad).map fun q => (18, q.tile),
   (i.shares.find? fun h => h.ports.any (s.portBad p h)).map fun h => (18, edgeUnit h.edge)]

/-- MiB of staging at an edge. -/
def edgeMib : EdgeId → Nat
  | .hbm _ => 8
  | .iod _ => 32

/-- Whether an ox descriptor of a share is refused (R212). -/
def oxDescBad (h : ImgShare) (d : OxDesc) : Bool :=
  d.deadline.toNat < d.start.toNat + 512 || h.stageMib * 16384 < d.stageLine.toNat + d.lines.toNat ||
    (match h.edge with
      | .hbm _ => decide (2 ^ 17 ≤ d.stageLine.toNat ∨ 2 ^ 17 ≤ d.lines.toNat)
      | .iod _ => decide (2 ^ 19 ≤ d.stageLine.toNat ∨ 2 ^ 19 ≤ d.lines.toNat)) || 2 < d.kind.toNat || 1 < d.flags.toNat || d.rsv ≠ 0

/-- Whether two ranges `(first, count)` meet. -/
def rangesMeet (a b : Nat × Nat) : Bool := a.1 < b.1 + b.2 && b.1 < a.1 + a.2 && a.2 ≠ 0 && b.2 ≠ 0

/-- Whether a share overlaps what another loaded image holds there (R209): staging, descriptors, or both share registers. -/
def Edge.shareTaken (g : Edge) (h : ImgShare) : Bool :=
  let meets := fun (y : Share) => y.valid &&
    (rangesMeet (y.base, y.mib) (h.stageBase, h.stageMib) || rangesMeet (y.descBase, y.descCount) (h.descBase, h.descs.length))
  meets g.share0 || meets g.share1 || (g.share0.valid && g.share1.valid)

/-- Step 8. -/
def State.shareChecks (s : State) (p : Nat) (i : Image) : List Refused :=
  let bad := fun (h : ImgShare) =>
    h.stageMib = 0 || edgeMib h.edge < h.stageBase + h.stageMib || 4096 < h.descBase + h.descs.length ||
      !((List.range (edgePorts h.edge)).any fun k => s.regionIn (regionOf (edgeTile h.edge k).1) p) ||
      (s.edge h.edge).shareTaken h || h.descs.any (oxDescBad h)
  [refuse (!(i.shares.map (·.edge)).Nodup) 19 0, (i.shares.find? bad).map fun h => (19, edgeUnit h.edge)]

/-! ## Steps 9 to 11 -/

/-- Whether a collective descriptor is refused for itself, the device level apart (R263). -/
def colDescBad (d : ColDesc) : Bool :=
  let mx := fun c => isMx c
  3 < dKind d || 3 < d.rop.toNat || 4 ≤ d.rnd.toNat || dRnd d = 3 || d.rsv0 ≠ 0 || d.rsv1 ≠ 0 || d.windowUs = 0 ||
    fmtLevel (dIn d) = 4 || fmtLevel (dOut d) = 4 || ((mx (dIn d) || mx (dOut d)) && d.count.toNat % 32 ≠ 0) ||
    (!mx (dIn d) && d.srcScale ≠ 0) || (!mx (dOut d) && d.dstScale ≠ 0) ||
    (dKind d = 3 && (d.rop ≠ 0 || d.fmtOut ≠ d.fmtIn))

/-- Descriptors that the engine of a die holds for other partitions (R262). -/
def State.descsHeld (s : State) (d p : Nat) : Nat :=
  (((List.range 16).filter fun q => q ≠ p).flatMap fun q => match (s.part q).img with
    | some j => (j.channels.filter fun c => c.home = d).map fun c => c.descs.length
    | none => []).sum

/-- Whether a channel of an image is refused (R261, R263). -/
def State.channelBad (s : State) (p : Nat) (i : Image) (c : ImgChannel) : Bool :=
  let held := (List.range 16).any fun q => q ≠ p && (match (s.part q).img with
    | some j => j.channels.any fun y => y.chan = c.chan
    | none => false)
  let load := ((i.channels.filter fun y => y.home = c.home).map fun y => y.descs.length).sum
  !iodFitted s.mgt.fuses c.home || (s.iod c.home).st ≠ .running || held || c.ranks.isEmpty || 8192 < c.ranks.length ||
    !c.ranks.Nodup || (c.ranks.drop c.rank).head? ≠ some (s.mgt.ownId, p) || 1024 < load + s.descsHeld c.home p || c.descs.any colDescBad

/-- Step 9. -/
def State.channelChecks (s : State) (p : Nat) (i : Image) : List Refused :=
  [refuse (!(i.channels.map (·.chan)).Nodup) 20 0, (i.channels.find? (s.channelBad p i)).map fun c => (20, c.chan)]

/-- Whether a rectangle of tiles lies inside a region (R8, R11). -/
def insideRegion (q : ImgFallow) : Bool :=
  q.x0 ≤ q.x1 && q.y0 ≤ q.y1 && q.x1 < 200 && q.y1 < 100 && regionOf (q.y0 * 200 + q.x0) = q.region &&
    regionOf (q.y1 * 200 + q.x1) = q.region

/-- Step 10: R344; a test area that runs past the scratchpad is refused here (log entry 61). -/
def State.fallowChecks (s : State) (p : Nat) (i : Image) : List Refused :=
  [(i.fallow.find? fun q => q.length < 1920000 || !s.regionIn q.region p || !insideRegion q || 5120 < q.testLine).map
    fun q => (21, q.region)]

/-- Whether a page can be claimed (R222); one that is being freed is not FREE yet, one in hand-over is on its way. -/
def State.claimable (s : State) (p pg : Nat) : Bool :=
  let r := s.page pg
  s.pageMapped pg && !pgPending r && !s.moving pg && (pgMode r = 0 || (pgDev r = s.mgt.ownId && pgPart r = p))

/-- Step 11's check. -/
def State.claimChecks (s : State) (p : Nat) (i : Image) : List Refused :=
  [refuseAt (i.windows.map (·.page)) (fun g => !s.claimable p g) 22]

/-- The checks of R386 in order. -/
def State.imageRefused (s : State) (p length : Nat) (i : Image) : Refused :=
  firstRefused (formatChecks i length ++ s.signatureChecks i ++ s.levelChecks i ++ selaChecks i (s.partRegions p).length ++
    s.placementChecks p i ++ s.crossingChecks i ++ s.tableChecks p i ++ s.shareChecks p i ++ s.channelChecks p i ++
    s.fallowChecks p i ++ s.claimChecks p i)

/-! ## What a load writes -/

/-- A claim sets owner and mode; GEN moves if the record changes (R222). -/
def State.claim (s : State) (p : Nat) (w : ImgWindow) : State :=
  let r := s.page w.page
  let new := pageRecord s.mgt.ownId p w.mode.toNat (pgGen r) false
  let s := if pgMode r = 0 then s.modPart p fun x => { x with claimed := x.claimed ++ [w.page] } else s
  if new = r then s else s.setPage w.page (pageRecord s.mgt.ownId p w.mode.toNat (pgGen r + 1) false)

/-- The tiles that a run of the image will own: GOOD, in no DARK or ISOLATED region and scrubbed (R135, R386). -/
def State.ownable (s : State) (p : Nat) : List Nat :=
  ((s.partRegions p).filter fun r => !(s.region r).dark).flatMap fun r => (regionTiles r).filter fun t =>
    s.tileState t = 0 && (s.tile t).st ≠ .scrub

/-- A tile with its program. -/
def Tile.program (x : Tile) (q : ImgProgram) : Tile :=
  { x with
    prog := (List.range q.words.length).foldl (fun (a : Tab Dword) k => a.put 0 k (q.words.getD k 0)) [], progEcc := [],
    seed := q.seed, normIndex := q.norm }

/-- A tile with an initial line (R118). -/
def Tile.initial (x : Tile) (q : ImgLine) : Tile :=
  { x with
    sp := x.sp.put 0 q.line q.data, spEcc := x.spEcc.clear (8 * q.line) (8 * q.line + 8),
    lst := x.lst.put {} q.line { fill := true, drain := true } }

/-- A router with an image's partition-owned fields in both banks (R151, R152); `tin` says which inputs are transit-owned. -/
def Router.loadImage (x : Router) (tin : Nat → Bool) (q : ImgSlots) : Router :=
  let mask := x.partMask
  let merge := fun (old new : Tab Dword) => (List.range 512).foldl (fun (a : Tab Dword) k =>
    a.put 0 k ((a.look 0 k &&& ~~~mask) ||| (new.look 0 k &&& mask))) old
  let sl := fun (k : Nat) (old : BitVec 6) => if tin k then old else q.slack.extractLsb' (8 * k) 6
  { x with
    bank0 := merge x.bank0 q.first, bank1 := merge x.bank1 q.second, pp0 := q.period0, pp1 := q.period1,
    slackN := sl 0 x.slackN, slackE := sl 1 x.slackE, slackS := sl 2 x.slackS, slackW := sl 3 x.slackW }

/-- An edge with a share of an image (R209 to R213). -/
def Edge.loadShare (g : Edge) (p : Nat) (h : ImgShare) : Edge :=
  let y : Share := { part := p, valid := true, base := h.stageBase, mib := h.stageMib, descBase := h.descBase,
                     descCount := h.descs.length, period := h.oxPeriod }
  let none_ : OxDesc := ⟨0, 0, 0, 0, 0, 0, 0, 0⟩
  let g := if g.share0.valid then { g with share1 := y } else { g with share0 := y }
  { g with
    descs := (List.range h.descs.length).foldl (fun (a : Tab OxDesc) k => a.put none_ (h.descBase + k) (h.descs.getD k none_))
      g.descs,
    ports := h.ports.foldl (fun (a : Tab EPort) q =>
      let e : EPort := { bank0 := q.first, bank1 := q.second, per0 := q.period0, per1 := q.period1, step0 := q.step0,
                         step1 := q.step1 }
      a.put {} q.port e) g.ports }

/-- A channel of an image (R261); its counters stay. -/
def Chan.load (x : Chan) (p : Nat) (c : ImgChannel) : Chan :=
  { x with
    st := .idle, part := p, home := c.home, n := c.ranks.length, rank := c.rank, ranks := c.ranks, seed := c.seed,
    seqBase := c.seqBase, descs := c.descs, passes := [], ops := [], seen := [] }

/-- Everything a load writes, after its claims (R386). A part of the tables that no section gives is as after R155 (R385). -/
def State.install (s : State) (p : Nat) (i : Image) : State :=
  let rs := s.partRegions p
  let own := s.ownable p
  let s := i.windows.foldl (fun s w => s.claim p w) s
  let s := (forAll rs s fun r s => s.dropRouters r).dropPorts rs
  let s := forAll own s fun t s => s.modTile t fun x => { x with owned := true }
  let s := i.programs.foldl (fun s q => s.modTile q.tile fun x => x.program q) s
  let s := i.scratch.foldl (fun s q => s.modTile q.tile fun x => x.initial q) s
  let s := i.slots.foldl (fun s q =>
    s.modRouter q.tile fun x => x.loadImage (fun k => s.inTransit q.tile (dirOf k)) q) s
  let s := i.shares.foldl (fun s h => s.modEdge h.edge fun g => g.loadShare p h) s
  let s := i.channels.foldl (fun s c => s.modChan c.chan fun x => x.load p c) s
  s.modPart p fun x => { x with st := .loading, img := some i, owned := own, stopAt := none, altAt := none, aborting := false }

/-! ## IMAGE_LOAD -/

/-- An image with the contents that its section table gives it: a section that is absent or empty has the effect that R385
lists. -/
def present (i : Image) : Image :=
  let has := hasSection i
  { i with
    programs := if has 1 then i.programs else [], scratch := if has 2 then i.scratch else [],
    slots := if has 3 then i.slots else [], barriers := if has 4 then i.barriers else [],
    shares := if has 5 then i.shares else [], windows := if has 6 then i.windows else [],
    channels := if has 7 then i.channels else [], phases := if has 8 then i.phases else [],
    fallow := if has 9 then i.fallow else [], stepStart := if has 9 then i.stepStart else 0,
    stepPeriod := if has 9 then i.stepPeriod else 0, policy := if has 10 then i.policy else none,
    alternates := if has 11 then i.alternates else [] }

/-- A load whose checks come now; `win` is the length of its window. -/
def State.loadNow (s : State) (f : Nat) (q : Fetched) (img : Image) (win : Nat) : State :=
  let p := f - 1
  let e := q.entry
  let i := present img
  let clear := fun (s : State) => s.modPart p fun x => { x with loadCid := none, loadSince := none }
  if (s.part p).st ≠ .empty then (clear s).finish f (doneWith e.cid 5 0)
  else
    let n := e.length.toNat
    let r := if n = 0 || win < e.hostOff.toNat + n then some (12, e.hostOff.toNat + n) else s.imageRefused p n i
    match r with
    | some (st, info) => (clear s).finish f { doneWith e.cid st 0 with info := BitVec.ofNat 64 info }
    | none =>
      let s := (clear s).modPart p fun x => { x with
        loader := (s.fn f).ring, dumpAllowed := e.arg.getLsbD 0, dumpWindow := bits e.arg2 5 0, claimed := [] }
      s.install p i

/-- Whether a load waits: for the end of a run, or for the scrub of tiles whose region has returned (R133, R135, R386). -/
def State.loadWaits (s : State) (p : Nat) : Bool :=
  (s.part p).st == .ending || ((s.part p).st == .empty && !(s.scrubbing p).isEmpty)

/-- IMAGE_LOAD (R376, R386): `img` is what the window holds. A load that has to wait for a dump or scrub is taken up by this
command again once they are over. -/
def execImageLoad (f : Nat) (img : Image) (s : State) : Host.Outcome State Fault Refusal :=
  onUnit (f ≤ 16) s fun s =>
    let p := f - 1
    match (s.fn f).busy with
    | some q =>
      due (q.entry.opcode = 5 && (s.part p).loadSince.isSome && !(s.emptied p).loadWaits p) s fun s =>
        (s.emptied p).loadNow f q img (s.part p).loadLen
    | none =>
      match (s.fn f).queue with
      | [] => s
      | q :: qs =>
        due (q.rej.isNone && q.entry.opcode = 5 && (s.fn f).mayStart q) s fun s =>
          let s := ((s.emptied p).modFn f fun x => { x with queue := qs }).begin f q
          match (s.fn f).windows.look none q.entry.window.toNat with
          | none => s.finish f { doneWith q.entry.cid 3 0 with info := q.entry.window.setWidth 64 }
          | some w =>
            if s.loadWaits p then s.modPart p fun x => { x with
              loadCid := some q.entry.cid.toNat, loadSince := some s.now, loadLen := w.2 }
            else s.loadNow f q img w.2

/-- IMAGE_LOAD_COMPLETE (R386): the tiles are LOADED and the command completes; or a load has waited for 10 s. -/
def execImageLoadComplete (p : Nat) (s : State) : Host.Outcome State Fault Refusal :=
  onUnit (p < 16) s fun s =>
    let x := s.part p
    match (s.fn (p + 1)).busy with
    | some q =>
      if x.st == .loading then
        let s := forAll x.owned s fun t s => s.modTile t fun y => { y with st := if y.st == .idle then .loaded else y.st }
        (s.modPart p fun y => { y with st := .loaded, claimed := [] }).finish (p + 1) (doneWith q.entry.cid 0 0)
      else match x.loadSince with
        | some t0 => due (t0 + 10000000 ≤ s.now) s fun s =>
            (s.modPart p fun y => { y with loadCid := none, loadSince := none }).finish (p + 1) (doneWith q.entry.cid 5 0)
        | none => s
    | none => s

/-! ## Giving an image up (R381, R383) -/

/-- The tiles an image was loaded on are scrubbed without a dump, and what else it wrote goes. -/
def State.discard (s : State) (p : Nat) (aborted : Bool) : State :=
  let rs := s.partRegions p
  let s := forAll (s.part p).owned s fun t s => s.scrubTile (regionOf t) false t
  let s := (forAll rs s fun r s => s.dropRouters r).dropPorts rs
  let s := (s.dropShares p).dropChans p aborted
  (s.modPart p fun x => { x with img := none, st := .ending }).emptied p

/-- A load in progress or waiting ends with a status (R370, R381, R383). -/
def State.abandonLoad (s : State) (p status : Nat) : State :=
  let x := s.part p
  match (s.fn (p + 1)).busy with
  | some q =>
    if q.entry.opcode ≠ 5 then s
    else if x.st == .loading then
      ((s.unclaim p).finish (p + 1) (doneWith q.entry.cid status 0)).discard p (status = 10)
    else (s.modPart p fun y => { y with loadCid := none, loadSince := none }).finish (p + 1) (doneWith q.entry.cid status 0)
  | none => s

end Sys2Proof.Machine
end

