-- ==== Sys2Proof/Machine/Partitions.lean ====
section
/-!
DEFINITION. Runs, partitions and function resets as the host commands them (R362, R380 to R383, R387 to R389, R407).
-/
namespace Sys2Proof.Machine

/-! ## Runs (R383, R387, R389) -/

/-- The first unit that an image may no longer use (R383): an owned tile not GOOD, or a router with a field over a link that is
FAILING or DOWN, or an edge tile whose table is. -/
def State.unfit (s : State) (p : Nat) (i : Image) : Option Nat :=
  match (s.part p).owned.find? fun t => s.tileState t ≠ 0 with
  | some t => some t
  | none =>
    match (allSlots i).find? fun q => (slotSides q (s.router q.tile)).any fun d => 2 ≤ s.linkState q.tile d with
    | some q => some q.tile
    | none => ((edgeWays i).find? fun w => 2 ≤ s.linkState w.1 w.2).map fun w => w.1

/-- RUN_START (R383, R387): it completes at the run-start beat. -/
def execRunStart (f : Nat) (s : State) : Host.Outcome State Fault Refusal :=
  ringCmd 6 f s fun q s =>
    let p := f - 1
    match (s.part p).img with
    | none => s.done f q 11 0 0 0
    | some i =>
      if (s.part p).st ≠ .loaded then s.done f q 11 0 0 0
      else match s.unfit p i with
        | some t => (s.discard p false).done f q 16 0 0 t
        | none => ((s.begin f q).modPart p fun x => { x with
            st := .starting, runNo := x.runNo + 1, runHidden := false, startCid := some q.entry.cid.toNat }).announceStart p

/-- RUN_KILL (R389): a run that is already ending is one; the command completes once its tiles are scrubbed. -/
def execRunKill (f : Nat) (s : State) : Host.Outcome State Fault Refusal :=
  ringCmd 7 f s fun q s =>
    let p := f - 1
    let x := s.part p
    let ending : Bool := x.st == .ending && x.img.isSome
    if !(x.st == .starting || x.st == .running || ending) then s.done f q 11 0 0 0
    else
      let s := (s.begin f q).modPart p fun x => { x with killCid := some q.entry.cid.toNat }
      if ending then s else s.announceStop p 1

/-! ## Partitions (R380, R381) -/

/-- The regions of a rectangle (R10). -/
def rectRegions (cx0 cy0 cx1 cy1 : Nat) : List Nat :=
  (List.range 40).filter fun r => cx0 ≤ r % 10 && r % 10 ≤ cx1 && cy0 ≤ r / 10 && r / 10 ≤ cy1

/-- A partition comes to exist. -/
def State.createPart (s : State) (p cx0 cy0 cx1 cy1 : Nat) : State :=
  let rs := rectRegions cx0 cy0 cx1 cy1
  let s := forAll rs s fun r s => s.modCtl r fun c => { c with part := p, assigned := true, lead := rs.head? = some r }
  let s := s.modPart p fun x => { x with
    live := true, cx0 := cx0, cy0 := cy0, cx1 := cx1, cy1 := cy1, st := .empty, destroying := false, normq := x.normq.flush }
  s.modFn (p + 1) fun x => { x with enabled := true }

/-- PART_CREATE (R380): a rectangle out of range or a reserved bit of ARG is INVALID, DETAIL 3 (log entry 58). -/
def execPartCreate (s : State) : Host.Outcome State Fault Refusal :=
  ringCmd 0x10 0 s fun q s =>
    let a := q.entry.arg
    let p := bits a 3 0
    let cx0 := bits a 11 8
    let cy0 := bits a 13 12
    let cx1 := bits a 19 16
    let cy1 := bits a 21 20
    let bad := bits a 7 4 ≠ 0 || bits a 15 14 ≠ 0 || bits a 31 22 ≠ 0 || cx1 < cx0 || 9 < cx1 || cy1 < cy0
    if bad then s.done 0 q 1 3 0 0
    else if (s.part p).live then s.done 0 q 5 0 0 0
    else match (rectRegions cx0 cy0 cx1 cy1).find? fun r => (s.region r).ctl.assigned with
      | some r => s.done 0 q 16 0 0 r
      | none => (s.createPart p cx0 cy0 cx1 cy1).done 0 q 0 0 0 0

/-- What a VF's ring has not started completes ABORTED, and so do its DMAs, with the bytes they have moved (R376, R381; log
entry 62). -/
def State.abortRing (s : State) (f : Nat) : State :=
  let x := s.fn f
  let s := s.modFn f fun x => { x with queue := [], dmas := [] }
  let s := x.dmas.foldl (fun s d => s.complete f { doneWith d.cid 10 0 with head := d.head, result := BitVec.ofNat 64 d.moved }) s
  let s := x.queue.foldl (fun s q => s.complete f { doneWith q.entry.cid 10 0 with head := q.head }) s
  s.ringOn f

/-- PART_RESET with REASON 3, or a teardown's first steps with REASON 4 (R381). -/
def State.resetPart (s : State) (p reason : Nat) : State :=
  let s := ((s.abortRing (p + 1)).abandonLoad p 10).modPart p fun x => { x with aborting := true }
  match (s.part p).st with
  | .starting => s.announceStop p reason
  | .running => s.announceStop p reason
  | .loaded => s.discard p true
  | .loading => s
  | .ending => s.dropChans p true
  | .empty =>
    let rs := s.partRegions p
    let s := (forAll rs s fun r s => s.dropRouters r).dropPorts rs
    ((s.dropShares p).dropChans p true).resetOver p

/-- A command that names an existing partition; one that does not exist is INVALID, DETAIL 1 (log entry 58). -/
def partCmd (op reason : Nat) (s : State) : Host.Outcome State Fault Refusal :=
  ringCmd op 0 s fun q s =>
    let p := bits q.entry.arg 3 0
    if bits q.entry.arg 31 4 ≠ 0 then s.done 0 q 1 3 0 0
    else if !(s.part p).live then s.done 0 q 1 1 0 0
    else ((s.begin 0 q).modPart p fun x => { x with
      resetCid := some q.entry.cid.toNat, destroying := decide (reason = 4) }).resetPart p reason

/-- PART_RESET (R381). -/
def execPartReset (s : State) : Host.Outcome State Fault Refusal := partCmd 0x11 3 s

/-- PART_DESTROY (R381). -/
def execPartDestroy (s : State) : Host.Outcome State Fault Refusal := partCmd 0x12 4 s

/-! ## Bindings (R370) -/

/-- A RING binding ends. -/
def State.endRing (s : State) (f : Nat) : State :=
  let s := s.modFn f fun x => { x with ring := none }
  (if f = 0 then s else s.abandonLoad (f - 1) 4).event f 6

/-- A FABRIC binding ends. -/
def State.endFabric (s : State) : State := (s.modFn 0 fun x => { x with fabric := none }).event 0 6

/-! ## Function level reset (R382, R407) -/

/-- The function's page and rings at their reset values, ENABLED and the bindings apart; the windows go with them and commands
that had started complete nowhere (log entry 63). -/
def State.resetPage (s : State) (f : Nat) : State :=
  let x := s.fn f
  let s := (s.dropDump f (s.part (f - 1)).dumpWindow).setFn f { enabled := x.enabled, ring := x.ring, fabric := x.fabric }
  { s with moves := s.moves.map fun (q : HandOver) => if q.fn = some f then { q with fn := none } else q }

/-- HST_RUN and the norm registers of a VF's page; a run in progress goes on showing. -/
def State.resetRunPage (s : State) (p : Nat) : State :=
  s.modPart p fun x =>
    let idle : Bool := x.st == .empty || x.st == .loading || x.st == .loaded || (x.st == .ending && x.img.isNone)
    { x with
      killCid := none, startCid := none, loadCid := none, loadSince := none, normq := { n := 12 },
      endReason := if idle then 0 else x.endReason, dump := if idle then 0 else x.dump, runHidden := x.runHidden || idle }

/-- An FLR of a VF: PART_RESET, then the page, then the end of the binding, whose event would else be lost (log entry 63). -/
def State.flr (s : State) (f : Nat) : State :=
  let bound := (s.fn f).ring.isSome
  let s := if (s.part (f - 1)).live then s.resetPart (f - 1) 3 else s
  let s := (s.resetPage f).resetRunPage (f - 1)
  if bound then s.endRing f else s

/-- FLR_VF (R382). -/
def execFlrVf (f : Nat) (s : State) : Host.Outcome State Fault Refusal :=
  onUnit (1 ≤ f && f ≤ 16) s fun s => s.flr f

/-- An FLR of the PF: every partition is reset, the PF's bindings end; its ring commands complete nowhere. -/
def State.flrAll (s : State) : State :=
  let x := s.fn 0
  let s := forAll ((List.range 16).filter fun p => (s.part p).live) s fun p s =>
    (s.modPart p fun y => { y with resetCid := none }).resetPart p 3
  let s := s.resetPage 0
  let s := if x.ring.isSome then s.endRing 0 else s
  if x.fabric.isSome then s.endFabric else s

/-- FLR_PF (R382). -/
def execFlrPf (s : State) : Host.Outcome State Fault Refusal := onUnit true s fun s => s.flrAll

/-- PERST_FALL (R407): a fall of the pin while it is heard is an FLR of the PF. -/
def execPerstFall (s : State) : Host.Outcome State Fault Refusal :=
  onUnit true s fun s =>
    let heard := !s.mgt.perstLow
    let s := s.modMgt fun m => { m with perstPin := false, perstLow := true, pcieTraining := false, pcieWait := false }
    if heard then s.flrAll else s

end Sys2Proof.Machine
end

