-- ==== Sys2Proof/Machine/Spdm.lean ====
section
/-!
DEFINITION. The SPDM responder: identity, sessions and their application messages (R367 to R370).
-/
namespace Sys2Proof.Machine

/-- An answer of the responder, whose bytes the DMTF standards fix (R367; log entry 5). -/
def State.spdm (s : State) (code : Nat) (body : List Byte) : State :=
  s.modMgt fun m => { m with spdmOut := m.spdmOut ++ [Config.spdmAnswer code body] }

/-- The response to an application message: a status of R391 (R369). -/
def State.reply (s : State) (status : Nat) : State := s.modMgt fun m => { m with spdmOut := m.spdmOut ++ [leBytes 1 status] }

/-- The codes of SPDM 1.3 by which an answer is told apart: the request codes, and the error response (log entry 5). -/
def spdmError : Nat := 0x7F

/-! ## Identity (R367) -/

/-- NEGOTIATE_ALGORITHMS (R367). -/
def execNegotiateAlgorithms (offer : List Byte) (s : State) : Host.Outcome State Fault Refusal :=
  onUnit true s fun s => s.spdm 0xE3 offer

/-- CERTIFICATE_RETRIEVAL (R367): the chain is held in slot 0, any other slot is an error. -/
def execCertificateRetrieval (slot : Nat) (s : State) : Host.Outcome State Fault Refusal :=
  onUnit (slot < 8) s fun s => if slot = 0 then s.spdm 0x82 [] else s.spdm spdmError [0x82]

/-- CHALLENGE (R367). -/
def execChallenge (nonce : List Byte) (s : State) : Host.Outcome State Fault Refusal :=
  onUnit true s fun s => s.spdm 0x83 nonce

/-- SIGNED_MEASUREMENTS (R367). -/
def execSignedMeasurements (slot : Nat) (s : State) : Host.Outcome State Fault Refusal :=
  onUnit (slot < 8) s fun s => if slot = 0 then s.spdm 0xE0 [] else s.spdm spdmError [0xE0]

/-! ## Sessions (R367, R368, R370) -/

/-- The slot of the requester key table that holds a key. -/
def Mgt.keySlot (m : Mgt) (key : List Byte) : Option (Nat × KeySlot) :=
  (List.range 16).findSome? fun i => match m.keys.look none i with
    | some k => if k.key = key then some (i, k) else none
    | none => none

/-- The number the responder gives a session: the one it chose, or the first free one; none when 32 are open. -/
def State.freeSession (s : State) (sess : Nat) : Option Nat :=
  (sess :: List.range 32).find? fun n => (s.session n).isNone

/-- KEY_EXCHANGE (R367, R368): `sess` is the session number the responder chooses; with 32 sessions open it answers busy. -/
def execKeyExchange (sess : Nat) (key : List Byte) (s : State) : Host.Outcome State Fault Refusal :=
  onUnit (sess < 32) s fun s =>
    match s.freeSession sess, s.mgt.keySlot key with
    | none, _ => s.spdm spdmError [0x03]
    | some _, none => s.spdm spdmError [0xE4]
    | some n, some (i, k) =>
        (s.setSession n (some {
          slot := i, role := k.role, mask := k.mask, finished := false, lastTime := s.now, keyGen := 0 })).spdm 0xE4 key

/-- A message that arrives in a session puts off its end. -/
def State.heard (s : State) (n : Nat) : State :=
  s.setSession n ((s.session n).map fun x => { x with lastTime := s.now })

/-- A message of SPDM itself in an open session. -/
def sessionRow (sess : Nat) (s : State) (ok : Session → Bool) (g : Session → State → State) :
    Host.Outcome State Fault Refusal :=
  onUnit (sess < 32) s fun s =>
    match s.session sess with
    | some x => due (ok x) s fun s => g x (s.heard sess)
    | none => s

/-- FINISH (R367): the handshake is complete. -/
def execFinish (sess : Nat) (s : State) : Host.Outcome State Fault Refusal :=
  sessionRow sess s (fun x => !x.finished) fun _ s =>
    (s.setSession sess ((s.session sess).map fun x => { x with finished := true })).spdm 0xE5 []

/-- HEARTBEAT (R367). -/
def execHeartbeat (sess : Nat) (s : State) : Host.Outcome State Fault Refusal :=
  sessionRow sess s (fun x => x.finished) fun _ s => s.spdm 0xE8 []

/-- KEY_UPDATE (R367). -/
def execKeyUpdate (sess : Nat) (s : State) : Host.Outcome State Fault Refusal :=
  sessionRow sess s (fun x => x.finished) fun _ s =>
    (s.setSession sess ((s.session sess).map fun x => { x with keyGen := x.keyGen + 1 })).spdm 0xE9 []

/-- A session ends with its bindings; no dump goes to it any more (R136, R370). -/
def State.endSession (s : State) (n : Nat) : State :=
  let s := s.setSession n none
  let s := (List.range 17).foldl (fun s f => if (s.fn f).ring = some n then s.endRing f else s) s
  let s := if (s.fn 0).fabric = some n then s.endFabric else s
  forAll (List.range 16) s fun p s =>
    if (s.part p).loader = some n then (s.stopDump p 2).modPart p fun x => { x with loader := none } else s

/-- END_SESSION (R370). -/
def execEndSession (sess : Nat) (s : State) : Host.Outcome State Fault Refusal :=
  sessionRow sess s (fun _ => true) fun _ s => (s.endSession sess).spdm 0xEC []

/-- SESSION_TIMEOUT (R370): no message has arrived for 20 s. -/
def execSessionTimeout (sess : Nat) (s : State) : Host.Outcome State Fault Refusal :=
  onUnit (sess < 32) s fun s =>
    match s.session sess with
    | some x => due (x.lastTime + 20000000 ≤ s.now) s fun s => s.endSession sess
    | none => s

/-! ## Application messages (R369) -/

/-- An application message in a session whose handshake is complete; elsewhere it is answered NO_SESSION (log entry 64).
The body answers a status and the state after it. -/
def messageRow (ok : Bool) (sess : Nat) (s : State) (g : Session → State → Nat × State) :
    Host.Outcome State Fault Refusal :=
  onUnit (ok && sess < 32) s fun s =>
    match s.session sess with
    | some x =>
      if x.finished then
        let (st, s) := g x (s.heard sess)
        s.reply st
      else s.reply 4
    | none => s.reply 4

/-- Whether a role and mask allow a BIND (R369). -/
def Session.mayBind (x : Session) (f : Nat) (fabric : Bool) : Bool :=
  if fabric then x.role == .fabric && f = 0
  else match x.role with
    | .tenant => 1 ≤ f && x.mask.getLsbD (f - 1)
    | .admin => f = 0
    | .fabric => false

/-- BIND (R369): DENIED goes before BUSY (log entry 64). -/
def execBind (sess f : Nat) (fabric : Bool) (s : State) : Host.Outcome State Fault Refusal :=
  messageRow (f < 32) sess s fun x s =>
    let held := if fabric then (s.fn f).fabric else (s.fn f).ring
    if 16 < f then (1, s)
    else if !x.mayBind f fabric then (8, s)
    else if held.isSome && held ≠ some sess then (5, s)
    else (0, s.modFn f fun y => if fabric then { y with fabric := some sess } else { y with ring := some sess })

/-- UNBIND (R369): a binding the session does not hold is left as it is. -/
def execUnbind (sess f : Nat) (fabric : Bool) (s : State) : Host.Outcome State Fault Refusal :=
  messageRow (f < 32) sess s fun _ s =>
    if 16 < f then (1, s)
    else if fabric then (0, if f = 0 && (s.fn 0).fabric = some sess then s.endFabric else s)
    else (0, if (s.fn f).ring = some sess then s.endRing f else s)

/-- A message of the ADMIN role (R369). -/
def adminRow (sess : Nat) (s : State) (g : State → Nat × State) : Host.Outcome State Fault Refusal :=
  messageRow true sess s fun x s => if x.role == .admin then g s else (8, s)

/-- Whether some slot other than one holds an ADMIN key (R368). -/
def Mgt.otherAdmin (m : Mgt) (slot : Nat) : Bool :=
  (List.range 16).any fun i => i ≠ slot && (match m.keys.look none i with
    | some k => k.role == .admin
    | none => false)
def Mgt.isAdmin (m : Mgt) (slot : Nat) : Bool :=
  match m.keys.look none slot with
  | some k => k.role == .admin
  | none => false

/-- KEY_ENROLL (R368, R369): a slot above 15 or no key is INVALID; the last ADMIN key cannot be overwritten by another role. -/
def execKeyEnroll (sess slot : Nat) (key : List Byte) (role : Role) (mask : BitVec 16) (s : State) :
    Host.Outcome State Fault Refusal :=
  adminRow sess s fun s =>
    if 16 ≤ slot || key.isEmpty then (1, s)
    else if role ≠ .admin && s.mgt.isAdmin slot && !s.mgt.otherAdmin slot then (24, s)
    else (0, s.modMgt fun m => { m with keys := m.keys.put none slot (some { key := key, role := role, mask := mask }) })

/-- KEY_REMOVE (R368 to R370). -/
def execKeyRemove (sess slot : Nat) (s : State) : Host.Outcome State Fault Refusal :=
  adminRow sess s fun s =>
    if 16 ≤ slot then (1, s)
    else if s.mgt.isAdmin slot && !s.mgt.otherAdmin slot then (24, s)
    else
      let s := s.modMgt fun m => { m with keys := m.keys.drop slot }
      (0, (List.range 32).foldl (fun s n => match s.session n with
        | some x => if x.slot = slot then s.endSession n else s
        | none => s) s)

/-- IMAGE_KEY_ENROLL (R369). -/
def execImageKeyEnroll (sess slot : Nat) (key : List Byte) (s : State) : Host.Outcome State Fault Refusal :=
  adminRow sess s fun s =>
    if 8 ≤ slot || key.isEmpty then (1, s)
    else (0, s.modMgt fun m => { m with imageKeys := m.imageKeys.put [] slot key })

/-- IMAGE_KEY_REMOVE (R369). -/
def execImageKeyRemove (sess slot : Nat) (s : State) : Host.Outcome State Fault Refusal :=
  adminRow sess s fun s =>
    if 8 ≤ slot then (1, s) else (0, s.modMgt fun m => { m with imageKeys := m.imageKeys.drop slot })

end Sys2Proof.Machine
end

