-- ==== Sys2Proof/Machine/Vector.lean ====
section
/-!
DEFINITION. The vector class (R56 to R58, R95 to R97, R420).
-/
namespace Sys2Proof.Machine

/-- The only check of a vector word with no address. -/
def vectorChecks (_ : Bool) (w : Dword) (_ : Tile) : List (Bool × Nat) := [(vectorOk w, cInvalidOp)]

/-- A result written to VD (R56). -/
def vecWord (op lat : Nat) (f : Dword → Tile → VReg) (t : Nat) (s : State) : Host.Outcome State Fault Refusal :=
  issueTile 1 op t vectorChecks (fun _ w x => (x.later lat (.vreg (vVd w) (f w x))).advance 1) s

/-- A lane operation of one source. -/
def lanes1 (f : Word → Word) (w : Dword) (x : Tile) : VReg := ofLanes ((lanes (x.vreg (vVa w))).map f)

/-- A lane operation of two sources, in FP32 or INT32 by FMT (R95). -/
def lanes2 (ff fi : Word → Word → Word) (w : Dword) (x : Tile) : VReg :=
  ofLanes (List.zipWith (if vFmt w = 6 then fi else ff) (lanes (x.vreg (vVa w))) (lanes (x.vreg (vVb w))))

/-- A lane operation of three sources. -/
def lanes3 (f : Word → Word → Word → Word) (w : Dword) (x : Tile) : VReg :=
  ofLanes ((List.range 64).map fun j =>
    f (lane (x.vreg (vVa w)) j) (lane (x.vreg (vVb w)) j) (lane (x.vreg (vVc w)) j))

/-- VADD (R95). -/
def execVadd (t : Nat) (s : State) : Host.Outcome State Fault Refusal :=
  vecWord 0x00 4 (lanes2 fadd (fun a b => a + b)) t s
/-- VSUB (R95). -/
def execVsub (t : Nat) (s : State) : Host.Outcome State Fault Refusal :=
  vecWord 0x01 4 (lanes2 fsub (fun a b => a - b)) t s
/-- VMUL (R95). -/
def execVmul (t : Nat) (s : State) : Host.Outcome State Fault Refusal :=
  vecWord 0x02 4 (lanes2 fmul (fun a b => a * b)) t s
/-- VFMA (R95). -/
def execVfma (t : Nat) (s : State) : Host.Outcome State Fault Refusal := vecWord 0x03 5 (lanes3 ffma) t s
/-- VMAX (R95). -/
def execVmax (t : Nat) (s : State) : Host.Outcome State Fault Refusal :=
  vecWord 0x04 4 (lanes2 fmax (fun a b => if a.slt b then b else a)) t s
/-- VMIN (R95). -/
def execVmin (t : Nat) (s : State) : Host.Outcome State Fault Refusal :=
  vecWord 0x05 4 (lanes2 fmin (fun a b => if a.slt b then a else b)) t s
/-- VABS (R95). -/
def execVabs (t : Nat) (s : State) : Host.Outcome State Fault Refusal :=
  vecWord 0x06 4 (fun w => lanes1 (fun a =>
    if vFmt w = 6 then (if a.getLsbD 31 then -a else a) else a &&& 0x7FFFFFFF#32) w) t s
/-- VNEG (R95). -/
def execVneg (t : Nat) (s : State) : Host.Outcome State Fault Refusal :=
  vecWord 0x07 4 (fun w => lanes1 (fun a => if vFmt w = 6 then -a else fneg a) w) t s
/-- VBCST (R56). -/
def execVbcst (t : Nat) (s : State) : Host.Outcome State Fault Refusal :=
  vecWord 0x08 4 (fun w x => ofLanes (List.replicate 64 (x.sreg (vSa w)))) t s

/-- The 64 lanes packed in a format, with the draws given (R58, R83 to R87). -/
def packLanes (code rnd : Nat) (sela : Bool) (l : List Word) (rs : List Nat) : VReg :=
  if isMx code then
    let (x0, c0) := convertBlock code rnd (l.take 32) (rs.take 32)
    let (x1, c1) := convertBlock code rnd (l.drop 32) (rs.drop 32)
    BitVec.ofNat 2048 (packElems code (c0 ++ c1) + x0 * 2 ^ 2032 + x1 * 2 ^ 2040)
  else BitVec.ofNat 2048 (packElems code (List.zipWith (fun v r => convert code rnd r sela v) l rs))

/-- VCVTN (R58): with RND 2, one draw per lane in ascending order. -/
def execVcvtn (t : Nat) (s : State) : Host.Outcome State Fault Refusal :=
  issueTile 1 0x09 t vectorChecks
    (fun sela w x =>
      let (g, rs) := if vRnd w = 2 then draws sela 64 x.gen else (x.gen, List.replicate 64 0)
      let v := packLanes (vFmt w) (vRnd w) sela (lanes (x.vreg (vVa w))) rs
      ({ x with gen := g }.later 5 (.vreg (vVd w) v)).advance 1) s

/-- The 64 packed elements of a register widened (R58, R90). -/
def unpackLanes (code : Nat) (v : VReg) : VReg :=
  ofLanes ((List.range 64).map fun j =>
    widen code (bits v (2039 + 8 * (j / 32)) (2032 + 8 * (j / 32))) (packedElem code v.toNat j))

/-- VCVTW (R58, R90). -/
def execVcvtw (t : Nat) (s : State) : Host.Outcome State Fault Refusal :=
  vecWord 0x0A 5 (fun w x => unpackLanes (vFmt w) (x.vreg (vVa w))) t s
/-- VEXP2 (R96). -/
def execVexp2 (t : Nat) (s : State) : Host.Outcome State Fault Refusal := vecWord 0x0B 10 (lanes1 fexp2) t s
/-- VRCP (R96). -/
def execVrcp (t : Nat) (s : State) : Host.Outcome State Fault Refusal := vecWord 0x0C 10 (lanes1 frcp) t s
/-- VRSQ (R96). -/
def execVrsq (t : Nat) (s : State) : Host.Outcome State Fault Refusal := vecWord 0x0D 10 (lanes1 frsq) t s
/-- VSUM (R97). -/
def execVsum (t : Nat) (s : State) : Host.Outcome State Fault Refusal :=
  vecWord 0x0E 10 (fun w x => (treeSum (lanes (x.vreg (vVa w)))).setWidth 2048) t s

/-- The first of the four lines of VLD and VST (R56, R417). -/
def vecLine (x : Tile) (w : Dword) : Nat := addr x (vSa w) (bits w 12 0)

/-- The checks of VLD and VST: all four lines in range, and room in the vector memory pipe (R46, R56, R418). -/
def vmemChecks (_ : Bool) (w : Dword) (x : Tile) : List (Bool × Nat) :=
  [(vectorOk w, cInvalidOp), (vecLine x w + 3 < 6144, cAddrRange), (!x.vmem.full x.beat, cPipeOverrun)]

/-- VLD (R56, R57, R114): it occupies its start beat and the four beats of its reads (log entry 16). -/
def execVld (t : Nat) (s : State) : Host.Outcome State Fault Refusal :=
  issueTile 1 0x0F t vmemChecks
    (fun _ w x =>
      let b := x.vmem.startOf x.beat x.beat
      let reqs := (List.range 4).map fun k =>
        { beat := b + 1 + k, code := 1, line := vecLine x w + k, issue := x.beat, dest := RdDest.vline (vVd w) k b : RdReq }
      { x with rds := x.rds ++ reqs, vmem := x.vmem.enter x.beat x.beat 4 }.advance 1) s

/-- VST (R56, R57, R114): VA is read at the start beat (log entry 16). -/
def execVst (t : Nat) (s : State) : Host.Outcome State Fault Refusal :=
  issueTile 1 0x10 t vmemChecks
    (fun _ w x =>
      let b := x.vmem.startOf x.beat x.beat
      { x with vsts := x.vsts ++ [{ start := b, va := vVa w, line := vecLine x w, issue := x.beat : VstOp }],
               vmem := x.vmem.enter x.beat x.beat 4 }.advance 1) s

/-- VNORM (R97): the squares are summed at issue; the accumulator is read and written 7 beats later. -/
def execVnorm (t : Nat) (s : State) : Host.Outcome State Fault Refusal :=
  issueTile 1 0x11 t vectorChecks
    (fun _ w x =>
      let q := treeSum ((lanes (x.vreg (vVa w))).map fun v => fmul v v)
      (x.later 8 (.norm (bits w 7 0) (bits w 8 8) q)).advance 1) s

/-- VSEL (R56). -/
def execVsel (t : Nat) (s : State) : Host.Outcome State Fault Refusal :=
  vecWord 0x12 4 (lanes3 fun a b c => if c ≠ 0 then a else b) t s

end Sys2Proof.Machine
end

