-- ==== Sys2Proof/Machine/Dispatch.lean ====
section
/-!
DEFINITION. The meaning of each command: one arm a row of the opcode table.
-/
namespace Sys2Proof.Machine

def exec (i : Instr) (s : State) : Host.Outcome State Fault Refusal :=
  match i with
  | .nop t => Sys2Proof.Machine.execNop t s
  | .mov t => Sys2Proof.Machine.execMov t s
  | .add t => Sys2Proof.Machine.execAdd t s
  | .sub t => Sys2Proof.Machine.execSub t s
  | .mul t => Sys2Proof.Machine.execMul t s
  | .and t => Sys2Proof.Machine.execAnd t s
  | .or t => Sys2Proof.Machine.execOr t s
  | .xor t => Sys2Proof.Machine.execXor t s
  | .shl t => Sys2Proof.Machine.execShl t s
  | .shr t => Sys2Proof.Machine.execShr t s
  | .sra t => Sys2Proof.Machine.execSra t s
  | .min t => Sys2Proof.Machine.execMin t s
  | .max t => Sys2Proof.Machine.execMax t s
  | .cmplt t => Sys2Proof.Machine.execCmplt t s
  | .cmpeq t => Sys2Proof.Machine.execCmpeq t s
  | .cmpltu t => Sys2Proof.Machine.execCmpltu t s
  | .lds t => Sys2Proof.Machine.execLds t s
  | .sts t => Sys2Proof.Machine.execSts t s
  | .br t => Sys2Proof.Machine.execBr t s
  | .bz t => Sys2Proof.Machine.execBz t s
  | .jmp t => Sys2Proof.Machine.execJmp t s
  | .loop t => Sys2Proof.Machine.execLoop t s
  | .rdlc t => Sys2Proof.Machine.execRdlc t s
  | .loopi t => Sys2Proof.Machine.execLoopi t s
  | .halt t => Sys2Proof.Machine.execHalt t s
  | .vadd t => Sys2Proof.Machine.execVadd t s
  | .vsub t => Sys2Proof.Machine.execVsub t s
  | .vmul t => Sys2Proof.Machine.execVmul t s
  | .vfma t => Sys2Proof.Machine.execVfma t s
  | .vmax t => Sys2Proof.Machine.execVmax t s
  | .vmin t => Sys2Proof.Machine.execVmin t s
  | .vabs t => Sys2Proof.Machine.execVabs t s
  | .vneg t => Sys2Proof.Machine.execVneg t s
  | .vbcst t => Sys2Proof.Machine.execVbcst t s
  | .vcvtn t => Sys2Proof.Machine.execVcvtn t s
  | .vcvtw t => Sys2Proof.Machine.execVcvtw t s
  | .vexp2 t => Sys2Proof.Machine.execVexp2 t s
  | .vrcp t => Sys2Proof.Machine.execVrcp t s
  | .vrsq t => Sys2Proof.Machine.execVrsq t s
  | .vsum t => Sys2Proof.Machine.execVsum t s
  | .vld t => Sys2Proof.Machine.execVld t s
  | .vst t => Sys2Proof.Machine.execVst t s
  | .vnorm t => Sys2Proof.Machine.execVnorm t s
  | .vsel t => Sys2Proof.Machine.execVsel t s
  | .acfg t => Sys2Proof.Machine.execAcfg t s
  | .aloadb t => Sys2Proof.Machine.execAloadb t s
  | .amul t => Sys2Proof.Machine.execAmul t s
  | .adrain t => Sys2Proof.Machine.execAdrain t s
  | .azero t => Sys2Proof.Machine.execAzero t s
  | .xout t => Sys2Proof.Machine.execXout t s
  | .xin t => Sys2Proof.Machine.execXin t s
  | .tarr t => Sys2Proof.Machine.execTarr t s
  | .twait t => Sys2Proof.Machine.execTwait t s
  | .tsync t => Sys2Proof.Machine.execTsync t s
  | .tphase t => Sys2Proof.Machine.execTphase t s
  | .traise t => Sys2Proof.Machine.execTraise t s
  | .pipePendingStart t q => Sys2Proof.Machine.execPipePendingStart t q s
  | .barrierTimeout t => Sys2Proof.Machine.execBarrierTimeout t s
  | .resumeIssue t => Sys2Proof.Machine.execResumeIssue t s
  | .runStartBeat r => Sys2Proof.Machine.execRunStartBeat r s
  | .runComplete p => Sys2Proof.Machine.execRunComplete p s
  | .endBeat r => Sys2Proof.Machine.execEndBeat r s
  | .scrubComplete t => Sys2Proof.Machine.execScrubComplete t s
  | .flush w q => Sys2Proof.Machine.execFlush w q s
  | .pop w q => Sys2Proof.Machine.execPop w q s
  | .rtrStData w t v => Sys2Proof.Machine.execRtrStData w t v s
  | .rtrPeriod w t v => Sys2Proof.Machine.execRtrPeriod w t v s
  | .rtrSlack w t v => Sys2Proof.Machine.execRtrSlack w t v s
  | .tOut w t v => Sys2Proof.Machine.execTOut w t v s
  | .borderWordArrival t side kind => Sys2Proof.Machine.execBorderWordArrival t side kind s
  | .borderWordLate t side edge => Sys2Proof.Machine.execBorderWordLate t side edge s
  | .partitionSwapBeat r => Sys2Proof.Machine.execPartitionSwapBeat r s
  | .transitSwapBeat r => Sys2Proof.Machine.execTransitSwapBeat r s
  | .routerPlaneFeedLoss r => Sys2Proof.Machine.execRouterPlaneFeedLoss r s
  | .routerPlaneFeedReturn r own => Sys2Proof.Machine.execRouterPlaneFeedReturn r own s
  | .expressTokenInject n => Sys2Proof.Machine.execExpressTokenInject n s
  | .arrive r k => Sys2Proof.Machine.execArrive r k s
  | .regionDone r k => Sys2Proof.Machine.execRegionDone r k s
  | .release t k => Sys2Proof.Machine.execRelease t k s
  | .bellwetherElection p g => Sys2Proof.Machine.execBellwetherElection p g s
  | .hold r k => Sys2Proof.Machine.execHold r k s
  | .holdBeat r => Sys2Proof.Machine.execHoldBeat r s
  | .resume r k => Sys2Proof.Machine.execResume r k s
  | .resumeBeat r => Sys2Proof.Machine.execResumeBeat r s
  | .pSwap r k => Sys2Proof.Machine.execPSwap r k s
  | .tSwap r k => Sys2Proof.Machine.execTSwap r k s
  | .runStartToken r k => Sys2Proof.Machine.execRunStartToken r k s
  | .runStop r k => Sys2Proof.Machine.execRunStop r k s
  | .holdReq r k => Sys2Proof.Machine.execHoldReq r k s
  | .resumeReq r k => Sys2Proof.Machine.execResumeReq r k s
  | .resumeAnnounce r => Sys2Proof.Machine.execResumeAnnounce r s
  | .hostHold w r => Sys2Proof.Machine.execHostHold w r s
  | .hostResume w r => Sys2Proof.Machine.execHostResume w r s
  | .fmHold w r => Sys2Proof.Machine.execFmHold w r s
  | .fmResume w r => Sys2Proof.Machine.execFmResume w r s
  | .creditToken k => Sys2Proof.Machine.execCreditToken k s
  | .faultToken n k => Sys2Proof.Machine.execFaultToken n k s
  | .normPair r k => Sys2Proof.Machine.execNormPair r k s
  | .normEnd r k => Sys2Proof.Machine.execNormEnd r k s
  | .normRecordEmit p phase => Sys2Proof.Machine.execNormRecordEmit p phase s
  | .roosterTick dead amps => Sys2Proof.Machine.execRoosterTick dead amps s
  | .tickMiss r => Sys2Proof.Machine.execTickMiss r s
  | .epochMark r => Sys2Proof.Machine.execEpochMark r s
  | .slipRecovered r => Sys2Proof.Machine.execSlipRecovered r s
  | .resync r => Sys2Proof.Machine.execResync r s
  | .droopTrip r mv => Sys2Proof.Machine.execDroopTrip r mv s
  | .droopClear r => Sys2Proof.Machine.execDroopClear r s
  | .fChange => Sys2Proof.Machine.execFChange s
  | .fixed w on => Sys2Proof.Machine.execFixed w on s
  | .fixedMhz w mhz => Sys2Proof.Machine.execFixedMhz w mhz s
  | .fixedClockApply => Sys2Proof.Machine.execFixedClockApply s
  | .refLost => Sys2Proof.Machine.execRefLost s
  | .refRestored => Sys2Proof.Machine.execRefRestored s
  | .fabricLockLoss => Sys2Proof.Machine.execFabricLockLoss s
  | .oxPassStart e sh ix => Sys2Proof.Machine.execOxPassStart e sh ix s
  | .oxPassComplete e sh ix bad => Sys2Proof.Machine.execOxPassComplete e sh ix bad s
  | .oxLatePoint e sh ix => Sys2Proof.Machine.execOxLatePoint e sh ix s
  | .stagingMiss e ep => Sys2Proof.Machine.execStagingMiss e ep s
  | .edgEstData w x v => Sys2Proof.Machine.execEdgEstData w x v s
  | .edgEstPort w x v => Sys2Proof.Machine.execEdgEstPort w x v s
  | .iraEstData w d v => Sys2Proof.Machine.execIraEstData w d v s
  | .iraEstPort w d v => Sys2Proof.Machine.execIraEstPort w d v s
  | .ringRead x bad => Sys2Proof.Machine.execRingRead x bad s
  | .ringWrite x => Sys2Proof.Machine.execRingWrite x s
  | .ringAtomic x bad => Sys2Proof.Machine.execRingAtomic x bad s
  | .hbmEccPoll x reports => Sys2Proof.Machine.execHbmEccPoll x reports s
  | .hbmChannelFail x c => Sys2Proof.Machine.execHbmChannelFail x c s
  | .handoverComplete page => Sys2Proof.Machine.execHandoverComplete page s
  | .pageZeroingComplete page => Sys2Proof.Machine.execPageZeroingComplete page s
  | .devId w v => Sys2Proof.Machine.execDevId w v s
  | .devidRewriteComplete => Sys2Proof.Machine.execDevidRewriteComplete s
  | .iraRoute w d v => Sys2Proof.Machine.execIraRoute w d v s
  | .quiesce w d on => Sys2Proof.Machine.execQuiesce w d on s
  | .gmSelf w on => Sys2Proof.Machine.execGmSelf w on s
  | .codewordReceived port lane frame errs flits => Sys2Proof.Machine.execCodewordReceived port lane frame errs flits s
  | .load port => Sys2Proof.Machine.execLoad port s
  | .store port => Sys2Proof.Machine.execStore port s
  | .storeMasked port => Sys2Proof.Machine.execStoreMasked port s
  | .atomicSwap port => Sys2Proof.Machine.execAtomicSwap port s
  | .atomicCas port => Sys2Proof.Machine.execAtomicCas port s
  | .atomicAdd port => Sys2Proof.Machine.execAtomicAdd port s
  | .atomicAnd port => Sys2Proof.Machine.execAtomicAnd port s
  | .atomicOr port => Sys2Proof.Machine.execAtomicOr port s
  | .atomicXor port => Sys2Proof.Machine.execAtomicXor port s
  | .atomicMaxu port => Sys2Proof.Machine.execAtomicMaxu port s
  | .atomicMinu port => Sys2Proof.Machine.execAtomicMinu port s
  | .irantHandover port => Sys2Proof.Machine.execIrantHandover port s
  | .reclaim port => Sys2Proof.Machine.execReclaim port s
  | .ctlRead port => Sys2Proof.Machine.execCtlRead port s
  | .ctlWrite port => Sys2Proof.Machine.execCtlWrite port s
  | .rsp port => Sys2Proof.Machine.execRsp port s
  | .requestExpired port => Sys2Proof.Machine.execRequestExpired port s
  | .requestTimeout d tag => Sys2Proof.Machine.execRequestTimeout d tag s
  | .transitForward port => Sys2Proof.Machine.execTransitForward port s
  | .ack port => Sys2Proof.Machine.execAck port s
  | .nak port => Sys2Proof.Machine.execNak port s
  | .credit port => Sys2Proof.Machine.execCredit port s
  | .timeSync port t2 t3 => Sys2Proof.Machine.execTimeSync port t2 t3 s
  | .timeResp port t4 => Sys2Proof.Machine.execTimeResp port t4 s
  | .depart port => Sys2Proof.Machine.execDepart port s
  | .admitted port => Sys2Proof.Machine.execAdmitted port s
  | .laneMap port => Sys2Proof.Machine.execLaneMap port s
  | .laneSwitch port => Sys2Proof.Machine.execLaneSwitch port s
  | .laneRetire port lane => Sys2Proof.Machine.execLaneRetire port lane s
  | .portSignalLoss port => Sys2Proof.Machine.execPortSignalLoss port s
  | .ackTimer port => Sys2Proof.Machine.execAckTimer port s
  | .creditTimer port => Sys2Proof.Machine.execCreditTimer port s
  | .timeSyncTimer port t1 => Sys2Proof.Machine.execTimeSyncTimer port t1 s
  | .retrain w d full => Sys2Proof.Machine.execRetrain w d full s
  | .retire w d => Sys2Proof.Machine.execRetire w d s
  | .autoRetrain port => Sys2Proof.Machine.execAutoRetrain port s
  | .replayDrainEnd port => Sys2Proof.Machine.execReplayDrainEnd port s
  | .portTrainingComplete trained => Sys2Proof.Machine.execPortTrainingComplete trained s
  | .portQualificationComplete port badLanes => Sys2Proof.Machine.execPortQualificationComplete port badLanes s
  | .colPassDue c ix => Sys2Proof.Machine.execColPassDue c ix s
  | .contrib port => Sys2Proof.Machine.execContrib port s
  | .chunkClose c seq ch => Sys2Proof.Machine.execChunkClose c seq ch s
  | .result port => Sys2Proof.Machine.execResult port s
  | .roster port => Sys2Proof.Machine.execRoster port s
  | .lateNotice port => Sys2Proof.Machine.execLateNotice port s
  | .chunkGiveUp c seq ch => Sys2Proof.Machine.execChunkGiveUp c seq ch s
  | .freeze w on => Sys2Proof.Machine.execFreeze w on s
  | .powerGood => Sys2Proof.Machine.execPowerGood s
  | .controllerFirmware => Sys2Proof.Machine.execControllerFirmware s
  | .halfAlwaysOnPower ok => Sys2Proof.Machine.execHalfAlwaysOnPower ok s
  | .fuseMaps => Sys2Proof.Machine.execFuseMaps s
  | .seamAndBridgeRepair found => Sys2Proof.Machine.execSeamAndBridgeRepair found s
  | .bist found => Sys2Proof.Machine.execBist found s
  | .floorPlanMerge => Sys2Proof.Machine.execFloorPlanMerge s
  | .linkTraining found => Sys2Proof.Machine.execLinkTraining found s
  | .refclk => Sys2Proof.Machine.execRefclk s
  | .errorRateQualification found => Sys2Proof.Machine.execErrorRateQualification found s
  | .publication => Sys2Proof.Machine.execPublication s
  | .stageTimeout => Sys2Proof.Machine.execStageTimeout s
  | .watchdogExpiry => Sys2Proof.Machine.execWatchdogExpiry s
  | .activate w => Sys2Proof.Machine.execActivate w s
  | .activationHealthy => Sys2Proof.Machine.execActivationHealthy s
  | .activationTimeout => Sys2Proof.Machine.execActivationTimeout s
  | .busbarShutdown => Sys2Proof.Machine.execBusbarShutdown s
  | .phaseFail r ph => Sys2Proof.Machine.execPhaseFail r ph s
  | .trip r => Sys2Proof.Machine.execTrip r s
  | .blockReenable r => Sys2Proof.Machine.execBlockReenable r s
  | .dropMeasurement r drop load => Sys2Proof.Machine.execDropMeasurement r drop load s
  | .rampRecheck r loaded => Sys2Proof.Machine.execRampRecheck r loaded s
  | .rampWaitLong r => Sys2Proof.Machine.execRampWaitLong r s
  | .rampComplete r => Sys2Proof.Machine.execRampComplete r s
  | .retentionEntry r => Sys2Proof.Machine.execRetentionEntry r s
  | .retentionExit r => Sys2Proof.Machine.execRetentionExit r s
  | .darkRunKill r => Sys2Proof.Machine.execDarkRunKill r s
  | .phase r k => Sys2Proof.Machine.execPhase r k s
  | .budgetInterval m => Sys2Proof.Machine.execBudgetInterval m s
  | .report n k => Sys2Proof.Machine.execReport n k s
  | .overBudgetReport r amps m => Sys2Proof.Machine.execOverBudgetReport r amps m s
  | .budget r k => Sys2Proof.Machine.execBudget r k s
  | .dutySubperiod p => Sys2Proof.Machine.execDutySubperiod p s
  | .dutyHoldEnd p => Sys2Proof.Machine.execDutyHoldEnd p s
  | .hostCapW w watts => Sys2Proof.Machine.execHostCapW w watts s
  | .fmCapW w watts => Sys2Proof.Machine.execFmCapW w watts s
  | .floorRecompute m => Sys2Proof.Machine.execFloorRecompute m s
  | .derate r temp => Sys2Proof.Machine.execDerate r temp s
  | .heatOff r => Sys2Proof.Machine.execHeatOff r s
  | .heatReturn r => Sys2Proof.Machine.execHeatReturn r s
  | .thermTrip r => Sys2Proof.Machine.execThermTrip r s
  | .thermTripRailOff r => Sys2Proof.Machine.execThermTripRailOff r s
  | .iodHot d => Sys2Proof.Machine.execIodHot d s
  | .iodCool d => Sys2Proof.Machine.execIodCool d s
  | .iodTrip d => Sys2Proof.Machine.execIodTrip d s
  | .hbmHot x => Sys2Proof.Machine.execHbmHot x s
  | .coolantLoss => Sys2Proof.Machine.execCoolantLoss s
  | .coolantRailCheck westRose eastRose => Sys2Proof.Machine.execCoolantRailCheck westRose eastRose s
  | .coolantDepart => Sys2Proof.Machine.execCoolantDepart s
  | .coolantReturn => Sys2Proof.Machine.execCoolantReturn s
  | .moduleReset => Sys2Proof.Machine.execModuleReset s
  | .residueMismatch t router unit residue => Sys2Proof.Machine.execResidueMismatch t router unit residue s
  | .tileDue t => Sys2Proof.Machine.execTileDue t s
  | .tileOverdue t => Sys2Proof.Machine.execTileOverdue t s
  | .tileLapsed t => Sys2Proof.Machine.execTileLapsed t s
  | .idleRegionTest t => Sys2Proof.Machine.execIdleRegionTest t s
  | .fallowWindow r ix => Sys2Proof.Machine.execFallowWindow r ix s
  | .iftComplete t o routerOk => Sys2Proof.Machine.execIftComplete t o routerOk s
  | .grant w r => Sys2Proof.Machine.execGrant w r s
  | .testOverdue k => Sys2Proof.Machine.execTestOverdue k s
  | .testGrant r k => Sys2Proof.Machine.execTestGrant r k s
  | .testDone r k => Sys2Proof.Machine.execTestDone r k s
  | .testLapsed k => Sys2Proof.Machine.execTestLapsed k s
  | .wireRetire corrected => Sys2Proof.Machine.execWireRetire corrected s
  | .doubleWireError wire => Sys2Proof.Machine.execDoubleWireError wire s
  | .henPoll r ok => Sys2Proof.Machine.execHenPoll r ok s
  | .ringSegmentFail seg => Sys2Proof.Machine.execRingSegmentFail seg s
  | .controlCrossingFail south => Sys2Proof.Machine.execControlCrossingFail south s
  | .mapPublication => Sys2Proof.Machine.execMapPublication s
  | .cperMergeRelease => Sys2Proof.Machine.execCperMergeRelease s
  | .telemetrySwap r m => Sys2Proof.Machine.execTelemetrySwap r m s
  | .doorbell w => Sys2Proof.Machine.execDoorbell w s
  | .fdlRead => Sys2Proof.Machine.execFdlRead s
  | .configRead => Sys2Proof.Machine.execConfigRead s
  | .configWrite => Sys2Proof.Machine.execConfigWrite s
  | .fwWrite => Sys2Proof.Machine.execFwWrite s
  | .fwCommit => Sys2Proof.Machine.execFwCommit s
  | .keyBootstrap => Sys2Proof.Machine.execKeyBootstrap s
  | .ilv w on => Sys2Proof.Machine.execIlv w on s
  | .tail w f tail host => Sys2Proof.Machine.execTail w f tail host s
  | .head w f head => Sys2Proof.Machine.execHead w f head s
  | .enable w f cq on => Sys2Proof.Machine.execEnable w f cq on s
  | .windowReg f => Sys2Proof.Machine.execWindowReg f s
  | .windowUnreg f => Sys2Proof.Machine.execWindowUnreg f s
  | .dmaH2d f => Sys2Proof.Machine.execDmaH2d f s
  | .dmaD2h f => Sys2Proof.Machine.execDmaD2h f s
  | .dmaComplete f cid host => Sys2Proof.Machine.execDmaComplete f cid host s
  | .imageLoad f img => Sys2Proof.Machine.execImageLoad f img s
  | .imageLoadComplete p => Sys2Proof.Machine.execImageLoadComplete p s
  | .runStart f => Sys2Proof.Machine.execRunStart f s
  | .runKill f => Sys2Proof.Machine.execRunKill f s
  | .handover f => Sys2Proof.Machine.execHandover f s
  | .partCreate => Sys2Proof.Machine.execPartCreate s
  | .partReset => Sys2Proof.Machine.execPartReset s
  | .partDestroy => Sys2Proof.Machine.execPartDestroy s
  | .flrVf f => Sys2Proof.Machine.execFlrVf f s
  | .flrPf => Sys2Proof.Machine.execFlrPf s
  | .perstFall => Sys2Proof.Machine.execPerstFall s
  | .perstRise => Sys2Proof.Machine.execPerstRise s
  | .certificateRetrieval slot => Sys2Proof.Machine.execCertificateRetrieval slot s
  | .challenge nonce => Sys2Proof.Machine.execChallenge nonce s
  | .signedMeasurements slot => Sys2Proof.Machine.execSignedMeasurements slot s
  | .keyExchange sess key => Sys2Proof.Machine.execKeyExchange sess key s
  | .finish sess => Sys2Proof.Machine.execFinish sess s
  | .heartbeat sess => Sys2Proof.Machine.execHeartbeat sess s
  | .keyUpdate sess => Sys2Proof.Machine.execKeyUpdate sess s
  | .endSession sess => Sys2Proof.Machine.execEndSession sess s
  | .sessionTimeout sess => Sys2Proof.Machine.execSessionTimeout sess s
  | .bind sess f fabric => Sys2Proof.Machine.execBind sess f fabric s
  | .unbind sess f fabric => Sys2Proof.Machine.execUnbind sess f fabric s
  | .keyEnroll sess slot key role mask => Sys2Proof.Machine.execKeyEnroll sess slot key role mask s
  | .keyRemove sess slot => Sys2Proof.Machine.execKeyRemove sess slot s
  | .imageKeyEnroll sess slot key => Sys2Proof.Machine.execImageKeyEnroll sess slot key s
  | .imageKeyRemove sess slot => Sys2Proof.Machine.execImageKeyRemove sess slot s
  | .registerWrite w addr size v => Sys2Proof.Machine.execRegisterWrite w addr size v s
  | .regionBeat r => Sys2Proof.Machine.execRegionBeat r s
  | .partitionSwapRequest p beat => Sys2Proof.Machine.execPartitionSwapRequest p beat s
  | .transitSwapRequest regions beat => Sys2Proof.Machine.execTransitSwapRequest regions beat s
  | .perstNDelayEnd => Sys2Proof.Machine.execPerstNDelayEnd s
  | .dumpComplete t ok => Sys2Proof.Machine.execDumpComplete t ok s
  | .hbmSoftRepairComplete x c bank row => Sys2Proof.Machine.execHbmSoftRepairComplete x c bank row s
  | .stagingBlockTest e ok => Sys2Proof.Machine.execStagingBlockTest e ok s
  | .hbmStackCool x => Sys2Proof.Machine.execHbmStackCool x s
  | .commandedShutdown => Sys2Proof.Machine.execCommandedShutdown s
  | .spdmRecoveryImage fw => Sys2Proof.Machine.execSpdmRecoveryImage fw s
  | .negotiateAlgorithms offer => Sys2Proof.Machine.execNegotiateAlgorithms offer s
  | .entdaa address => Sys2Proof.Machine.execEntdaa address s

end Sys2Proof.Machine
end

