-- ==== Sys2Proof/WellFormed.lean ====
section
/-!
DEFINITION. Which commands name units the module can have (R8 to R15, R162, R298, R362, R367).
-/
namespace Sys2Proof

open Machine

/-- The nodes of the control network. -/
def nodeOk : NodeId → Bool
  | .hen r => r < 40
  | .tile t => t < 20000
  | .site x => x < 16
  | .iod d => d < 4
  | .mc => true

/-- A command is well formed if every unit, port, function and number it names exists. -/
def wellFormed (i : Instr) : Bool :=
  match i with
  | .nop t => t < 20000
  | .mov t => t < 20000
  | .add t => t < 20000
  | .sub t => t < 20000
  | .mul t => t < 20000
  | .and t => t < 20000
  | .or t => t < 20000
  | .xor t => t < 20000
  | .shl t => t < 20000
  | .shr t => t < 20000
  | .sra t => t < 20000
  | .min t => t < 20000
  | .max t => t < 20000
  | .cmplt t => t < 20000
  | .cmpeq t => t < 20000
  | .cmpltu t => t < 20000
  | .lds t => t < 20000
  | .sts t => t < 20000
  | .br t => t < 20000
  | .bz t => t < 20000
  | .jmp t => t < 20000
  | .loop t => t < 20000
  | .rdlc t => t < 20000
  | .loopi t => t < 20000
  | .halt t => t < 20000
  | .vadd t => t < 20000
  | .vsub t => t < 20000
  | .vmul t => t < 20000
  | .vfma t => t < 20000
  | .vmax t => t < 20000
  | .vmin t => t < 20000
  | .vabs t => t < 20000
  | .vneg t => t < 20000
  | .vbcst t => t < 20000
  | .vcvtn t => t < 20000
  | .vcvtw t => t < 20000
  | .vexp2 t => t < 20000
  | .vrcp t => t < 20000
  | .vrsq t => t < 20000
  | .vsum t => t < 20000
  | .vld t => t < 20000
  | .vst t => t < 20000
  | .vnorm t => t < 20000
  | .vsel t => t < 20000
  | .acfg t => t < 20000
  | .aloadb t => t < 20000
  | .amul t => t < 20000
  | .adrain t => t < 20000
  | .azero t => t < 20000
  | .xout t => t < 20000
  | .xin t => t < 20000
  | .tarr t => t < 20000
  | .twait t => t < 20000
  | .tsync t => t < 20000
  | .tphase t => t < 20000
  | .traise t => t < 20000
  | .pipePendingStart t _ => t < 20000
  | .barrierTimeout t => t < 20000
  | .resumeIssue t => t < 20000
  | .runStartBeat r => r < 40
  | .runComplete p => p < 16
  | .endBeat r => r < 40
  | .scrubComplete t => t < 20000
  | .flush w q => queueOk q && partyOk w
  | .pop w q => queueOk q && partyOk w
  | .rtrStData w t _ => t < 20000 && partyOk w
  | .rtrPeriod w t _ => t < 20000 && partyOk w
  | .rtrSlack w t _ => t < 20000 && partyOk w
  | .tOut w t _ => t < 20000 && partyOk w
  | .borderWordArrival t _ _ => t < 20000
  | .borderWordLate t _ _ => t < 20000
  | .partitionSwapBeat r => r < 40
  | .transitSwapBeat r => r < 40
  | .routerPlaneFeedLoss r => r < 40
  | .routerPlaneFeedReturn r _ => r < 40
  | .expressTokenInject n => nodeOk n
  | .arrive r _ => r < 40
  | .regionDone r _ => r < 40
  | .release t _ => t < 20000
  | .bellwetherElection p g => p < 16 && g < 4096
  | .hold r _ => r < 40
  | .holdBeat r => r < 40
  | .resume r _ => r < 40
  | .resumeBeat r => r < 40
  | .pSwap r _ => r < 40
  | .tSwap r _ => r < 40
  | .runStartToken r _ => r < 40
  | .runStop r _ => r < 40
  | .holdReq r _ => r < 40
  | .resumeReq r _ => r < 40
  | .resumeAnnounce r => r < 40
  | .hostHold w r => r < 40 && partyOk w
  | .hostResume w r => r < 40 && partyOk w
  | .fmHold w r => r < 40 && partyOk w
  | .fmResume w r => r < 40 && partyOk w
  | .creditToken _ => true
  | .faultToken n _ => nodeOk n
  | .normPair r _ => r < 40
  | .normEnd r _ => r < 40
  | .normRecordEmit p phase => p < 16 && phase < 256
  | .roosterTick _ _ => true
  | .tickMiss r => r < 40
  | .epochMark r => r < 40
  | .slipRecovered r => r < 40
  | .resync r => r < 40
  | .droopTrip r _ => r < 40
  | .droopClear r => r < 40
  | .fChange => true
  | .fixed w _ => partyOk w
  | .fixedMhz w mhz => mhz < 2048 && partyOk w
  | .fixedClockApply => true
  | .refLost => true
  | .refRestored => true
  | .fabricLockLoss => true
  | .oxPassStart e sh i => shareOk e sh i
  | .oxPassComplete e sh i _ => shareOk e sh i
  | .oxLatePoint e sh i => shareOk e sh i
  | .stagingMiss e ep => match e with | .hbm x => x < 16 && ep < 25 | .iod d => d < 4 && ep < 50
  | .edgEstData w x _ => x < 16 && partyOk w
  | .edgEstPort w x _ => x < 16 && partyOk w
  | .iraEstData w d _ => d < 4 && partyOk w
  | .iraEstPort w d _ => d < 4 && partyOk w
  | .ringRead x _ => x < 16
  | .ringWrite x => x < 16
  | .ringAtomic x _ => x < 16
  | .hbmEccPoll x reports => x < 16 && reports.all fun r => r.channel < 32
  | .hbmChannelFail x c => x < 16 && c < 32
  | .handoverComplete page => page < 524288
  | .pageZeroingComplete page => page < 524288
  | .devId w _ => partyOk w
  | .devidRewriteComplete => true
  | .iraRoute w d _ => d < 4 && partyOk w
  | .quiesce w d _ => d < 4 && partyOk w
  | .gmSelf w _ => partyOk w
  | .codewordReceived port lane _ _ _ => port < 48 && lane < 9
  | .load port => port < 48
  | .store port => port < 48
  | .storeMasked port => port < 48
  | .atomicSwap port => port < 48
  | .atomicCas port => port < 48
  | .atomicAdd port => port < 48
  | .atomicAnd port => port < 48
  | .atomicOr port => port < 48
  | .atomicXor port => port < 48
  | .atomicMaxu port => port < 48
  | .atomicMinu port => port < 48
  | .irantHandover port => port < 48
  | .reclaim port => port < 48
  | .ctlRead port => port < 48
  | .ctlWrite port => port < 48
  | .rsp port => port < 48
  | .requestExpired port => port < 48
  | .requestTimeout d _ => d < 4
  | .transitForward port => port < 48
  | .ack port => port < 48
  | .nak port => port < 48
  | .credit port => port < 48
  | .timeSync port _ _ => port < 48
  | .timeResp port _ => port < 48
  | .depart port => port < 48
  | .admitted port => port < 48
  | .laneMap port => port < 48
  | .laneSwitch port => port < 48
  | .laneRetire port lane => port < 48 && lane < 9
  | .portSignalLoss port => port < 48
  | .ackTimer port => port < 48
  | .creditTimer port => port < 48
  | .timeSyncTimer port _ => port < 48
  | .retrain w d _ => d < 4 && partyOk w
  | .retire w d => d < 4 && partyOk w
  | .autoRetrain port => port < 48
  | .replayDrainEnd port => port < 48
  | .portTrainingComplete trained => trained.port < 48
  | .portQualificationComplete port badLanes => port < 48 && badLanes.all fun l => l < 9
  | .colPassDue c _ => c < 64
  | .contrib port => port < 48
  | .chunkClose c _ _ => c < 64
  | .result port => port < 48
  | .roster port => port < 48
  | .lateNotice port => port < 48
  | .chunkGiveUp c _ _ => c < 64
  | .freeze w _ => partyOk w
  | .powerGood => true
  | .controllerFirmware => true
  | .halfAlwaysOnPower _ => true
  | .fuseMaps => true
  | .seamAndBridgeRepair found =>
    found.groups.all (fun g => isSeam g.1) &&
      found.wires.all fun w => isWire (.bridge w.1 w.2.1 w.2.2)
  | .bist found =>
    found.tiles.all (fun t => t < 20000) &&
      found.routers.all (fun t => t < 20000) &&
      found.hens.all (fun r => r < 40) &&
      found.phases.all (fun p => p.1 < 40 && p.2 < 64) &&
      found.hbmStaging.all (fun x => x < 16) &&
      found.iodStaging.all (fun d => d < 4) &&
      found.tripped.all fun r => r < 40
  | .floorPlanMerge => true
  | .linkTraining found =>
    found.segments.all (fun k => k < 20) &&
      found.ticks.all (fun p => p.1 < 40 && p.2.1 < 6) &&
      found.mbps.all (fun p => p.1 < 16) &&
      found.peers.all fun p => p.1 < 48
  | .refclk => true
  | .errorRateQualification found =>
    found.wires.all (fun w => isWire (.bridge w.1 w.2.1 w.2.2)) &&
      found.lanes.all (fun w => isWire (.iodLane w.1 w.2.1 w.2.2)) &&
      found.segments.all (fun k => k < 20) &&
      found.channels.all fun q => q.1 < 16 && q.2 < 32
  | .publication => true
  | .stageTimeout => true
  | .watchdogExpiry => true
  | .activate w => partyOk w
  | .activationHealthy => true
  | .activationTimeout => true
  | .busbarShutdown => true
  | .phaseFail r ph => r < 40 && ph < 64
  | .trip r => r < 40
  | .blockReenable r => r < 40
  | .dropMeasurement r _ _ => r < 40
  | .rampRecheck r _ => r < 40
  | .rampWaitLong r => r < 40
  | .rampComplete r => r < 40
  | .retentionEntry r => r < 40
  | .retentionExit r => r < 40
  | .darkRunKill r => r < 40
  | .phase r _ => r < 40
  | .budgetInterval _ => true
  | .report n _ => nodeOk n
  | .overBudgetReport r _ _ => r < 40
  | .budget r _ => r < 40
  | .dutySubperiod p => p < 16
  | .dutyHoldEnd p => p < 16
  | .hostCapW w watts => watts < 65536 && partyOk w
  | .fmCapW w watts => watts < 65536 && partyOk w
  | .floorRecompute _ => true
  | .derate r _ => r < 40
  | .heatOff r => r < 40
  | .heatReturn r => r < 40
  | .thermTrip r => r < 40
  | .thermTripRailOff r => r < 40
  | .iodHot d => d < 4
  | .iodCool d => d < 4
  | .iodTrip d => d < 4
  | .hbmHot x => x < 16
  | .coolantLoss => true
  | .coolantRailCheck _ _ => true
  | .coolantDepart => true
  | .coolantReturn => true
  | .moduleReset => true
  | .residueMismatch t router unit _ => t < 20000 && if router then unit < 5 else unit < 4
  | .tileDue t => t < 20000
  | .tileOverdue t => t < 20000
  | .tileLapsed t => t < 20000
  | .idleRegionTest t => t < 20000
  | .fallowWindow r _ => r < 40
  | .iftComplete t _ _ => t < 20000
  | .grant w r => r < 40 && partyOk w
  | .testOverdue _ => true
  | .testGrant r _ => r < 40
  | .testDone r _ => r < 40
  | .testLapsed _ => true
  | .wireRetire corrected => isWire corrected.wire
  | .doubleWireError wire => isWire wire
  | .henPoll r _ => r < 40
  | .ringSegmentFail seg => seg < 20
  | .controlCrossingFail _ => true
  | .mapPublication => true
  | .cperMergeRelease => true
  | .telemetrySwap r _ => r < 40
  | .doorbell w => partyOk w
  | .fdlRead => true
  | .configRead => true
  | .configWrite => true
  | .fwWrite => true
  | .fwCommit => true
  | .keyBootstrap => true
  | .ilv w _ => partyOk w
  | .tail w f tail _ => f ≤ 16 && tail < 4096 && partyOk w
  | .head w f head => f ≤ 16 && head < 4096 && partyOk w
  | .enable w f _ _ => f ≤ 16 && partyOk w
  | .windowReg f => f ≤ 16
  | .windowUnreg f => f ≤ 16
  | .dmaH2d f => f ≤ 16
  | .dmaD2h f => f ≤ 16
  | .dmaComplete f cid _ => f ≤ 16 && cid < 65536
  | .imageLoad f _ => f ≤ 16
  | .imageLoadComplete p => p < 16
  | .runStart f => f ≤ 16
  | .runKill f => f ≤ 16
  | .handover f => f ≤ 16
  | .partCreate => true
  | .partReset => true
  | .partDestroy => true
  | .flrVf f => 1 ≤ f && f ≤ 16
  | .flrPf => true
  | .perstFall => true
  | .perstRise => true
  | .certificateRetrieval slot => slot < 8
  | .challenge _ => true
  | .signedMeasurements slot => slot < 8
  | .keyExchange sess _ => sess < 32
  | .finish sess => sess < 32
  | .heartbeat sess => sess < 32
  | .keyUpdate sess => sess < 32
  | .endSession sess => sess < 32
  | .sessionTimeout sess => sess < 32
  | .bind sess f _ => f < 32 && sess < 32
  | .unbind sess f _ => f < 32 && sess < 32
  | .keyEnroll sess _ _ _ _ => sess < 32
  | .keyRemove sess _ => sess < 32
  | .imageKeyEnroll sess _ _ => sess < 32
  | .imageKeyRemove sess _ => sess < 32
  | .registerWrite w addr _ _ => partyOk w && addr < 2 ^ 40
  | .regionBeat r => r < 40
  | .partitionSwapRequest p _ => p < 16
  | .transitSwapRequest _ _ => true
  | .perstNDelayEnd => true
  | .dumpComplete t _ => t < 20000
  | .hbmSoftRepairComplete x c _ _ => x < 16 && c < 32
  | .stagingBlockTest e _ => match e with | .hbm x => x < 16 | .iod d => d < 4
  | .hbmStackCool x => x < 16
  | .commandedShutdown => true
  | .spdmRecoveryImage _ => true
  | .negotiateAlgorithms _ => true
  | .entdaa _ => true

end Sys2Proof
end

