-- ==== Sys2Proof/Safety.lean ====
section
/-!
DEFINITION. What a safe state of the module is (its byte memories in canonical form), what a step may never do to the
field defect log and the fuses (R293, R298), and the conditions the statements name: when a tile issues a word, when a
node takes a token, and the tables of commands that have one shape.
-/
namespace Sys2Proof.Machine

/-- Both byte memories of the state, the stacks' and the host's as the module has used it, are canonical. -/
abbrev State.memWf (s : State) : Prop := Memory.wf s.hbm ∧ Memory.wf s.host

/-- What no command does: lose an entry of the field defect log (R298), change a fuse (R293), or touch the queue it was
taken from. -/
structure Keeps (s t : State) : Prop where
  log : s.mgt.fdl <+: t.mgt.fdl
  fuses : t.mgt.fuses = s.mgt.fuses
  queue : t.pending = s.pending
  hbm : Memory.wf s.hbm → Memory.wf t.hbm
  host : Memory.wf s.host → Memory.wf t.host

/-- Tile `n` issues the word `w` in this beat (R42, R45, R51): it runs, its region's schedule runs, its next issue beat
has come, and the store gives the word; `u` is the state after the fetch, a corrected bit counted. -/
structure Issuing (s : State) (n : Nat) (w : Dword) (u : State) : Prop where
  tile : n < 20000
  due : s.issues n = true
  inStore : (s.tile n).pc < 6144
  word : s.fetch n = (w, false, u)

/-- The tile after a word that goes on in sequence, with a write that lands `lat` beats on (R44, R53): everything else of
the tile is as before. -/
def Tile.wrote (x : Tile) (lat : Nat) (a : Act) : Tile :=
  { x with
    pend := x.pend ++ [{ land := x.beat + lat - 1, issue := x.beat, act := a }]
    pc := (afterWord x.pc x.loops).1
    loops := (afterWord x.pc x.loops).2
    nextIssue := x.beat + 1 }

/-- The lines an A row and, in an MX format, its scale byte lie in (R64). -/
def rowLines (f : Nat) (e : Entry) : List Nat :=
  (if e.rowByte / 64 = (e.rowByte + rowBytes f - 1) / 64 then [e.rowByte / 64]
    else [e.rowByte / 64, (e.rowByte + rowBytes f - 1) / 64]) ++ (if isMx f then [e.scaleByte / 64] else [])

/-- A pipe of a tile, and the tile with it replaced (R46). -/
def Tile.pipe (x : Tile) : PipeId → Pipe
  | .bload a => (x.arr a).bload
  | .mul a g => x.mulPipe a g
  | .drain a => (x.arr a).drain
  | .vmem => x.vmem
  | .xout => x.xout
  | .xin => x.xin
def Tile.setPipe (x : Tile) (q : PipeId) (p : Pipe) : Tile := x.modPipe (fun _ => p) q

/-- The token a tile's control node sends to its hen (R163, R167). -/
def tileToken (s : State) (n : Nat) (cls kind : BitVec 4) (group : Nat) (pay : BitVec 96) : Token where
  cls := cls
  kind := kind
  group := BitVec.ofNat 12 group
  scope := 0
  src := BitVec.ofNat 6 (regionOf n)
  part := BitVec.ofNat 4 (s.region (regionOf n)).ctl.part
  pay := pay

/-- A scalar operation of two operands (R52): the command, its opcode, its latency and what it computes. -/
structure AluRow where
  cmd : Nat → Instr
  op : Nat
  lat : Nat
  f : Word → Word → Word

/-- The scalar operations of two operands as R52 gives them. -/
def aluRows : List AluRow := [
  ⟨.mov, 0x01, 1, fun _ b => b⟩, ⟨.add, 0x02, 1, fun a b => a + b⟩, ⟨.sub, 0x03, 1, fun a b => a - b⟩,
  ⟨.mul, 0x04, 3, fun a b => a * b⟩, ⟨.and, 0x05, 1, fun a b => a &&& b⟩, ⟨.or, 0x06, 1, fun a b => a ||| b⟩,
  ⟨.xor, 0x07, 1, fun a b => a ^^^ b⟩, ⟨.shl, 0x08, 1, fun a b => a <<< (b.toNat % 32)⟩,
  ⟨.shr, 0x09, 1, fun a b => a >>> (b.toNat % 32)⟩, ⟨.sra, 0x0A, 1, fun a b => a.sshiftRight (b.toNat % 32)⟩,
  ⟨.min, 0x0B, 1, fun a b => if a.toInt < b.toInt then a else b⟩,
  ⟨.max, 0x0C, 1, fun a b => if a.toInt < b.toInt then b else a⟩,
  ⟨.cmplt, 0x0D, 1, fun a b => if a.toInt < b.toInt then 1 else 0⟩,
  ⟨.cmpeq, 0x0E, 1, fun a b => if a = b then 1 else 0⟩,
  ⟨.cmpltu, 0x0F, 1, fun a b => if a.toNat < b.toNat then 1 else 0⟩]

/-- A vector operation of one beat's registers (R56, R95 to R97): the command, its opcode, its latency and the value of
lane `j` of the result. -/
structure LaneRow where
  cmd : Nat → Instr
  op : Nat
  lat : Nat
  f : Dword → Tile → Nat → Word

/-- FP32 or INT32 by FMT (R95). -/
def byFmt (w : Dword) (f i : Word) : Word := if vFmt w = 6 then i else f

/-- The lane operations as R56 and R95 to R97 give them; `a`, `b` and `c` are the lanes of VA, VB and VC. -/
def laneRows : List LaneRow := [
  ⟨.vadd, 0x00, 4, fun w x j => byFmt w (fadd (lane (x.vreg (vVa w)) j) (lane (x.vreg (vVb w)) j))
    (lane (x.vreg (vVa w)) j + lane (x.vreg (vVb w)) j)⟩,
  ⟨.vsub, 0x01, 4, fun w x j => byFmt w (fsub (lane (x.vreg (vVa w)) j) (lane (x.vreg (vVb w)) j))
    (lane (x.vreg (vVa w)) j - lane (x.vreg (vVb w)) j)⟩,
  ⟨.vmul, 0x02, 4, fun w x j => byFmt w (fmul (lane (x.vreg (vVa w)) j) (lane (x.vreg (vVb w)) j))
    (lane (x.vreg (vVa w)) j * lane (x.vreg (vVb w)) j)⟩,
  ⟨.vfma, 0x03, 5, fun w x j =>
    ffma (lane (x.vreg (vVa w)) j) (lane (x.vreg (vVb w)) j) (lane (x.vreg (vVc w)) j)⟩,
  ⟨.vmax, 0x04, 4, fun w x j => byFmt w (fmax (lane (x.vreg (vVa w)) j) (lane (x.vreg (vVb w)) j))
    (if (lane (x.vreg (vVa w)) j).toInt < (lane (x.vreg (vVb w)) j).toInt then lane (x.vreg (vVb w)) j
      else lane (x.vreg (vVa w)) j)⟩,
  ⟨.vmin, 0x05, 4, fun w x j => byFmt w (fmin (lane (x.vreg (vVa w)) j) (lane (x.vreg (vVb w)) j))
    (if (lane (x.vreg (vVa w)) j).toInt < (lane (x.vreg (vVb w)) j).toInt then lane (x.vreg (vVa w)) j
      else lane (x.vreg (vVb w)) j)⟩,
  ⟨.vabs, 0x06, 4, fun w x j => byFmt w (lane (x.vreg (vVa w)) j &&& 0x7FFFFFFF#32)
    (BitVec.ofNat 32 (lane (x.vreg (vVa w)) j).toInt.natAbs)⟩,
  ⟨.vneg, 0x07, 4, fun w x j => byFmt w (fneg (lane (x.vreg (vVa w)) j)) (-lane (x.vreg (vVa w)) j)⟩,
  ⟨.vbcst, 0x08, 4, fun w x _ => x.sreg (vSa w)⟩,
  ⟨.vexp2, 0x0B, 10, fun w x j => fexp2 (lane (x.vreg (vVa w)) j)⟩,
  ⟨.vrcp, 0x0C, 10, fun w x j => frcp (lane (x.vreg (vVa w)) j)⟩,
  ⟨.vrsq, 0x0D, 10, fun w x j => frsq (lane (x.vreg (vVa w)) j)⟩,
  ⟨.vsum, 0x0E, 10, fun w x j => if j = 0 then treeSum (lanes (x.vreg (vVa w))) else 0⟩,
  ⟨.vsel, 0x12, 4, fun w x j =>
    if lane (x.vreg (vVc w)) j ≠ 0 then lane (x.vreg (vVa w)) j else lane (x.vreg (vVb w)) j⟩]

/-- A write of a whole register is carried out (R286, R364 to R366): the party exists, the register answers, the party may
read it, and it gives no field that it may not write a value other than zero and the present one. -/
structure Permitted (s : State) (w : Party) (b : Block) (off : Nat) (v : Dword) : Prop where
  party : partyOk w = true
  reach : s.reach (addrOf b off) 8 = (0, b, off)
  read : s.mayRead w b off = true
  fields : s.overreach w b off (BitVec.allOnes 64) v = false

/-- The bits of a register's RW fields, and of its W1C and WO fields, that a party may write (R17, R365). -/
def State.rwBits (s : State) (w : Party) (b : Block) (off : Nat) : Dword := s.writable w b off (· = .rw)
def State.oneBits (s : State) (w : Party) (b : Block) (off : Nat) : Dword :=
  s.writable w b off fun a => a = .w1c || a = .wo

/-- The value a register's RW fields take from a permitted write: what is written where the party may write, else what
the register shows (R366). -/
def State.taken (s : State) (w : Party) (b : Block) (off : Nat) (v : Dword) : Dword :=
  (s.readReg b off &&& ~~~ s.rwBits w b off) ||| (v &&& s.rwBits w b off)

/-- Hen `r` hears the token `k` of a class and kind (R166): its plane works, and the token is neither reserved nor
stale. -/
structure Heard (s : State) (r cls kind : Nat) (k : Token) : Prop where
  region : r < 40
  cls : k.cls.toNat = cls
  kind : k.kind.toNat = kind
  plane : (s.region r).planeOn = true
  known : reservedToken k = false
  fresh : (s.region r).ctl.isStale k = false

/-- The first collective packet `k` of its op at a port is taken in (R262, R269): for this module, not stale, with room in
the buffer and a good digest; `came` is the time of its arrival, `v` the state with it taken out and its credit freed. -/
structure Collected (s : State) (p op : Nat) (came : Dword) (k : List Line) (v : State) : Prop where
  port : p < 48
  first : (s.port p).rx.find? (fun k => hCls (headOf k.2) = 3 && hOp (headOf k.2) = op && s.isOwn (headOf k.2)) = some (came, k)
  fresh : s.colStale (headOf k) = false
  room : s.colLines (s.chan (cChan (headOf k))).home < 262144 ∨ hData (headOf k) = 0
  digest : colDigest k = cDigest (headOf k)
  after : v = (s.modPort p fun x => { x with rx := x.rx.erase (came, k) }).freeCredit p 3 k.length

/-- The command of an opcode at the head of a function's ring starts (R375); `u` is the state with it taken out. -/
structure Starts (s : State) (op f : Nat) (q : Fetched) (u : State) : Prop where
  fn : f ≤ 16
  opcode : q.entry.opcode.toNat = op
  accepted : q.rej = none
  may : (s.fn f).mayStart q = true
  head : ∃ qs, (s.fn f).queue = q :: qs ∧ u = s.modFn f fun x => { x with queue := qs }

/-- A mailbox request of an opcode with `n` payload bytes waits (R393). -/
structure Requested (s : State) (op n : Nat) : Prop where
  busy : s.mgt.mboxBusy = true
  opcode : mbxNum s.mgt.drainBank 0 2 = op
  length : mbxNum s.mgt.drainBank 2 2 = n

/-- An open session whose handshake is complete (R367, R369). -/
structure InSession (s : State) (n : Nat) (x : Session) : Prop where
  number : n < 32
  is_open : s.session n = some x
  finished : x.finished = true

/-- The beat an announced one takes where it is late: the next (R169). -/
def atLeast (now b : Nat) : Nat := if b < now then now + 1 else b

end Sys2Proof.Machine
end

