-- ==== Sys2Proof/Certificates/Slice0/Obligations.lean ====
section
/-!
DEFINITION. The statements, in the order of OBLIGATIONS.json.
-/

open Sys2Proof Sys2Proof.Machine

/-- For every state whose queue begins with a command, step is exec of that command on the state with the queue's rest. -/
def Obligations.StepRunsFront : Prop :=
  ∀ (s : State) (c : Instr) (rest : List Instr), s.pending = c :: rest → step s = exec c (s.withQueue rest)

/-- With an empty queue a step answers the state unchanged; this is the model's own choice (log entry 8). -/
def Obligations.IdleStep : Prop :=
  ∀ s : State, s.pending = [] → step s = .next s

/-- For every command and state: if every unit, port, function and number the command names exists, exec answers a next
state; if not, it answers the fault noSuchUnit. -/
def Obligations.WellFormedRuns : Prop :=
  ∀ (i : Instr) (s : State),
    (wellFormed i = true → ∃ t, exec i s = .next t) ∧ (wellFormed i = false → exec i s = .fault .noSuchUnit)

/-- For every state whose two byte memories are canonical (addresses rising, no byte listed that equals what an unlisted
one reads as), if step answers a next state, that state's memories are canonical, every entry of the field defect log
is still there in its place, the fuses are the same, and the queue is the old one without its front command. That both
memories keep their form is the model's own invariant; that the log is append-only is R298's. -/
def Obligations.EveryStepKeeps : Prop :=
  ∀ s t : State, s.memWf → step s = .next t →
    t.memWf ∧ s.mgt.fdl <+: t.mgt.fdl ∧ t.mgt.fuses = s.mgt.fuses ∧ t.pending = s.pending.tail

/-- Right after reset both byte memories are canonical, no command waits, every tile is IDLE with zero registers and zero
program counter, no region clock runs, the controller is in bring-up stage 0 and not READY, no partition and no
session exists, and no token is in flight. -/
def Obligations.ResetState : Prop :=
  State.reset.memWf ∧ State.reset.pending = [] ∧ State.reset.flight = [] ∧
    State.reset.mgt.stage = 0 ∧ State.reset.mgt.ready = false ∧
    (∀ n, (State.reset.tile n).st = .idle ∧ (State.reset.tile n).pc = 0 ∧ (∀ k, (State.reset.tile n).sreg k = 0) ∧
      ∀ k, (State.reset.tile n).vreg k = 0) ∧
    (∀ r, (State.reset.region r).clk.on = false) ∧ (∀ p, (State.reset.part p).live = false) ∧
    ∀ n, State.reset.session n = none

/-- For each of MOV, ADD, SUB, MUL, AND, OR, XOR, SHL, SHR, SRA, MIN, MAX, CMPLT, CMPEQ and CMPLTU: when a tile issues a
well-formed word of that opcode, the command completes; the tile's new state differs from the fetched one only by the
pending write of the row's result of S[SA] and B to S[SD], landing its latency on, and by the sequential advance;
nothing else of the module changes. -/
def Obligations.AluWords : Prop :=
  ∀ row ∈ aluRows, ∀ (s u : State) (n : Nat) (w : Dword),
    Issuing s n w u → wCls w = 0 → wOp w = row.op → scalarOk w = true →
    exec (row.cmd n) s = .next (u.setTile n ((u.tile n).wrote row.lat
      (.sreg (sSd w) (row.f ((u.tile n).sreg (sSa w)) (opB (u.tile n) w)))))

/-- A write to S0 that lands leaves every scalar register reading as before, S0 as zero; a write to another register makes
that one read the value and leaves the rest. -/
def Obligations.ZeroRegister : Prop :=
  ∀ (x0 x : Tile) (p : Pend) (d k : Nat) (v : Word), p.act = .sreg d v →
    (Tile.land x0 x p).sreg k = if k = 0 then 0 else if k = d then v else x.sreg k

/-- When a tile issues a well-formed NOP it idles for IMM[15:0] further beats; RDLC writes the innermost active loop's
index, 0 with none; HALT stops issue; BR and BZ jump to IMM[12:0] when S[SA] is not zero, or is zero, with the next
issue 3 beats on, and else go on in sequence; JMP always jumps. A target is below 6,144. -/
def Obligations.SequencerWords : Prop :=
  ∀ (s u : State) (n : Nat) (w : Dword), Issuing s n w u → wCls w = 0 → scalarOk w = true →
    (wOp w = 0x00 → exec (.nop n) s = .next (u.setTile n ((u.tile n).advance (1 + bits w 15 0)))) ∧
    (wOp w = 0x16 → exec (.rdlc n) s = .next (u.setTile n ((u.tile n).wrote 1 (.sreg (sSd w)
      (BitVec.ofNat 32 (((u.tile n).loops.map LoopRec.index).headD 0)))))) ∧
    (wOp w = 0x18 → exec (.halt n) s = .next (u.setTile n { (u.tile n).advance 1 with st := .halted })) ∧
    (wOp w = 0x12 → sTgt w < 6144 → exec (.br n) s = .next (u.setTile n
      (if (u.tile n).sreg (sSa w) = 0 then (u.tile n).advance 1 else (u.tile n).jump (sTgt w)))) ∧
    (wOp w = 0x13 → sTgt w < 6144 → exec (.bz n) s = .next (u.setTile n
      (if (u.tile n).sreg (sSa w) = 0 then (u.tile n).jump (sTgt w) else (u.tile n).advance 1))) ∧
    (wOp w = 0x14 → sTgt w < 6144 → exec (.jmp n) s = .next (u.setTile n ((u.tile n).jump (sTgt w))))

/-- When a tile issues a well-formed LOOP or LOOPI at p whose end e satisfies p < e < 6,144 and no enclosing end is
passed: with n ≥ 1 iterations and fewer than 4 active loops it becomes the innermost active loop, with n left and
index 0, and issue goes on at p + 1 in the next beat; with n = 0 no loop is added and issue goes on 3 beats later
where it would after the word at e. -/
def Obligations.LoopWords : Prop :=
  ∀ (s u : State) (n : Nat) (w : Dword), Issuing s n w u → wCls w = 0 → scalarOk w = true →
    (u.tile n).pc < sTgt w → sTgt w < 6144 → (∀ l ∈ (u.tile n).loops, sTgt w ≤ l.stop) →
    ∀ (i : Instr) (k : Nat),
      (i = .loop n ∧ wOp w = 0x15 ∧ k = ((u.tile n).sreg (sSa w)).toNat) ∨ (i = .loopi n ∧ wOp w = 0x17 ∧ k = bits w 31 16) →
      (0 < k → (u.tile n).loops.length < 4 → exec i s = .next (u.setTile n { u.tile n with
        pc := (u.tile n).pc + 1, nextIssue := (u.tile n).beat + 1,
        loops := { start := (u.tile n).pc, stop := sTgt w, left := k, index := 0 } :: (u.tile n).loops })) ∧
      (k = 0 → exec i s = .next (u.setTile n { u.tile n with
        pc := (afterWord (sTgt w) (u.tile n).loops).1, loops := (afterWord (sTgt w) (u.tile n).loops).2,
        nextIssue := (u.tile n).beat + 3 }))

/-- When a tile issues a well-formed LDS or STS whose byte address is a multiple of 4 below 393,216, the command
completes. LDS only goes on in sequence and adds one request to the read port, one beat on, for the address's line,
for S[SD] at the byte's place in it; STS only goes on in sequence and adds one request to the write port, one beat on,
for the address's line, with a mask of the four bytes at the address and the bytes of S[SB] there. A line that the
port delivers for S[SD] becomes a pending write of the four bytes at the place, landing 6 beats after the port's. A
write to a line that lands changes the bytes of that line under its mask to its data, and no other byte of any line. -/
def Obligations.ScratchWords : Prop :=
  (∀ (s u : State) (n : Nat) (w : Dword), Issuing s n w u → wCls w = 0 → scalarOk w = true →
      ∀ (x : Tile) (a : Nat), x = u.tile n → a = (x.sreg (sSa w)).toNat + sImm w → a % 4 = 0 → a < 393216 →
      (wOp w = 0x10 → exec (.lds n) s = .next (u.setTile n { x.advance 1 with
        rds := x.rds ++ [{ beat := x.beat + 1, code := 2, line := a / 64, issue := x.beat, dest := .sreg (sSd w) (a % 64) }] })) ∧
      (wOp w = 0x11 → exec (.sts n) s = .next (u.setTile n { x.advance 1 with
        wrs := x.wrs ++ [{
          beat := x.beat + 1, code := 2, line := a / 64, issue := x.beat, mask := maskOf (a % 64) 4,
          data := (x.sreg (sSb w)).setWidth 512 <<< (8 * (a % 64)) }] }))) ∧
    (∀ (x : Tile) (q : RdReq) (v : Line) (d o : Nat), q.dest = .sreg d o → x.deliver q v = { x with
      pend := x.pend ++ [{ land := x.beat + 6, issue := q.issue, act := .sreg d (v.extractLsb' (8 * o) 32) }] }) ∧
    (∀ (x0 x : Tile) (p : Pend) (l c : Nat) (m : BitVec 64) (v : Line), p.act = .line l c m v → ∀ l2 j, j < 64 →
      lineByte ((Tile.land x0 x p).sp.look 0 l2) j =
        if l2 = l ∧ m.getLsbD j = true then lineByte v j else lineByte (x.sp.look 0 l2) j)

/-- A BR, BZ or JMP target, or a LOOP or LOOPI end, of 6,144 or more faults with ADDR_RANGE at the issue beat, taken or
not and whatever the iteration count; so does an LDS or STS byte address that is no multiple of 4 or not below
393,216. (R54) -/
def Obligations.RangeFaults : Prop :=
  ∀ (s u : State) (n : Nat) (w : Dword), Issuing s n w u → wCls w = 0 → scalarOk w = true →
    (6144 ≤ sTgt w →
      (wOp w = 0x12 → exec (.br n) s = .next (u.tileFault n cAddrRange 0)) ∧
      (wOp w = 0x13 → exec (.bz n) s = .next (u.tileFault n cAddrRange 0)) ∧
      (wOp w = 0x14 → exec (.jmp n) s = .next (u.tileFault n cAddrRange 0)) ∧
      (wOp w = 0x15 → exec (.loop n) s = .next (u.tileFault n cAddrRange 0)) ∧
      (wOp w = 0x17 → exec (.loopi n) s = .next (u.tileFault n cAddrRange 0))) ∧
    (¬ ((((u.tile n).sreg (sSa w)).toNat + sImm w) % 4 = 0 ∧ ((u.tile n).sreg (sSa w)).toNat + sImm w < 393216) →
      (wOp w = 0x10 → exec (.lds n) s = .next (u.tileFault n cAddrRange 0)) ∧
      (wOp w = 0x11 → exec (.sts n) s = .next (u.tileFault n cAddrRange 0)))

/-- A tile fault makes the tile FAULTED with the cause's bit set, the faulting word's address and the beat recorded, and
sends a TILE FAULT token to the tile's hen; no scratchpad line, register, program word or other tile changes. -/
def Obligations.TileFaultEffect : Prop :=
  ∀ (s : State) (n cause : Nat) (code : BitVec 16), ∃ k : Token,
    ((s.tileFault n cause code).tile n).st = .faulted ∧
    ((s.tileFault n cause code).tile n).err = setBit (s.tile n).err cause ∧
    ((s.tileFault n cause code).tile n).firstPc = (s.tile n).pc ∧
    ((s.tileFault n cause code).tile n).errBeat = (s.tile n).beat ∧
    (s.tileFault n cause code).flight = s.flight ++ [(.hen (regionOf n), k)] ∧ k.cls = 4 ∧ k.kind = 0 ∧
    ((s.tileFault n cause code).tile n).sregs = (s.tile n).sregs ∧
    ((s.tileFault n cause code).tile n).vregs = (s.tile n).vregs ∧
    ((s.tileFault n cause code).tile n).sp = (s.tile n).sp ∧
    ((s.tileFault n cause code).tile n).prog = (s.tile n).prog ∧
    (∀ m, m ≠ n → (s.tileFault n cause code).tile m = s.tile m) ∧ (s.tileFault n cause code).hbm = s.hbm

/-- For each of VADD, VSUB, VMUL, VFMA, VMAX, VMIN, VABS, VNEG, VBCST, VEXP2, VRCP, VRSQ, VSUM and VSEL: when a tile
issues a well-formed word of that opcode, the command completes with the pending write to VD of a register whose lane
j is the row's value of lane j, landing its latency on; nothing else changes but the sequential advance. -/
def Obligations.LaneWords : Prop :=
  ∀ row ∈ laneRows, ∀ (s u : State) (n : Nat) (w : Dword),
    Issuing s n w u → wCls w = 1 → wOp w = row.op → vectorOk w = true →
    ∃ v : VReg, exec (row.cmd n) s = .next (u.setTile n ((u.tile n).wrote row.lat (.vreg (vVd w) v))) ∧
      ∀ j, j < 64 → lane v j = row.f w (u.tile n) j

/-- When a tile issues a well-formed VCVTN, the 64 lanes of VA are narrowed to FMT under RND and packed into VD, landing 5
beats on, and with RND 2 the generator takes 64 draws (else none); VCVTW widens the packed elements of VA to the lanes
of VD, landing 5 beats on. -/
def Obligations.ConvertWords : Prop :=
  ∀ (s u : State) (n : Nat) (w : Dword), Issuing s n w u → wCls w = 1 → vectorOk w = true →
    (wOp w = 0x09 →
      (vRnd w ≠ 2 → exec (.vcvtn n) s = .next (u.setTile n ((u.tile n).wrote 5 (.vreg (vVd w)
        (packLanes (vFmt w) (vRnd w) (u.sela (regionOf n)) (lanes ((u.tile n).vreg (vVa w))) (List.replicate 64 0)))))) ∧
      (vRnd w = 2 → exec (.vcvtn n) s = .next (u.setTile n (({ u.tile n with
          gen := (draws (u.sela (regionOf n)) 64 (u.tile n).gen).1 }).wrote 5 (.vreg (vVd w)
        (packLanes (vFmt w) 2 (u.sela (regionOf n)) (lanes ((u.tile n).vreg (vVa w)))
          (draws (u.sela (regionOf n)) 64 (u.tile n).gen).2)))))) ∧
    (wOp w = 0x0A → exec (.vcvtw n) s = .next (u.setTile n ((u.tile n).wrote 5 (.vreg (vVd w)
      (unpackLanes (vFmt w) ((u.tile n).vreg (vVa w)))))))

/-- When a tile issues a well-formed VNORM, it only goes on in sequence, with a pending update of the named accumulator by
the tree sum of the squares of VA, landing 8 beats on; the update that lands adds that sum to the accumulator as it
was at the start of the beat, leaves the other accumulators as they were and makes the tag one of the next report.
When it issues a well-formed VLD or VST whose four lines lie below 6,144 and whose pipe is not full, VLD only goes on
in sequence, adds the four reads of its lines at the four beats after its start beat and enters the vector memory pipe
for five beats; VST only goes on in sequence, adds the store of VA to its lines from its start beat and enters that
pipe for five beats. A line that the port delivers for line k of VD becomes a pending write of that quarter, landing
10 beats after the start beat. A last line of 6,144 or more faults with ADDR_RANGE, a full pipe with PIPE_OVERRUN. -/
def Obligations.VectorMemoryWords : Prop :=
  (∀ (s u : State) (n : Nat) (w : Dword) (x : Tile), Issuing s n w u → wCls w = 1 → vectorOk w = true → x = u.tile n →
      (wOp w = 0x11 → exec (.vnorm n) s = .next (u.setTile n (x.wrote 8 (.norm (bits w 7 0) (bits w 8 8)
        (treeSum ((lanes (x.vreg (vVa w))).map fun v => fmul v v)))))) ∧
      ∀ l : Nat, l = (x.sreg (vSa w)).toNat + bits w 12 0 →
        (l + 3 < 6144 → x.vmem.full x.beat = false → ∀ b : Nat, b = x.vmem.startOf x.beat x.beat →
          (wOp w = 0x0F → exec (.vld n) s = .next (u.setTile n { x.advance 1 with
            rds := x.rds ++ (List.range 4).map fun k =>
              { beat := b + 1 + k, code := 1, line := l + k, issue := x.beat, dest := .vline (vVd w) k b },
            vmem := x.vmem.enter x.beat x.beat 4 })) ∧
          (wOp w = 0x10 → exec (.vst n) s = .next (u.setTile n { x.advance 1 with
            vsts := x.vsts ++ [{ start := b, va := vVa w, line := l, issue := x.beat }],
            vmem := x.vmem.enter x.beat x.beat 4 }))) ∧
        (6144 ≤ l + 3 → (wOp w = 0x0F → exec (.vld n) s = .next (u.tileFault n cAddrRange 0)) ∧
          (wOp w = 0x10 → exec (.vst n) s = .next (u.tileFault n cAddrRange 0))) ∧
        (l + 3 < 6144 → x.vmem.full x.beat = true →
          (wOp w = 0x0F → exec (.vld n) s = .next (u.tileFault n cPipeOverrun 0)) ∧
          (wOp w = 0x10 → exec (.vst n) s = .next (u.tileFault n cPipeOverrun 0)))) ∧
    (∀ (x : Tile) (q : RdReq) (v : Line) (d k b : Nat), q.dest = .vline d k b → x.deliver q v = { x with
      pend := x.pend ++ [{ land := b + 10, issue := q.issue, act := .vline d k v }] }) ∧
    (∀ (x0 x : Tile) (p : Pend) (t k : Nat) (v : Word), p.act = .norm t k v → Tile.land x0 x p = { x with
      norms := x.norms.put 0 (2 * t + k) (fadd (x0.norms.look 0 (2 * t + k)) v),
      normNew := if t ∈ x.normNew then x.normNew else t :: x.normNew })

/-- When a tile issues a well-formed array word of group width W: ACFG, every pipe of the array empty, only goes on in
sequence with the pending setting of the split; ALOADB of n lines, they in range and its pipe not full, adds one read
a beat from its start beat and enters its pipe for n beats; AMUL of M ≥ 1 rows, its formats a pair, its lines in range
and its group's pipe not full, adds M rows, row i entering at the start beat plus i times the beats of a row (four
times that in Sela compatibility mode), for accumulator row ROW + i mod 128, swapping B with row 0 where SWAP says so
and overwriting where ACC is 1, and for each row the reads of its lines, and its scale's, seven beats before; ADRAIN
of M ≥ 1 rows adds M rows to drain; AZERO of M ≥ 1 rows adds the pending zeroing of M accumulator rows, one a beat;
each enters its pipe and goes on in sequence, and nothing else changes. AMUL, ADRAIN and AZERO with M = 0 only go on.
What an AMUL row leaves pending lands as: each of its accumulators takes the accumulation of its terms on its value at
the start of the beat, and no other accumulator of the array changes. A pipe in use at ACFG faults with SPLIT_BUSY,
formats that are no pair with FORMAT_PAIR. -/
def Obligations.ArrayWords : Prop :=
  (∀ (s u : State) (n : Nat) (w : Dword) (x : Tile) (b a g base : Nat) (sela : Bool), Issuing s n w u → wCls w = 2 →
      x = u.tile n → b = x.beat → a = aArr w → g = aGrp w → base = (x.sreg (aSa w)).toNat + aLine w →
      sela = u.sela (regionOf n) → arrayWordOk sela w x = true →
      (wOp w = 1 → (x.arr a).idle b = true → exec (.acfg n) s = .next (u.setTile n (x.wrote 1 (.acfg a g)))) ∧
      (wOp w = 1 → (x.arr a).idle b = false → exec (.acfg n) s = .next (u.tileFault n cSplitBusy 0)) ∧
      (wOp w = 2 → base + blockLines (wordW x w) (aFmt w) ≤ 6144 → (x.arr a).bload.full b = false →
        exec (.aloadb n) s = .next (u.setTile n ((({ x with
          rds := x.rds ++ (List.range (blockLines (wordW x w) (aFmt w))).map fun j =>
            {
              beat := (x.arr a).bload.startOf b (b + 1) + j, code := 3 + a, line := base + j, issue := b,
              dest := .bline a (wordCol x w) (wordW x w) (aFmt w) j } } : Tile).setArr a { x.arr a with
          bload := (x.arr a).bload.enter b (b + 1) (blockLines (wordW x w) (aFmt w) - 1) }).advance 1))) ∧
      (wOp w = 3 → pairOk (aFmt w) (aFmt2 w) = true → 0 < aM w →
        rowsEnd base (aM w) (rowBytes (aFmt w)) (isMx (aFmt w)) ≤ 6144 → (x.mulPipe a g).full b = false →
        ∀ (step : Nat) (rows : List Entry), step = (if sela then 4 else 1) * beatsOf (aFmt w) →
        rows = ((List.range (aM w)).map fun i =>
          {
            beat := (x.mulPipe a g).startOf b (b + 8) + i * step, arr := a, grp := g, fmtA := aFmt w, fmtB := aFmt2 w,
            swap := aSwap w && i == 0, ovr := aAcc w == 1, row := (aRow w + i) % 128,
            rowByte := 64 * base + i * rowBytes (aFmt w),
            scaleByte := 64 * (base + (aM w * rowBytes (aFmt w) + 63) / 64) + i, issue := b, lines := [] }) →
        exec (.amul n) s = .next (u.setTile n ((({ x with
          entries := x.entries ++ rows,
          rds := x.rds ++ rows.flatMap fun e => (rowLines (aFmt w) e).map fun l =>
            { beat := e.beat - 7, code := 7 + 4 * a + g, line := l, issue := b, dest := .arow a g e.beat } } : Tile).setMul
          a g ((x.mulPipe a g).enter b (b + 8) (aM w * step - 1))).advance 1))) ∧
      (wOp w = 3 → pairOk (aFmt w) (aFmt2 w) = false → exec (.amul n) s = .next (u.tileFault n cFormatPair 0)) ∧
      (wOp w = 4 → 0 < aM w → rowsEnd base (aM w) (outBytes (wordW x w) (aFmt w)) (isMx (aFmt w)) ≤ 6144 →
        (x.arr a).drain.full b = false → ∀ q c0 : Nat, q = drainBeats (wordW x w) (aFmt w) →
        c0 = (x.arr a).drain.startOf b (b + 1) →
        exec (.adrain n) s = .next (u.setTile n ((({ x with
          drains := x.drains ++ (List.range (aM w)).map fun i =>
            {
              beat := c0 + i * q, arr := a, grp := g, fmt := aFmt w, rnd := aRnd w, zero := aZero w,
              row := (aRow w + i) % 128, outByte := 64 * base + i * outBytes (wordW x w) (aFmt w),
              scaleByte := 64 * (base + (aM w * outBytes (wordW x w) (aFmt w) + 63) / 64) + i,
              scaleBeat := c0 + aM w * q + 8, issue := b } } : Tile).setArr a
          { x.arr a with drain := (x.arr a).drain.enter b (b + 1) (aM w * q - 1) }).advance 1))) ∧
      (wOp w = 5 → 0 < aM w → (x.arr a).drain.full b = false →
        exec (.azero n) s = .next (u.setTile n ((({ x with
          pend := x.pend ++ (List.range (aM w)).map fun i =>
            {
              land := (x.arr a).drain.startOf b (b + 1) + i, issue := b,
              act := .accZero a ((aRow w + i) % 128) (wordCol x w) (wordW x w) } } : Tile).setArr a
          { x.arr a with drain := (x.arr a).drain.enter b (b + 1) (aM w - 1) }).advance 1))) ∧
      (aM w = 0 →
        (wOp w = 3 → pairOk (aFmt w) (aFmt2 w) = true → exec (.amul n) s = .next (u.setTile n (x.advance 1))) ∧
        (wOp w = 4 → exec (.adrain n) s = .next (u.setTile n (x.advance 1))) ∧
        (wOp w = 5 → exec (.azero n) s = .next (u.setTile n (x.advance 1))))) ∧
    (∀ (x0 x : Tile) (p : Pend) (a r c : Nat) (o : Bool) (ts : List (List Term)), p.act = .acc a r c o ts →
      ∀ j : Nat, ((Tile.land x0 x p).arr a).acc.look 0 j =
        if 32 * r + c ≤ j ∧ j < 32 * r + c + ts.length
        then accumulate o ((x0.arr a).acc.look 0 j) (ts.getD (j - (32 * r + c)) []) else (x.arr a).acc.look 0 j)

/-- When a tile issues a well-formed XOUT or XIN of COUNT ≥ 1 lines whose last line lies below 6,144 and whose pipe is not
full, XOUT only adds the read of line i at its start beat plus i, for the router under TAG, enters its pipe for COUNT
beats and goes on in sequence; XIN only adds the capture of line i at its start beat plus i, enters its pipe for COUNT
beats and goes on in sequence. With COUNT 0 the word only goes on. A last line of 6,144 or more faults with
ADDR_RANGE, a full pipe with PIPE_OVERRUN. A line that the port delivers for the router is put on the Local input 7
beats after the port's beat. -/
def Obligations.TransferWords : Prop :=
  (∀ (s u : State) (n : Nat) (w : Dword) (x : Tile) (b : Nat), Issuing s n w u → wCls w = 3 → x = u.tile n → b = x.beat →
      transferOk w = true →
      (xCount w = 0 → (wOp w = 0 → exec (.xout n) s = .next (u.setTile n (x.advance 1))) ∧
        (wOp w = 1 → exec (.xin n) s = .next (u.setTile n (x.advance 1)))) ∧
      (0 < xCount w → ∀ line : Nat → Nat, line = (fun i => (x.sreg (xSa w)).toNat + xLine w + i * xStride w) →
        (line (xCount w - 1) < 6144 →
          (wOp w = 0 → x.xout.full b = false → exec (.xout n) s = .next (u.setTile n { x.advance 1 with
            rds := x.rds ++ (List.range (xCount w)).map fun i =>
              { beat := x.xout.startOf b (b + 1) + i, code := 0, line := line i, issue := b, dest := .xout (xTag w) },
            xout := x.xout.enter b (b + 1) (xCount w - 1) })) ∧
          (wOp w = 0 → x.xout.full b = true → exec (.xout n) s = .next (u.tileFault n cPipeOverrun 0)) ∧
          (wOp w = 1 → x.xin.full b = false → exec (.xin n) s = .next (u.setTile n { x.advance 1 with
            caps := x.caps ++ (List.range (xCount w)).map fun i => (x.xin.startOf b (b + 1) + i, line i),
            xin := x.xin.enter b (b + 1) (xCount w - 1) })) ∧
          (wOp w = 1 → x.xin.full b = true → exec (.xin n) s = .next (u.tileFault n cPipeOverrun 0))) ∧
        (6144 ≤ line (xCount w - 1) → (wOp w = 0 → exec (.xout n) s = .next (u.tileFault n cAddrRange 0)) ∧
          (wOp w = 1 → exec (.xin n) s = .next (u.tileFault n cAddrRange 0))))) ∧
    (∀ (x : Tile) (q : RdReq) (v : Line) (tag : BitVec 16), q.dest = .xout tag →
      x.deliver q v = { x with outq := x.outq ++ [(x.beat + 7, v, tag)] })

/-- When a tile issues a well-formed token word, the command completes, and only this changes. TARR of a member whose
group is not outstanding sends ARRIVE with the present beat to the hen, marks the group outstanding and goes on; of a
tile that is no member it records the error MEMBER, of one whose group is outstanding the error DOUBLE_ARRIVE, at the
hen, and goes on. TWAIT goes on into WAITING for the group, with its limit and no tick passed. TSYNC does what TARR
does, and waits. TPHASE goes on with the new phase id and sends PHASE with it to the hen; at a norm point of a tile
with a norm index it then sends the pairs written since the last report, in ascending tag order, and the end of the
report, and leaves the zeroing of those accumulators pending. TRAISE faults the tile with SW_FAULT and its code. A
word that is not well formed faults with INVALID_OP. -/
def Obligations.TokenWords : Prop :=
  ∀ (s u : State) (n : Nat) (w : Dword) (x y : Tile) (r : Nat), Issuing s n w u → wCls w = 4 → x = u.tile n → r = regionOf n →
    y = { x.advance 1 with
      st := .waiting, wait := some { pc := x.pc, group := kGroup w, limit := bits w 19 0, ticks := 0 } } →
    (tokenOk w = true →
      (n ∈ u.members r (kGroup w) → kGroup w ∉ x.outst → ∀ k : Token,
        k = tileToken u n 1 0 (kGroup w) (payOf x.beat 0 (u.region r).ctl.runGen.toNat) →
        (wOp w = 0 → exec (.tarr n) s =
          .next ((u.setTile n { x.advance 1 with outst := kGroup w :: x.outst }).fly (.hen r) k)) ∧
        (wOp w = 2 → exec (.tsync n) s = .next ((u.setTile n { y with outst := kGroup w :: x.outst }).fly (.hen r) k))) ∧
      (∀ e : Nat, (n ∉ u.members r (kGroup w) ∧ e = 5) ∨ (n ∈ u.members r (kGroup w) ∧ kGroup w ∈ x.outst ∧ e = 1) →
        (wOp w = 0 → exec (.tarr n) s = .next ((u.henError r e n x.beat false).setTile n (x.advance 1))) ∧
        (wOp w = 2 → exec (.tsync n) s = .next ((u.henError r e n x.beat false).setTile n y))) ∧
      (wOp w = 1 → exec (.twait n) s = .next (u.setTile n y)) ∧
      (wOp w = 3 → u.isNormPoint r (bits w 7 0) = false ∨ x.normIndex = none →
        exec (.tphase n) s = .next ((u.setTile n { x.advance 1 with phase := bits w 7 0 }).fly (.hen r)
          (tileToken u n 6 0 0 (BitVec.ofNat 96 (bits w 7 0))))) ∧
      (wOp w = 3 → u.isNormPoint r (bits w 7 0) = true → ∀ i g : Nat, x.normIndex = some i →
        g = (u.region r).ctl.runGen.toNat → ∀ tags : List Nat, tags = ((List.range 256).filter fun k => x.normNew.contains k) →
        exec (.tphase n) s = .next { u.setTile n { x.advance 1 with
            phase := bits w 7 0,
            pend := x.pend ++ [{ land := x.beat, issue := x.beat, act := .normZero tags }] } with
          flight := u.flight ++ [(.hen r, tileToken u n 6 0 0 (BitVec.ofNat 96 (bits w 7 0)))] ++
            (tags.map fun k => (.hen r, tileToken u n 7 0 k
              (normPay (x.norms.look 0 (2 * k)) (x.norms.look 0 (2 * k + 1)) i (bits w 7 0) g))) ++
            [(.hen r, tileToken u n 7 1 0 (normPay 0 0 i (bits w 7 0) g))] }) ∧
      (wOp w = 4 → exec (.traise n) s = .next (u.tileFault n cSwFault (w.extractLsb' 0 16)))) ∧
    (tokenOk w = false → ∀ c : Instr, (wOp w = 0 ∧ c = .tarr n) ∨ (wOp w = 1 ∧ c = .twait n) ∨ (wOp w = 2 ∧ c = .tsync n) ∨
        (wOp w = 3 ∧ c = .tphase n) ∨ (wOp w = 4 ∧ c = .traise n) →
      exec c s = .next (u.tileFault n cInvalidOp 0))

/-- Each completes, and only this changes. In a region that is not held, PIPE_PENDING_START of any pipe of the tile,
B-load, multiply group, drain, vector memory, XOUT or XIN, makes the pending command whose start beat has come the
running one, and none pending. A waiting tile whose limit in ticks has passed faults with BARRIER_TIMEOUT, the word
that began the wait being the faulting one. A waiting tile whose latched resume beat has come, within its limit and
not before the beat after its wait began, runs on and issues in that beat, its latch for the group empty. -/
def Obligations.TileEvents : Prop :=
  ∀ (s : State) (n : Nat) (x : Tile), n < 20000 → x = s.tile n →
    ((s.region (regionOf n)).ctl.held = false → ∀ (q : PipeId) (c : PipeCmd), (x.pipe q).wait = some c → c.start ≤ x.beat →
      exec (.pipePendingStart n q) s = .next (s.setTile n (x.setPipe q { run := some c, wait := none }))) ∧
    (∀ v : Wait, x.st = .waiting → x.wait = some v → 0 < v.limit → v.limit ≤ v.ticks → s.stopped (regionOf n) = false →
      exec (.barrierTimeout n) s = .next ((s.setTile n { x with pc := v.pc }).tileFault n cBarrierTimeout 0)) ∧
    (∀ v : Wait, x.st = .waiting → x.wait = some v → s.stopped (regionOf n) = false → 0 < x.latch.look 0 v.group →
      x.latch.look 0 v.group ≤ x.beat + 1 → x.nextIssue ≤ x.beat → (v.limit = 0 ∨ v.ticks < v.limit) →
      exec (.resumeIssue n) s = .next (s.setTile n { x with
        st := .running, wait := none, nextIssue := x.beat, latch := x.latch.drop v.group }))

/-- In an assigned region whose clock runs and whose announced run-start beat has come, with an image loaded and its
partition starting or running, RUN_START_BEAT completes: in a region that does not lead, the run opens in the region
and nothing else changes; in the lead region, the run opens, the partition is RUNNING with the device time as its
start time and no norm report begun, each IDLE channel that the image describes is ACTIVE from its SEQ base with no
pass taken, and the RUN_START command that waits completes with the run number and the start time. When a run opens in
a region, its hen has the run open and the partition's tables in effect at schedule beat 0, not held, with no reason,
announcement or barrier left; its phase is 0 and its learned currents are seeded from the image; each router of the
region has bank 0 active on its partition-owned outputs and one P swap more counted; each owned tile of the region
starts; no other tile, router or region changes, nor the stacks' memory, the controller, the partitions or the tokens
in flight. A starting tile is RUNNING at PC 0 and beat 0 with every S and V register and norm accumulator zero, no
active loop and no outstanding barrier; its program, scratchpad and seed are as loaded, and its generator is the seed,
or 1 for seed 0 (in Sela mode, of its low 32 bits). -/
def Obligations.RunOpens : Prop :=
  (∀ (s u v : State) (r p k : Nat) (i : Image), r < 40 → (s.region r).clk.on = true → (s.region r).ctl.atStart = some k →
      k ≤ (s.region r).clk.count → (s.region r).ctl.assigned = true → p = (s.region r).ctl.part → (s.part p).img = some i →
      ((s.part p).st = .starting ∨ (s.part p).st = .running) → u = s.openRegion p r i →
      v = (forAll ((i.channels.map (·.chan)).filter fun c => (u.chan c).part = p && (u.chan c).st == .idle)
        (u.modPart p fun y => { y with st := .running, startTime := u.stampIn r, startCid := none, norm := [] })
        fun c w => w.modChan c fun y => { y with
          st := .active, next := y.seqBase, done := y.seqBase - 1, passes := [], ops := [], seen := [] }) →
      ((s.region r).ctl.lead = false → exec (.runStartBeat r) s = .next u) ∧
      ((s.region r).ctl.lead = true → (s.part p).startCid = none → exec (.runStartBeat r) s = .next v) ∧
      (∀ cid, (s.region r).ctl.lead = true → (s.part p).startCid = some cid →
        exec (.runStartBeat r) s = .next (v.finish (p + 1) { doneWith (BitVec.ofNat 16 cid) 0 0 with
          result := (s.part p).runNo.setWidth 64, info := u.stampIn r }))) ∧
    (∀ (s u : State) (r p : Nat) (i : Image), r < 40 → u = s.openRegion p r i →
      u.region r = { s.region r with
        ctl := { (s.region r).ctl with
          run := true, tables := true, sched := 0, posBase := 0, held := false, hstate := .running, reasons := 0,
          atStart := none, atHold := none, atResume := none, atPSwap := none, bars := [] }
        pwr := { (s.region r).pwr with phase := 0, learn := learnStart i r, learnOn := true } } ∧
      (∀ q, q ≠ r → u.region q = s.region q) ∧
      (∀ n, n < 20000 → u.tile n = if n ∈ (s.part p).owned ∧ regionOf n = r
        then (s.tile n).start (i.flags.getLsbD 0) (i.flags.getLsbD 1) else s.tile n) ∧
      (∀ n, n < 20000 → regionOf n = r → u.router n = { s.router n with
        active := ([0, 1, 2, 3, 4] : List Nat).foldl (fun a o => if (s.router n).transit o then a else clearBit a o)
          (s.router n).active
        pSwaps := ((s.router n).pSwaps + 1) % 65536 }) ∧
      (∀ n, n < 20000 → regionOf n ≠ r → u.router n = s.router n) ∧
      u.hbm = s.hbm ∧ u.mgt = s.mgt ∧ u.parts = s.parts ∧ u.flight = s.flight ∧ u.pages = s.pages ∧ u.host = s.host) ∧
    ∀ (x : Tile) (sela audit : Bool), (x.start sela audit).st = .running ∧ (x.start sela audit).pc = 0 ∧ (x.start sela audit).beat = 0 ∧
      (∀ k, (x.start sela audit).sreg k = 0) ∧ (∀ k, (x.start sela audit).vreg k = 0) ∧ (x.start sela audit).norms = [] ∧
      (x.start sela audit).loops = [] ∧ (x.start sela audit).outst = [] ∧ (x.start sela audit).prog = x.prog ∧
      (x.start sela audit).sp = x.sp ∧ (x.start sela audit).seed = x.seed ∧
      (x.start sela audit).gen = genSeed sela x.seed ∧ genSeed false x.seed = (if x.seed = 0 then 1 else x.seed)

/-- RUN_COMPLETE: when every region of a RUNNING partition has its run open and every owned tile is HALTED with empty
pipes or FAULTED, none in a dark region, every region closes, the run is over with REASON 0, and the partition is
EMPTY if it has nothing left to scrub. END_BEAT: when the announced end beat of a region has passed, the region
closes, with those that can no longer reach their end beat; with the last open region the run is over with the
announced REASON. A region that closes has no run, tables or hold and no announcement, and its owned tiles are in
SCRUB with every pipe empty; the stacks' memory, the host's memory and the partitions are as before. A run that is
over leaves its partition ENDING with the REASON and the dump status that holds. SCRUB_COMPLETE makes a dumped tile of
a region that is not dark IDLE, everything of it zero or at its reset value but its test registers, error counts and
selections. DUMP_COMPLETE that succeeds writes the tile's dump at its place in the window, where the window is
registered, and lets the zeroing of the tile begin; one that fails lets the zeroing of every tile of the run begin and
shows dump status 4. -/
def Obligations.RunEnds : Prop :=
  (∀ (s : State) (p : Nat), p < 16 → (s.part p).st = .running → (∀ r ∈ s.partRegions p, (s.region r).ctl.run = true) →
      (∀ n ∈ (s.part p).owned, (s.tile n).finished = true ∧ (s.region (regionOf n)).dark = false) →
      exec (.runComplete p) s = .next (((forAll (s.partRegions p) s fun r u =>
        u.closeRegion p r (s.dumpStatus p = 1)).closeRun p 0).emptied p)) ∧
    (∀ (s u : State) (r p k reason : Nat), r < 40 → (s.region r).ctl.atStop = some (k, reason) →
      k < (s.region r).clk.count → (s.region r).ctl.run = true → p = (s.region r).ctl.part →
      u = (s.closeRegion p r (s.dumpStatus p = 1)).closeStopped p (s.dumpStatus p = 1) →
      exec (.endBeat r) s = .next (if (u.openRegions p).isEmpty then (u.closeRun p reason).emptied p else u)) ∧
    (∀ (s : State) (p r : Nat) (d : Bool), ((s.closeRegion p r d).region r).ctl = { (s.region r).ctl with
        run := false, tables := false, held := false, hstate := .running, reasons := 0, atStart := none, atStop := none,
        atHold := none, atResume := none, atPSwap := none } ∧
      (∀ n ∈ (s.part p).owned, regionOf n = r → (s.tile n).st ≠ .scrub →
        ((s.closeRegion p r d).tile n).st = .scrub ∧ ((s.closeRegion p r d).tile n).pend = [] ∧
        ((s.closeRegion p r d).tile n).rds = [] ∧ ((s.closeRegion p r d).tile n).wrs = [] ∧
        ((s.closeRegion p r d).tile n).entries = [] ∧ ((s.closeRegion p r d).tile n).drains = []) ∧
      (s.closeRegion p r d).hbm = s.hbm ∧ (s.closeRegion p r d).host = s.host ∧ (s.closeRegion p r d).parts = s.parts) ∧
    (∀ (s : State) (p k : Nat), ((s.closeRun p k).part p).st = .ending ∧ ((s.closeRun p k).part p).endReason = k ∧
      ((s.closeRun p k).part p).dump = s.dumpStatus p) ∧
    (∀ (s : State) (n : Nat), n < 20000 → (s.tile n).st = .scrub → (s.tile n).dumped = true →
      (s.region (regionOf n)).dark = false →
      exec (.scrubComplete n) s = .next ((s.setTile n { ({} : Tile) with
        arrays := scrubbedArrays, psSel := (s.tile n).psSel, psCorr := (s.tile n).psCorr, test := (s.tile n).test
        spr := { corr := (s.tile n).spr.corr, uncorr := (s.tile n).spr.uncorr, lineSel := (s.tile n).spr.lineSel, enabled := (s.tile n).spr.enabled } }).emptied
          (s.region (regionOf n)).ctl.part)) ∧
    (∀ (s : State) (n p : Nat), n < 20000 → p = (s.region (regionOf n)).ctl.part → (s.tile n).st = .scrub →
      (s.tile n).dumped = false → (s.part p).st = .ending → (s.part p).dump = 1 →
      (s.region (regionOf n)).dark = false →
      (∀ base len, (s.fn (p + 1)).windows.look none (s.part p).dumpWindow = some (base, len) →
        exec (.dumpComplete n true) s = .next ({ s with
          host := writeBytes s.host (base + 471040 * (s.part p).rankOf n) (s.dumpBytes n (s.part p).endReason)
          }.setTile n { s.tile n with dumped := true })) ∧
      ((s.fn (p + 1)).windows.look none (s.part p).dumpWindow = none →
        exec (.dumpComplete n true) s = .next (s.setTile n { s.tile n with dumped := true })) ∧
      ∀ left : List Nat, left = ((s.part p).owned.filter fun t => (s.tile t).st == .scrub && !(s.tile t).dumped) →
        n ∈ left → exec (.dumpComplete n false) s = .next ((forAll left s fun t u =>
          u.modTile t fun y => { y with dumped := true }).modPart p fun y => { y with dump := 4 }))

/-- A permitted write of FLUSH to a fault queue, the export queue or a norm ring empties it, its read pointer at the write
pointer, with the holding register, the sticky bits and the drop count as they were, and changes nothing else. A
permitted write of FLUSH to an ox queue or a fabric queue that holds nothing changes nothing; to one that holds
requests it empties it so, adds the entries it held to the queue's freed total modulo 2^32 with a CREDIT token that
carries the total, for an ox queue to the die of the first request's asker and for a fabric queue to its die, and at
an ox queue each discarded request of this module is asked for again. A permitted write of POP to the export queue or
a norm ring takes the head item into the holding register and moves the read pointer by its length, and changes
nothing else; on an empty queue it sets UNDERRUN alone. What a producer stores either fits whole at the end, or is
discarded, sets OVERFLOW and is counted in DROPS, which saturates. -/
def Obligations.QueueRegisters : Prop :=
  (∀ (s : State) (w : Party) (v : Dword), v = 1 →
      (∀ r, r < 40 → Permitted s w (.rgn r) 0x610 v → (s.oneBits w (.rgn r) 0x610).getLsbD 0 = true →
        exec (.flush w (.fault r)) s = .next (s.modRegion r fun x => { x with faults := x.faults.flush })) ∧
      (Permitted s w .mgt 0x48 v → (s.oneBits w .mgt 0x48).getLsbD 0 = true →
        exec (.flush w .cper) s = .next (s.modMgt fun m => { m with cperq := m.cperq.flush })) ∧
      (∀ p, p < 16 → Permitted s w (.page (p + 1)) 0x48 v → (s.oneBits w (.page (p + 1)) 0x48).getLsbD 0 = true →
        exec (.flush w (.norm p)) s = .next (s.modPart p fun x => { x with normq := x.normq.flush })) ∧
      (∀ x, x < 16 → Permitted s w (.edg x) 0x58 v → (s.oneBits w (.edg x) 0x58).getLsbD 0 = true →
        ((s.site x).oxq.items = [] → exec (.flush w (.ox x)) s = .next s) ∧
        (∀ i l, (s.site x).oxq.items = i :: l → exec (.flush w (.ox x)) s = .next ((i :: l).foldl
          (fun u k => u.askAgain (headOf k)) ((s.modSite x fun y => { y with oxq := y.oxq.flush }).freed x
            (s.site x).oxq.used (askerDie (headOf i)))))) ∧
      (∀ p d k, p < 48 → d = p / 12 → k = p % 12 → Permitted s w (.die d) (0x108 + 16 * k) v →
        (s.oneBits w (.die d) (0x108 + 16 * k)).getLsbD 0 = true → ∀ q : GQueue, q = (s.iod d).fq.look { n := 9 } k →
        (q.items = [] → exec (.flush w (.fabric p)) s = .next s) ∧
        (q.items ≠ [] → exec (.flush w (.fabric p)) s =
          .next ((s.modIod d fun x => { x with fq := x.fq.put { n := 9 } k q.flush }).freed (0x100 + p) q.used d)))) ∧
    (∀ (s : State) (w : Party) (v : Dword), v = 2 →
      (Permitted s w .mgt 0x48 v → (s.oneBits w .mgt 0x48).getLsbD 1 = true →
        exec (.pop w .cper) s = .next (s.modMgt fun m => { m with cperq := m.cperq.pop })) ∧
      (∀ p, p < 16 → Permitted s w (.page (p + 1)) 0x48 v → (s.oneBits w (.page (p + 1)) 0x48).getLsbD 1 = true →
        exec (.pop w (.norm p)) s = .next (s.modPart p fun x => { x with normq := x.normq.pop }))) ∧
    (∀ (s : State) (key n d total : Nat), total = (s.ringFreed.look 0 key + n) % 2 ^ 32 →
      s.freed key n d = { s with
        ringFreed := s.ringFreed.put 0 key total
        flight := s.flight ++ [(.iod d, { cls := 3, kind := 0, group := 0, scope := 1, part := 0, pay := pack [(0, key), (16, total)], src := BitVec.ofNat 6 (if key < 256 then 40 + key else 56 + (key - 256) / 12) })] }) ∧
    (∀ q : GQueue, q.flush = { q with items := [], rptr := q.wptr }) ∧
    (∀ (q : GQueue) (i : List Line) (l : List (List Line)), q.items = i :: l →
      q.pop = { q with items := l, hold := i, rptr := (q.rptr + i.length) % 2 ^ (q.n + 1) }) ∧
    (∀ q : GQueue, q.items = [] → q.pop = { q with underrun := true }) ∧
    ∀ (q : GQueue) (i : List Line), q.push i = if q.used + i.length ≤ 2 ^ q.n
      then { q with items := q.items ++ [i], wptr := (q.wptr + i.length) % 2 ^ (q.n + 1) }
      else { q with overflow := true, drops := min (q.drops + 1) 65535 }

/-- A permitted write of RTR_ST_DATA, RTR_PERIOD, RTR_SLACK or T_OUT completes as the checked write of what it gives,
which changes the one router alone. A slot-table write whose changed fields, of the outputs that the writer owns, are
all valid, confined and of a bank that is not active puts them into the selected bank at the selected position, the
other fields of the entry as they were, and shows LAST 0; else, refused, it changes no entry and shows LAST 3 where a
changed field is invalid, else 4 where one is not confined, else 1. A write of periods is taken, with LAST 0, where
each is 1 to 512 and none that changes is of a bank active for an output of its kind; else it is refused with LAST 3
where a changed one is out of range, else 1. Slack is taken outside a run, and refused with LAST 5 in one if it
changes. Transit outputs are taken where no region on either side of a changed one has an image, else refused with
LAST 2. A refusal sets the sticky bit and counts, and changes nothing else. -/
def Obligations.RouterRegisters : Prop :=
  (∀ (s : State) (w : Party) (n : Nat) (v : Dword), n < 20000 →
      (Permitted s w (.tile n) 0x120 v → s.rwBits w (.tile n) 0x120 ≠ 0 → exec (.rtrStData w n v) s =
        .next (s.writeSlot n (s.mayOwn w (.tile n)) (s.mayFm w) (s.taken w (.tile n) 0x120 v))) ∧
      (Permitted s w (.tile n) 0x108 v → s.rwBits w (.tile n) 0x108 ≠ 0 →
        exec (.rtrPeriod w n v) s = .next (s.writePeriods n (s.taken w (.tile n) 0x108 v))) ∧
      (Permitted s w (.tile n) 0x130 v → s.rwBits w (.tile n) 0x130 ≠ 0 →
        exec (.rtrSlack w n v) s = .next (s.writeSlack n (s.taken w (.tile n) 0x130 v))) ∧
      (Permitted s w (.tile n) 0x100 v → s.rwBits w (.tile n) 0x100 ≠ 0 →
        exec (.tOut w n v) s = .next (s.writeTOut n ((s.taken w (.tile n) 0x100 v).extractLsb' 0 4)))) ∧
    (∀ (s : State) (n : Nat) (part fm : Bool) (v : Dword) (x : Router) (cur : Dword) (ch : Nat → Prop), x = s.router n →
      cur = (x.bank x.selBank).look 0 x.selPos.toNat →
      ch = (fun o => o < 5 ∧ (if x.transit o then fm else part) = true ∧ entryField v o ≠ entryField cur o) →
      ∀ good inside free : Nat → Prop,
      good = (fun o => x.validField (fun i => s.inTransit n (dirOf i)) o (entryField v o) = true) →
      inside = (fun o => x.transit o = true ∨ s.confined n o (entryField v o) = true) →
      free = (fun o => s.bankActive n o x.selBank = false) →
      ((∀ o, ch o → good o ∧ inside o ∧ free o) → ∃ e : Dword,
        s.writeSlot n part fm v = s.setRouter n (if x.selBank
          then { x with bank1 := x.bank1.put 0 x.selPos.toNat e, last := 0 }
          else { x with bank0 := x.bank0.put 0 x.selPos.toNat e, last := 0 }) ∧
        ∀ o, o < 5 → entryField e o = if (if x.transit o then fm else part) = true then entryField v o else entryField cur o) ∧
      (∀ code, ((∃ o, ch o ∧ ¬ good o) ∧ code = 3) ∨ ((∀ o, ch o → good o) ∧ (∃ o, ch o ∧ ¬ inside o) ∧ code = 4) ∨
          ((∀ o, ch o → good o ∧ inside o) ∧ (∃ o, ch o ∧ ¬ free o) ∧ code = 1) →
        s.writeSlot n part fm v = s.setRouter n { x with last := code, refused := true, count := min (x.count + 1) 65535 })) ∧
    (∀ (s : State) (n : Nat) (v : Dword) (x : Router), x = s.router n →
      ∀ now : List (Nat × Nat × Bool × Bool), now = [(x.pp0, bits v 9 0, false, false), (x.pp1, bits v 25 16, false, true),
        (x.tp0, bits v 41 32, true, false), (x.tp1, bits v 57 48, true, true)] →
      ((∀ q ∈ now, q.1 ≠ q.2.1 → 1 ≤ q.2.1 ∧ q.2.1 ≤ 512 ∧
          ∀ o, o < 5 → x.transit o = q.2.2.1 → s.bankActive n o q.2.2.2 = false) →
        s.writePeriods n v = s.setRouter n { x with
          pp0 := bits v 9 0, pp1 := bits v 25 16, tp0 := bits v 41 32, tp1 := bits v 57 48, last := 0 }) ∧
      (∀ code, ((∃ q ∈ now, q.1 ≠ q.2.1 ∧ ¬ (1 ≤ q.2.1 ∧ q.2.1 ≤ 512)) ∧ code = 3) ∨
          ((∀ q ∈ now, q.1 ≠ q.2.1 → 1 ≤ q.2.1 ∧ q.2.1 ≤ 512) ∧ (∃ q ∈ now, q.1 ≠ q.2.1 ∧
            ∃ o, o < 5 ∧ x.transit o = q.2.2.1 ∧ s.bankActive n o q.2.2.2 = true) ∧ code = 1) →
        s.writePeriods n v = s.setRouter n { x with last := code, refused := true, count := min (x.count + 1) 65535 })) ∧
    (∀ (s : State) (n : Nat) (v : Dword), s.writeSlack n v = s.setRouter n
      (if ((s.region (regionOf n)).ctl.assigned && s.running (s.region (regionOf n)).ctl.part) = true ∧
          ¬ ((s.router n).slackN = v.extractLsb' 0 6 ∧ (s.router n).slackE = v.extractLsb' 8 6 ∧
            (s.router n).slackS = v.extractLsb' 16 6 ∧ (s.router n).slackW = v.extractLsb' 24 6)
        then { s.router n with last := 5, refused := true, count := min ((s.router n).count + 1) 65535 }
        else { s.router n with
          slackN := v.extractLsb' 0 6, slackE := v.extractLsb' 8 6
          slackS := v.extractLsb' 16 6, slackW := v.extractLsb' 24 6, last := 0 })) ∧
    ∀ (s : State) (n : Nat) (v : BitVec 4) (used : Nat → Prop),
      used = (fun o => o < 4 ∧ (s.router n).tOut.getLsbD o ≠ v.getLsbD o ∧ (s.imageOn (regionOf n) = true ∨
        ∃ u, neighbour n (dirOf o) = some u ∧ s.imageOn (regionOf u) = true)) →
      ((∀ o, ¬ used o) → s.writeTOut n v = s.setRouter n { s.router n with tOut := v, last := 0 }) ∧
      ((∃ o, used o) → s.writeTOut n v = s.setRouter n { s.router n with
        last := 2, refused := true, count := min ((s.router n).count + 1) 65535 })

/-- A permitted write of HOST_HOLD or FM_HOLD completes as a hold request with reason HOST (bit 4) or FABRIC (bit 5) and
no beat at the hen, and of HOST_RESUME and FM_RESUME as the withdrawal of that reason. At a hen that does not lead or
has no run open neither changes anything. At a lead hen in a run a withdrawal clears the reason and changes nothing
else; a request where a hold is announced or held adds the reason and changes nothing else; where the schedule runs it
adds the reason and announces a hold 96 schedule beats on, and where it is about to resume 96 beats after the hold
beat. A PARTITION_SWAP_REQUEST of a running partition whose image swaps, its lead hen's run open, makes the lead hen
latch and announce P_SWAP at the beat asked for or, if later, 96 schedule beats on; a TRANSIT_SWAP_REQUEST of a
controller that is READY queues T_SWAP for the named regions at the beat asked for or, if later, 96 beats past the
largest region count; neither changes anything else. -/
def Obligations.HoldRegisters : Prop :=
  (∀ (s : State) (w : Party) (r : Nat), r < 40 →
      (Permitted s w (.rgn r) 0x220 1 → (s.oneBits w (.rgn r) 0x220).getLsbD 0 = true →
        exec (.hostHold w r) s = .next (s.holdRequest r 0 16)) ∧
      (Permitted s w (.rgn r) 0x220 2 → (s.oneBits w (.rgn r) 0x220).getLsbD 1 = true →
        exec (.hostResume w r) s = .next (s.resumeRequest r 16)) ∧
      (Permitted s w (.rgn r) 0x220 4 → (s.oneBits w (.rgn r) 0x220).getLsbD 2 = true →
        exec (.fmHold w r) s = .next (s.holdRequest r 0 32)) ∧
      (Permitted s w (.rgn r) 0x220 8 → (s.oneBits w (.rgn r) 0x220).getLsbD 3 = true →
        exec (.fmResume w r) s = .next (s.resumeRequest r 32))) ∧
    (∀ (s : State) (r k : Nat) (c : HenCtl), c = (s.region r).ctl →
      (c.lead = false ∨ c.run = false → s.holdRequest r 0 k = s ∧ s.resumeRequest r k = s) ∧
      (c.lead = true → c.run = true →
        s.resumeRequest r k = s.modCtl r (fun c => { c with reasons := c.reasons &&& ~~~ BitVec.ofNat 8 k }) ∧
        (c.hstate = .announced ∨ c.hstate = .held →
          s.holdRequest r 0 k = s.modCtl r fun c => { c with reasons := c.reasons ||| BitVec.ofNat 8 k }) ∧
        (∀ h, (c.hstate = .running ∧ h = c.sched + 96) ∨ (c.hstate = .resuming ∧ h = c.holdBeat + 96) →
          s.holdRequest r 0 k = (s.modCtl r fun c => { c with
            reasons := c.reasons ||| BitVec.ofNat 8 k, hstate := .announced, annHold := h, atHold := some h
            holdBeat := h }).announce r 0 h (c.reasons ||| BitVec.ofNat 8 k).toNat))) ∧
    (∀ (s : State) (p beat l b : Nat) (i : Image), p < 16 → s.leadOf p = some l → (s.part p).img = some i →
      s.running p = true → i.ownSwaps = true → (s.region l).ctl.run = true → b = max beat ((s.region l).ctl.sched + 96) →
      exec (.partitionSwapRequest p beat) s = .next ((s.modCtl l fun c => { c with atPSwap := some b }).announce l 2 b 0)) ∧
    ∀ (s : State) (regions : BitVec 40) (beat k : Nat), s.mgt.ready = true → (∀ r, r < 40 → (s.region r).clk.count ≤ k) →
      (∃ r, r < 40 ∧ (s.region r).clk.count = k) →
      exec (.transitSwapRequest regions beat) s =
        .next (s.mcQueue (mcToken 3 3 0 (payOf (max beat (k + 96)) regions.toNat 0)))

/-- A permitted write of FIXED, FIXED_MHZ or ILV completes as a write of MGT_MODE with that field changed: it is INVALID,
LAST_STATUS 1, unless FIXED_MHZ is a multiple of 25 from 600 to 1,200, else BUSY, LAST_STATUS 5, where ILV changes
while an image is loaded or a page is claimed or in hand-over, and so refused changes nothing else; else the three
fields are taken, a changed ILV sets the interleave, MODE_WAIT shows whether FIXED still waits, and LAST_STATUS is 0.
A permitted write of ACTIVATE, the controller READY, no activation running and the standby slot valid and acceptable,
begins the activation with the standby slot; not READY it shows NOT_READY 6, with one running or no valid standby
image BUSY 5, and with one that is not acceptable the activation has failed. A permitted cap write is answered, for
the host's cap and the fabric manager's alike: below the floor with 1 and the floor, above the input rating with 2 and
the rating, else with the cap and 3 in fixed-clock mode, 0 otherwise; 0 means no cap; the lower of the two caps that
are not 0 applies; nothing else changes. -/
def Obligations.ModeRegisters : Prop :=
  (∀ (s : State) (w : Party) (v : Dword),
      (∀ on, v = setField (s.mgtReg 0x20) 0 1 (b2n on) → Permitted s w .mgt 0x20 v → s.rwBits w .mgt 0x20 ≠ 0 →
        exec (.fixed w on) s = .next (s.writeMode (s.taken w .mgt 0x20 v))) ∧
      (∀ mhz, mhz < 2048 → v = setField (s.mgtReg 0x20) 4 11 mhz → Permitted s w .mgt 0x20 v → s.rwBits w .mgt 0x20 ≠ 0 →
        exec (.fixedMhz w mhz) s = .next (s.writeMode (s.taken w .mgt 0x20 v))) ∧
      (∀ on, v = setField (s.mgtReg 0x20) 1 1 (b2n on) → Permitted s w .mgt 0x20 v → s.rwBits w .mgt 0x20 ≠ 0 →
        exec (.ilv w on) s = .next (s.writeMode (s.taken w .mgt 0x20 v))) ∧
      (Permitted s w .mgt 0x18 1 → (s.oneBits w .mgt 0x18).getLsbD 0 = true → ∀ (m : Mgt) (q : FwSlot), m = s.mgt →
        q = m.slotOf (!m.slot) →
        (m.ready = true → m.act ≠ .running → q.valid = true → fwGood q.bytes = true →
          exec (.activate w) s = .next (s.modMgt fun m => { m with
            act := .running, actTime := m.nextTick, actLast := 0, slot := !m.slot, svn := Config.firmwareSvn q.bytes })) ∧
        (m.ready = false → exec (.activate w) s = .next (s.modMgt fun m => { m with actLast := 6 })) ∧
        (m.ready = true → m.act = .running ∨ q.valid = false →
          exec (.activate w) s = .next (s.modMgt fun m => { m with actLast := 5 })) ∧
        (m.ready = true → m.act ≠ .running → q.valid = true → fwGood q.bytes = false →
          exec (.activate w) s = .next (s.modMgt fun m => { m with act := .failed, actLast := 23 }))) ∧
      (∀ i watts, watts < 65536 → (i = Instr.hostCapW w watts ∧ v = setField (s.mgtReg 0x28) 0 16 watts) ∨
          (i = Instr.fmCapW w watts ∧ v = setField (s.mgtReg 0x28) 16 16 watts) → Permitted s w .mgt 0x28 v →
        ∀ a, a = (if (s.rwBits w .mgt 0x28).getLsbD 0 then s.mgt.writeCap true (bits (s.taken w .mgt 0x28 v) 15 0) else s.mgt) →
        exec i s = .next (s.modMgt fun _ => if (s.rwBits w .mgt 0x28).getLsbD 16
          then a.writeCap false (bits (s.taken w .mgt 0x28 v) 31 16) else a))) ∧
    (∀ (s : State) (v : Dword),
      (¬ (600 ≤ bits v 14 4 ∧ bits v 14 4 ≤ 1200 ∧ bits v 14 4 % 25 = 0) →
        s.writeMode v = s.modMgt fun m => { m with modeLast := 1 }) ∧
      (600 ≤ bits v 14 4 ∧ bits v 14 4 ≤ 1200 ∧ bits v 14 4 % 25 = 0 →
        ∀ used : Prop, used = ((∃ p, p < 16 ∧ (s.part p).img ≠ none) ∨ ∃ r ∈ s.pages, pgMode r.2 ≠ 0 ∨ pgPending r.2 = true) →
        (v.getLsbD 1 ≠ s.mgt.ilv → used → s.writeMode v = s.modMgt fun m => { m with modeLast := 5 }) ∧
        (v.getLsbD 1 = s.mgt.ilv ∨ ¬ used → s.writeMode v = s.modMgt fun m => { m with
          fixed := v.getLsbD 0, fixedMhz := bits v 14 4, ilv := v.getLsbD 1
          striped := if v.getLsbD 1 = m.ilv then m.striped else v.getLsbD 1
          modeWait := v.getLsbD 0 ≠ m.fixedOn, modeLast := 0 }))) ∧
    (∀ (m : Mgt) (watts st got : Nat),
      (watts ≠ 0 ∧ watts < m.floorW ∧ st = 1 ∧ got = m.floorW) ∨
      (m.floorW ≤ watts ∧ inputRating m.fuses < watts ∧ st = 2 ∧ got = inputRating m.fuses) ∨
      ((watts = 0 ∨ (m.floorW ≤ watts ∧ watts ≤ inputRating m.fuses)) ∧ st = (if m.fixedOn then 3 else 0) ∧ got = watts) →
      m.writeCap true watts = { m with
        hostCap := watts, hostStatus := st, hostApplied := got, appliedW := lowerCap got m.fmApplied } ∧
      m.writeCap false watts = { m with
        fmCap := watts, fmStatus := st, fmApplied := got, appliedW := lowerCap m.hostApplied got }) ∧
    ∀ a b : Nat, lowerCap a b = if a = 0 then b else if b = 0 then a else min a b

/-- A permitted write of EST_DATA or EST_PORT at an HBM site or an I/O die completes as the checked write of the selected
port of that edge, which changes the one edge alone. At a port that does not exist a write of 0 shows LAST 0 and
another LAST 3 (the model's choice, log entry 144). An entry that is the present one, or that is well formed, lies in
the share and is of a bank that is not active, is put at the selected position of the selected bank with LAST 0; else
no entry changes, and LAST is 3 where it is malformed, else 4 where its line lies outside the share, else 1. Periods
and steps are taken with LAST 0 where each changed period is 1 to 512 and no changed one belongs to an active bank;
else nothing is taken, and LAST is 3 where a changed period is out of range, else 1. -/
def Obligations.EdgeRegisters : Prop :=
  (∀ (s : State) (w : Party) (v : Dword),
      (∀ x, x < 16 → Permitted s w (.edg x) 0x78 v → s.rwBits w (.edg x) 0x78 ≠ 0 → exec (.edgEstData w x v) s =
        .next (s.writeEstData (.hbm x) ((s.taken w (.edg x) 0x78 v).extractLsb' 0 32))) ∧
      (∀ x, x < 16 → Permitted s w (.edg x) 0x80 v → s.rwBits w (.edg x) 0x80 ≠ 0 →
        exec (.edgEstPort w x v) s = .next (s.writeEstPort (.hbm x) (s.taken w (.edg x) 0x80 v))) ∧
      (∀ d, d < 4 → Permitted s w (.die d) 0x848 v → s.rwBits w (.die d) 0x848 ≠ 0 → exec (.iraEstData w d v) s =
        .next (s.writeEstData (.iod d) ((s.taken w (.die d) 0x848 v).extractLsb' 0 32))) ∧
      (∀ d, d < 4 → Permitted s w (.die d) 0x850 v → s.rwBits w (.die d) 0x850 ≠ 0 →
        exec (.iraEstPort w d v) s = .next (s.writeEstPort (.iod d) (s.taken w (.die d) 0x850 v)))) ∧
    (∀ (s : State) (e : EdgeId) (v : BitVec 32) (u : Dword) (g : Edge), g = s.edge e → edgePorts e ≤ g.estPort →
      s.writeEstData e v = s.setEdge e { g with last := if v = 0 then 0 else 3 } ∧
      s.writeEstPort e u = s.setEdge e { g with last := if u = 0 then 0 else 3 }) ∧
    (∀ (s : State) (e : EdgeId) (v : BitVec 32) (g : Edge) (y : EPort), g = s.edge e → y = g.ports.look {} g.estPort →
      g.estPort < edgePorts e → ∀ cur, cur = (if g.estBank then y.bank1 else y.bank0).look 0 g.estPos →
        (v = cur ∨ (edgeEntryOk e v = true ∧ eLine v < s.portLines e g.estPort ∧ s.edgeActive e y g.estPort g.estBank = false) →
          s.writeEstData e v = s.setEdge e { g with
            last := 0
            ports := g.ports.put {} g.estPort (if g.estBank then { y with bank1 := y.bank1.put 0 g.estPos v }
              else { y with bank0 := y.bank0.put 0 g.estPos v }) }) ∧
        (∀ code, v ≠ cur → (edgeEntryOk e v = false ∧ code = 3) ∨ (edgeEntryOk e v = true ∧ s.portLines e g.estPort ≤ eLine v ∧ code = 4) ∨
            (edgeEntryOk e v = true ∧ eLine v < s.portLines e g.estPort ∧ s.edgeActive e y g.estPort g.estBank = true ∧ code = 1) →
          s.writeEstData e v = s.setEdge e { g with last := code })) ∧
    ∀ (s : State) (e : EdgeId) (n : Nat) (v : Dword) (g : Edge) (y z : EPort), g = s.edge e → y = g.ports.look {} g.estPort →
      g.estPort < edgePorts e → ((∃ x, e = .hbm x) ∧ n = 17) ∨ ((∃ d, e = .iod d) ∧ n = 19) →
      z = { y with
        per0 := bits v 9 0, per1 := bits v 19 10, step0 := bits v (19 + n) 20, step1 := bits v (19 + 2 * n) (20 + n) } →
      ∀ good free : Prop, good = ((y.per0 = z.per0 ∨ (1 ≤ z.per0 ∧ z.per0 ≤ 512)) ∧ (y.per1 = z.per1 ∨ (1 ≤ z.per1 ∧ z.per1 ≤ 512))) →
      free = (((y.per0 = z.per0 ∧ y.step0 = z.step0) ∨ s.edgeActive e y g.estPort false = false) ∧
        ((y.per1 = z.per1 ∧ y.step1 = z.step1) ∨ s.edgeActive e y g.estPort true = false)) →
      (good → free → s.writeEstPort e v = s.setEdge e { g with last := 0, ports := g.ports.put {} g.estPort z }) ∧
      (¬ good → s.writeEstPort e v = s.setEdge e { g with last := 3 }) ∧
      (good → ¬ free → s.writeEstPort e v = s.setEdge e { g with last := 1 })

/-- A permitted write of DEV_ID completes: the present id and VALID again change nothing; others are refused, only
DEV_REFUSED set, while a port is UP; else the id and VALID are taken, the former own id is noted, the rewriting of the
page records begins where VALID is given, no READY port counts as having sent ADMIT, and the parent of the time tree
is chosen again. IRA_ROUTE puts the two ports of the selected device, and changes nothing where one is 48 to 62.
QUIESCE sets its bit alone; a changed GM_SELF sets its bit and the parent is chosen again. RETRAIN of the selected
port changes nothing where it is dark or retired, sends DEPART, drains it and looks its waiting packets up again where
it is UP, only asks for more where it is retraining, and else begins the retraining; the training is full where that
is asked or the port has no valid saved record. RETIRE of a port that is not UP makes it RETIRED and changes nothing
else of the module; of one that is UP it sends DEPART with reason RETIRE, leaves UP for RETIRED and the parent is
chosen again. FREEZE set stops the digest log's bank swap, and cleared lets a full bank swap, nothing else changing.
When the rewriting of the records ends, every claimed page's record that named a noted id names the own one, no id is
noted, and every port that waits for it is admitted. -/
def Obligations.FabricRegisters : Prop :=
  (∀ (s : State) (w : Party) (v : Dword),
      (Permitted s w (.die 0) 0x8 v → s.rwBits w (.die 0) 0x8 ≠ 0 → v.getLsbD 14 = false →
        exec (.devId w v) s = .next (s.writeDevId (s.taken w (.die 0) 0x8 v))) ∧
      (∀ d, d < 4 → Permitted s w (.die d) 0x50 v → s.rwBits w (.die d) 0x50 ≠ 0 →
        exec (.iraRoute w d v) s = .next (s.modIod d fun x => x.writeRoute (s.taken w (.die d) 0x50 v))) ∧
      (∀ d on, d < 4 → v = setField (s.iraReg d 0x10) 0 1 (b2n on) → Permitted s w (.die d) 0x10 v →
        (s.taken w (.die d) 0x10 v).getLsbD 1 = (s.iod d).gmSelf → exec (.quiesce w d on) s =
          .next (s.modIod d fun x => { x with quiesce := (s.taken w (.die d) 0x10 v).getLsbD 0 })) ∧
      (∀ on, v = setField (s.iraReg 0 0x10) 1 1 (b2n on) → Permitted s w (.die 0) 0x10 v →
        (s.taken w (.die 0) 0x10 v).getLsbD 1 ≠ (s.iod 0).gmSelf → exec (.gmSelf w on) s =
          .next (s.modIod 0 fun x => { x with
            quiesce := (s.taken w (.die 0) 0x10 v).getLsbD 0
            gmSelf := (s.taken w (.die 0) 0x10 v).getLsbD 1 }).chooseParent) ∧
      (∀ d p, d < 4 → (s.iod d).portSel.toNat < 12 → p = 12 * d + (s.iod d).portSel.toNat →
        (s.oneBits w (.die d) 0x30).getLsbD 0 = true →
        (s.oneBits w (.die d) 0x30).getLsbD 1 = true → (s.oneBits w (.die d) 0x30).getLsbD 2 = true →
        (∀ full, Permitted s w (.die d) 0x30 (pack [(0, 1), (1, b2n full)]) →
          exec (.retrain w d full) s = .next (s.startRetrain p full)) ∧
        (Permitted s w (.die d) 0x30 4 →
          ((s.port p).st ≠ .up → exec (.retire w d) s = .next (s.modPort p fun x => { x with
            st := .retired, draining := false, sentAdmit := false, gotAdmit := false })) ∧
          ((s.port p).st = .up → exec (.retire w d) s =
            .next (((s.sendLink p 5 3 0 0 0).leaveUp p .retired false).chooseParent)))) ∧
      (∀ on, v = setField (s.colReg 0 0x80038) 0 1 (b2n on) → Permitted s w (.die 0) 0x80038 v →
        s.rwBits w (.die 0) 0x80038 ≠ 0 → exec (.freeze w on) s =
          .next { s with dlog := s.dlog.setFreeze ((s.taken w (.die 0) 0x80038 v).getLsbD 0) })) ∧
    (∀ (s : State) (v : Dword),
      (v.extractLsb' 0 13 = s.mgt.devId → v.getLsbD 13 = s.mgt.devValid → s.writeDevId v = s) ∧
      (¬ (v.extractLsb' 0 13 = s.mgt.devId ∧ v.getLsbD 13 = s.mgt.devValid) →
        ((∃ p, p < 48 ∧ (s.port p).st = .up) → s.writeDevId v = s.modMgt fun m => { m with devRefused := true }) ∧
        ((∀ p, p < 48 → (s.port p).st ≠ .up) → s.writeDevId v =
          (forAll (List.range 48) (s.modMgt fun m => { m with
            devPrevs := (if m.devRewriting then m.devPrevs else []) ++ [m.ownId], devId := v.extractLsb' 0 13
            devValid := v.getLsbD 13, devRewriting := m.devRewriting || v.getLsbD 13 }) fun p u =>
              u.modPort p fun x => { x with sentAdmit := x.sentAdmit && x.st ≠ .ready }).chooseParent))) ∧
    (∀ (x : Iod) (v : Dword), x.writeRoute v = if (bits v 5 0 < 48 ∨ bits v 5 0 = 63) ∧ (bits v 13 8 < 48 ∨ bits v 13 8 = 63)
      then { x with route := x.route.put 0xFFF x.routeSel.toNat (pack [(0, bits v 5 0), (6, bits v 13 8)]) } else x) ∧
    (∀ (s : State) (p : Nat) (ask full : Bool), full = (ask || !s.portSaved p) →
      ((s.port p).st = .dark ∨ (s.port p).st = .retired → s.startRetrain p ask = s) ∧
      ((s.port p).st = .retraining → s.startRetrain p ask = s.modPort p fun x => { x with full := x.full || full }) ∧
      ((s.port p).st = .up → s.startRetrain p ask = ((s.port p).txq.foldl State.lookAgain
        ((s.sendLink p 5 2 0 0 0).modPort p fun x => { x with
          st := .retraining, full := full, draining := true, txq := [], sentAdmit := false, gotAdmit := false
          gmValid := false, departed := true })).chooseParent) ∧
      ((s.port p).st = .training ∨ (s.port p).st = .qualifying ∨ (s.port p).st = .ready ∨ (s.port p).st = .down →
        s.startRetrain p ask = s.modPort p fun x => { x with
          st := .retraining, full := full, sentAdmit := false, gotAdmit := false, failedQual := false, tail := [], frames := [] })) ∧
    (∀ (l : DigestLog), l.setFreeze true = { l with freeze := true } ∧
      (l.entries < 32768 → l.setFreeze false = { l with freeze := false }) ∧
      (32768 ≤ l.entries → l.setFreeze false = ({ l with freeze := false } : DigestLog).swap)) ∧
    ∀ s : State, s.mgt.devRewriting = true →
      exec .devidRewriteComplete s = .next (({ s with
        pages := s.pages.map fun r => if pgMode r.2 ≠ 0 ∧ pgDev r.2 ∈ s.mgt.devPrevs
          then (r.1, setField r.2 0 13 s.mgt.ownId) else r
        mgt := { s.mgt with devRewriting := false, devPrevs := [] } } : State).admitAll)

/-- BORDER_WORD_ARRIVAL of a word that has been sent into a router's border input whose link is not DOWN, for a
transit-owned input, or for a partition-owned one of a region whose run is announced or open, completes: the queue
expects the next number, the word is kept where its number lies from the one due now to 127 past it and is discarded
otherwise, and a number past that is an overrun, which sets the side's sticky bit, is counted and raises a TIMING
token of cause 2; nothing else changes. At an edge port the same holds in an open run, and an overrun raises the
edge's TIMING token alone. BORDER_WORD_LATE on an input that an applied field names and whose due word is late
completes: once a beat it sets LATE for its side, is counted, keeps the first beat and whether it was a transit-owned
input, and raises a TIMING token of cause 1; at an edge port whose entry is WRITE it raises the edge's TIMING token
once a beat and changes no register. -/
def Obligations.BorderWords : Prop :=
  (∀ (s u : State) (n a sent c : Nat) (side : Dir) (tr : Bool) (q : BorderQ × Bool), n < 20000 → allowance n side = some a →
      s.senderCount n side tr = some sent → ((s.router n).bq.look {} (bqKey side tr)).arrived < sent →
      s.linkDown n side = false → (tr = true ∨ (s.region (regionOf n)).ctl.receives = true) →
      c = (if tr then (s.region (regionOf n)).clk.count
        else if (s.region (regionOf n)).ctl.run then (s.region (regionOf n)).ctl.sched else 0) →
      q = ((s.router n).bq.look {} (bqKey side tr)).arrive (dueWord c a ((s.router n).slack side)) →
      u = s.modRouter n (fun y => { y with bq := y.bq.put {} (bqKey side tr) q.1 }) →
      exec (.borderWordArrival n side (if tr then .transit else .sched)) s = .next (if q.2 then
        (u.modRouter n fun y => { y with ovr := setBit y.ovr (dirNo side), overCount := min (y.overCount + 1) 65535 }).raise
          (regionOf n) 2 2 n c tr else u)) ∧
    (∀ (s u : State) (n p : Nat) (side : Dir) (e : EdgeId) (c : HenCtl) (q : BorderQ × Bool), n < 20000 →
      edgeOf n side = some (e, p) → c = (s.region (regionOf n)).ctl → c.run = true →
      ((s.edge e).ports.look {} p).bq.arrived < c.sched → s.linkDown n side = false →
      q = ((s.edge e).ports.look {} p).bq.arrive (s.edgeDue n side) →
      u = s.modEdge e (fun g => { g with ports := g.ports.put {} p { g.ports.look {} p with bq := q.1 } }) →
      exec (.borderWordArrival n side .edge) s =
        .next (if q.2 then u.raiseEdge e c.part c.runGen 2 2 c.sched false else u)) ∧
    (∀ (q : BorderQ) (now : Int), q.arrive now = ({ q with
        arrived := q.arrived + 1
        sent := q.sent.filter (fun w => w.1 ≠ q.arrived)
        held := q.held ++ (if now ≤ q.arrived ∧ (q.arrived : Int) ≤ now + 127
          then (q.sent.find? fun w => w.1 = q.arrived).toList else []) }, decide (now + 127 < q.arrived))) ∧
    (∀ (s : State) (n b k : Nat) (side : Dir) (tr : Bool) (x : Router), n < 20000 → side ≠ .l →
      (s.region (regionOf n)).planeOn = true → x = s.router n → tr = s.inTransit n side →
      namesInput (x.fields (s.region (regionOf n)).ctl (s.region (regionOf n)).clk.count) (dirNo side) = true →
      (s.input n side).2 = true →
      b = (if tr then (s.region (regionOf n)).clk.count else (s.region (regionOf n)).ctl.sched) →
      k = dirNo side + (if tr then 4 else 0) →
      exec (.borderWordLate n side false) s = .next (if (k, b) ∈ x.assessed then s else
        (s.setRouter n { x with
          late := setBit x.late (dirNo side), lateCount := min (x.lateCount + 1) 65535
          lateBeat := if x.lateValid then x.lateBeat else b
          lateTransit := if x.lateValid then x.lateTransit else tr, lateValid := true
          assessed := (k, b) :: x.assessed }).raise (regionOf n) 2 1 n b tr)) ∧
    ∀ (s : State) (n p : Nat) (side : Dir) (e : EdgeId) (c : HenCtl) (y : EPort), n < 20000 → edgeOf n side = some (e, p) →
      c = (s.region (regionOf n)).ctl → c.tables = true → c.held = false → ((s.edge e).shareOf c.part).isSome = true →
      y = (s.edge e).ports.look {} p → eOp y.entry = 2 →
      (y.bq.present (s.edgeDue n side) (s.linkDown n side)).2 = true →
      exec (.borderWordLate n side true) s = .next (if y.lateAt = some c.sched then s else
        (s.modEdge e fun g => { g with
          ports := g.ports.put {} p { y with lateAt := some c.sched } }).raiseEdge e c.part c.runGen 2 1 c.sched false)

/-- REGION_BEAT of a region whose clock runs and for which no announced action is due completes as one beat: in it the
region count advances by one, and the schedule count by one if its run is open and not held. PARTITION_SWAP_BEAT, its
announced beat passed in an open run, completes: the schedule count becomes the base of the partition's positions,
every router of the region takes the other bank for its partition-owned outputs and counts the swap, and every edge
port that faces the region and serves its partition takes its other bank at position and offset 0. TRANSIT_SWAP_BEAT
completes the same way on the region count for the routers that have a transit-owned output. ROUTER_PLANE_FEED_LOSS
completes with both feeds gone, the clock off and the plane entered among the lost; ROUTER_PLANE_FEED_RETURN completes
with the feed back, and starts a clock that was off in ACQUIRE; neither changes anything else. -/
def Obligations.RegionBeats : Prop :=
  (∀ (s : State) (r : Nat), r < 40 → (s.region r).clk.on = true → s.announcedDue r = false →
      exec (.regionBeat r) s = .next (s.beatOf r)) ∧
    (∀ (s : State) (r : Nat), ((s.beatOf r).region r).clk.count = (s.region r).clk.count + 1 ∧
      ((s.beatOf r).region r).ctl.sched = (s.region r).ctl.sched +
        (if (s.region r).ctl.run = true ∧ (s.region r).ctl.held = false then 1 else 0)) ∧
    (∀ (s u : State) (r w : Nat), r < 40 → (s.region r).ctl.atPSwap = some w → w < (s.region r).ctl.sched →
      (s.region r).ctl.run = true →
      u = s.modCtl r (fun c => { c with atPSwap := none, posBase := c.sched }) →
      exec (.partitionSwapBeat r) s = .next (((regionTiles r).foldl (fun u n => u.modRouter n fun x =>
        { x.swap false with pSwaps := (x.pSwaps + 1) % 65536 }) u).onPorts r fun _ p =>
          { p with active := !p.active, pos := 0, off := 0 })) ∧
    (∀ (s u : State) (r w : Nat), r < 40 → (s.region r).ctl.atTSwap = some w → w < (s.region r).clk.count →
      (s.region r).planeOn = true →
      u = s.modCtl r (fun c => { c with atTSwap := none, tBase := (s.region r).clk.count }) →
      exec (.transitSwapBeat r) s = .next ((regionTiles r).foldl (fun u n => u.modRouter n fun x =>
        if (∃ o ∈ ([0, 1, 2, 3] : List Nat), x.transit o = true) then { x.swap true with tSwaps := (x.tSwaps + 1) % 65536 } else x) u)) ∧
    (∀ (x : Router) (tr : Bool), x.swap tr = { x with active := (x.swap tr).active } ∧ ∀ o, o < 5 →
      (x.swap tr).active.getLsbD o = if x.transit o = tr then !x.active.getLsbD o else x.active.getLsbD o) ∧
    (∀ (s u : State) (r : Nat), r < 40 → u = s.modRegion r (fun x => { x with
        clk := { x.clk with on := false }, pwr := { x.pwr with feedOwn := false, feedNb := false } }) →
      exec (.routerPlaneFeedLoss r) s = .next (u.modUnits fun v => { v with
        planeLost := if r ∈ v.planeLost then v.planeLost else v.planeLost ++ [r] })) ∧
    ∀ (s : State) (r : Nat) (own : Bool), r < 40 → exec (.routerPlaneFeedReturn r own) s = .next (s.modRegion r fun x => { x with
      pwr := { x.pwr with feedOwn := x.pwr.feedOwn || own, feedNb := x.pwr.feedNb || !own }
      clk := if x.clk.on then x.clk else { x.clk with on := true, st := .acquire } })

/-- A heard ARRIVE completes: it is counted with the latest arrival beat, and when the region's members are in, its hen
reports. A heard REGION_DONE of a region of the group, at the hen of the bellwether's region, completes with that
region's completion collected. Collecting keeps one completion for each region; the last missing one ends the
collection, and RELEASE for the latest arrival beat plus the latency L goes to the members directly in a group of one
region, and by the express channel where the partition has other regions. A heard RELEASE at a member's node
completes: a complete hen's counts begin again and count the release, the member's group is no longer outstanding, and
its staggered resume beat is latched, the next beat where it has passed; a release beat that has passed is a control
error too. At a node of a region without members it completes with the hen's count of releases and the beat, and at a
node that is no member beside members it changes nothing. BELLWETHER_ELECTION, the plane of the bellwether's region
stopped, completes: the member with the next lowest id whose ROUTER_OK is set is the bellwether at every hen of the
partition whose plane works, and complete regions report again; with no such member nothing changes. -/
def Obligations.Barriers : Prop :=
  (∀ (s u : State) (r g n : Nat) (k : Token), Heard s r 1 0 k → g = k.group.toNat →
      n = ((s.members r g).filter fun t => regionOf t = r).length →
      u = (s.landed (.hen r) k).modBar r g (fun h => { h with
        arrived := h.arrived + 1, latest := max h.latest (nearBeat (s.region r).ctl.sched (tokBeat k)) }) →
      exec (.arrive r k) s = .next (if ((s.region r).ctl.bars.look {} g).arrived + 1 = n
        then (u.modBar r g fun h => { h with complete := true }).sendDone r g else u)) ∧
    (∀ (s : State) (r g b : Nat) (k : Token), Heard s r 1 1 k → g = k.group.toNat → s.bellwether r g = some b →
      regionOf b = r → k.src.toNat ∈ s.groupRegions r g → exec (.regionDone r k) s =
        .next ((s.landed (.hen r) k).collect r g k.src.toNat (nearBeat (s.region r).ctl.sched (tokBeat k)))) ∧
    (∀ (s u : State) (r g q beat p : Nat) (done : List (Nat × Nat)) (rs : List Nat) (k : Token),
      done = (((s.region r).ctl.bars.look {} g).done.filter fun d => d.1 ≠ q) ++ [(q, beat)] → rs = s.groupRegions r g →
      p = (s.region r).ctl.part →
      (¬ (∀ x ∈ rs, ∃ d ∈ done, d.1 = x) → s.collect r g q beat = s.modBar r g fun b => { b with done := done }) ∧
      ((∀ x ∈ rs, ∃ d ∈ done, d.1 = x) →
        k = s.henToken r 1 2 g 2 (payOf ((done.map (·.2)).foldl max 0 + barrierL rs) 0 (s.region r).ctl.runGen.toNat) →
        u = s.modBar r g (fun b => { b with done := [] }) →
        ∀ w, w = (if rs.length ≤ 1 then (s.members r g).foldl (fun u t => u.fly (.tile t) k) u else u) →
        s.collect r g q beat = if (s.partRegions p).length ≤ 1 then w else w.henQueue r k)) ∧
    (∀ (s u v : State) (n r g now b a : Nat) (k : Token), n < 20000 → r = regionOf n → k.cls = 1 → k.kind = 2 →
      (s.region r).planeOn = true → reservedToken k = false → (s.region r).ctl.isStale k = false → g = k.group.toNat →
      now = (s.region r).ctl.sched → b = nearBeat now (tokBeat k) →
      (n ∈ s.members r g →
        u = (s.landed (.tile n) k).modBar r g (fun h => if h.complete then { h with
          arrived := 0, latest := 0, complete := false, releases := (h.releases + 1) % 65536, bRel := b } else h) →
        v = (if b < now then u.henError r 0 n now false else u) →
        a = b + 4 * place (s.groupRegions r g) r + 8 * ((n % 200 + n / 200) % 4) →
        exec (.release n k) s = .next (v.modTile n fun x => { x with
          outst := x.outst.erase g, latch := x.latch.put 0 g ((if a < now then now + 1 else a) + 1) })) ∧
      ((∀ m ∈ s.members r g, regionOf m ≠ r) → exec (.release n k) s =
        .next ((s.landed (.tile n) k).modBar r g fun h => { h with releases := (h.releases + 1) % 65536, bRel := b })) ∧
      (n ∉ s.members r g → (∃ m ∈ s.members r g, regionOf m = r) → exec (.release n k) s = .next (s.landed (.tile n) k))) ∧
    ∀ (s : State) (p g l old : Nat), p < 16 → g < 4096 → s.leadOf p = some l → s.bellwether l g = some old →
      (s.region (regionOf old)).planeOn = false →
      ∀ next : Option Nat, next = leastTile ((s.members l g).filter fun t => old < t && s.routerOk t) →
      (next = none → exec (.bellwetherElection p g) s = .next s) ∧
      ∀ (new : Nat) (rs : List Nat) (u : State), next = some new →
        rs = (s.partRegions p).filter (fun r => (s.region r).planeOn) →
        u = rs.foldl (fun u r => u.modBar r g fun b => { b with bellwether := some new, done := [] }) s →
        exec (.bellwetherElection p g) s =
          .next ((rs.filter fun r => ((u.region r).ctl.bars.look {} g).complete).foldl (fun u r => u.sendDone r g) u)

/-- HOLD, RESUME, P_SWAP, T_SWAP, RUN_START and RUN_STOP that a hen hears complete: the hen latches the beat the token
carries, or the next beat where that has passed, which it also records as a control error at its present count, with a
CONTROL token. HOLD and P_SWAP count schedule beats, the others region beats. HOLD makes the state of the hold
ANNOUNCED unless it is held, RESUME makes it RESUMING where it is held; T_SWAP is latched in the regions it names, and
changes nothing in another; RUN_START opens the named RUNGEN, and one that the controller did not send counts as
stale; RUN_STOP carries its REASON. -/
def Obligations.Announcements : Prop :=
  ∀ (s u : State) (r : Nat) (k : Token), u = s.landed (.hen r) k →
    ∀ (n m b c : Nat), n = (s.region r).ctl.sched → m = (s.region r).clk.count →
      b = nearBeat n (tokBeat k) → c = nearBeat m (tokBeat k) →
    (Heard s r 2 0 k → ∀ v, v = u.modCtl r (fun q => { q with
        atHold := some (atLeast n b), holdBeat := atLeast n b, hstate := if q.held then q.hstate else .announced }) →
      exec (.hold r k) s = .next (if b < n then v.henError r 0 0x7FFF n false else v)) ∧
    (Heard s r 2 1 k → ∀ v, v = u.modCtl r (fun q => { q with
        atResume := some (atLeast m c), resumeBeat := atLeast m c, hstate := if q.held then .resuming else q.hstate }) →
      exec (.resume r k) s = .next (if c < m then v.henError r 0 0x7FFF m true else v)) ∧
    (Heard s r 2 2 k → ∀ v, v = u.modCtl r (fun q => { q with atPSwap := some (atLeast n b) }) →
      exec (.pSwap r k) s = .next (if b < n then v.henError r 0 0x7FFF n false else v)) ∧
    (Heard s r 2 3 k → ((tokArg k).testBit r = false → exec (.tSwap r k) s = .next u) ∧
      ((tokArg k).testBit r = true →
      ∀ v, v = u.modCtl r (fun q => { q with atTSwap := some (atLeast m c) }) →
      exec (.tSwap r k) s = .next (if c < m then v.henError r 0 0x7FFF m true else v))) ∧
    (Heard s r 2 4 k → (k.src ≠ 63 → exec (.runStartToken r k) s = .next (u.stale r)) ∧ (k.src = 63 →
      ∀ v, v = u.modCtl r (fun q => { q with atStart := some (atLeast m c), runGen := tokRunGen k }) →
      exec (.runStartToken r k) s = .next (if c < m then v.henError r 0 0x7FFF m true else v))) ∧
    (Heard s r 2 5 k → ∀ v, v = u.modCtl r (fun q => { q with atStop := some (atLeast m c, tokArg k % 8) }) →
      exec (.runStop r k) s = .next (if c < m then v.henError r 0 0x7FFF m true else v))

/-- HOLD_REQ and RESUME_REQ that a hen hears complete as the request, or the withdrawal, of the reasons they carry. At a
hen that does not lead or has no run open neither does anything; a withdrawal clears the reasons; a request while the
schedule runs adds them and announces HOLD for the requested beat or 96 beats ahead, whichever is later, with a
control error where a beat requested was earlier than that. HOLD_BEAT, the beat come in an open run that is not held,
completes: the schedule stops and the hold is counted; in a test pause a hen with nothing to test is done with it, and
another starts the tests. RESUME_ANNOUNCE of a lead hen held with no reason left completes with RESUME announced for
96 region beats ahead. RESUME_BEAT, the beat come and no announced end of the run before it, completes: the held
schedule goes on; a hold not yet taken does not take place, with a control error. -/
def Obligations.HoldRequestsAndBeats : Prop :=
  (∀ (s : State) (r : Nat) (k : Token), Heard s r 2 6 k → exec (.holdReq r k) s = .next ((s.landed (.hen r) k).holdRequest r
      (if tokBeat k = 0 then 0 else nearBeat (s.region r).ctl.sched (tokBeat k)) (tokArg k % 256))) ∧
    (∀ (s : State) (r : Nat) (k : Token), Heard s r 2 7 k →
      exec (.resumeReq r k) s = .next ((s.landed (.hen r) k).resumeRequest r (tokArg k % 256))) ∧
    (∀ (s u : State) (r h reasons n : Nat) (c : HenCtl), c = (s.region r).ctl →
      (c.lead = false ∨ c.run = false → s.holdRequest r h reasons = s ∧ s.resumeRequest r reasons = s) ∧
      (c.lead = true → c.run = true → s.resumeRequest r reasons =
        s.modCtl r fun c => { c with reasons := c.reasons &&& ~~~ BitVec.ofNat 8 reasons }) ∧
      (c.lead = true → c.run = true → c.hstate = .running → n = max h (c.sched + 96) →
        u = (s.modCtl r fun c => { c with
          reasons := c.reasons ||| BitVec.ofNat 8 reasons, hstate := .announced, annHold := n, atHold := some n
          holdBeat := n }).announce r 0 n (c.reasons ||| BitVec.ofNat 8 reasons).toNat →
        s.holdRequest r h reasons = if h ≠ 0 ∧ h < c.sched + 96 then u.henError r 2 0x7FFF c.sched false else u)) ∧
    (∀ (s u : State) (r h : Nat) (l : List Nat), r < 40 → (s.region r).ctl.atHold = some h → h ≤ (s.region r).ctl.sched →
      (s.region r).ctl.run = true → (s.region r).ctl.held = false →
      u = s.modCtl r (fun c => { c with
        held := true, atHold := none, holdBeat := c.sched, holds := (c.holds + 1) % 65536, hstate := .held }) →
      l = (u.testTiles r isDue).filter u.testable →
      exec (.holdBeat r) s = .next (if (s.region r).test.pending = false then u
        else if l = [] ∨ (s.region r).dark = true then u.pauseDone r 0 false else u.startTests l { place := 2 })) ∧
    (∀ (s : State) (r q : Nat), r < 40 → (s.region r).planeOn = true → (s.region r).ctl.lead = true →
      (s.region r).ctl.run = true → (s.region r).ctl.hstate = .held → (s.region r).ctl.reasons = 0 →
      q = (s.region r).clk.count + 96 → exec (.resumeAnnounce r) s = .next ((s.modCtl r fun c => { c with
        hstate := .resuming, atResume := some q, resumeBeat := q }).announce r 1 q 0)) ∧
    ∀ (s : State) (r q : Nat) (c : HenCtl), r < 40 → c = (s.region r).ctl → c.atResume = some q →
      q ≤ (s.region r).clk.count → c.run = true → c.resumes q = true →
      (c.held = true → exec (.resumeBeat r) s = .next (s.modCtl r fun c =>
        { c with held := false, atResume := none, hstate := if c.atHold.isSome then .announced else .running })) ∧
      (c.held = false → c.atHold ≠ none → exec (.resumeBeat r) s = .next ((s.modCtl r fun c =>
        { c with atHold := none, atResume := none, hstate := .running }).henError r 0 0x7FFF c.sched false)) ∧
      (c.held = false → c.atHold = none → exec (.resumeBeat r) s = .next (s.modCtl r fun c => { c with atResume := none }))

/-- EXPRESS_TOKEN_INJECT at a node whose queue holds a token completes: the first token of the highest class waiting
leaves the queue and is on its way to the nodes its class and kind name, and nothing else changes; a hen, its plane
working, an edge node or the controller injects not sooner than 16 beats after its last. A CREDIT token completes: its
producer's credit is the running total it carries, whatever waits for ring credit asks again, and a fabric queue's
credit passes by its increase to the port's peer. A FAULT token that a hen hears completes as an entry at the end of
the region's fault queue, and one at the controller as a record, under the fault policy of the run it names. -/
def Obligations.TokenTraffic : Prop :=
  (∀ (s : State) (r : Nat) (k : Token), r < 40 → (s.region r).planeOn = true →
      nextToken (s.region r).ctl.queue = some k →
      (∀ b, (s.region r).ctl.lastInject = some b → b + 16 ≤ (s.region r).clk.count) →
      exec (.expressTokenInject (.hen r)) s = .next ((s.modCtl r fun c => { c with
        queue := c.queue.erase k, lastInject := some (s.region r).clk.count }).inject (.hen r) k)) ∧
    (∀ (s : State) (k : Token), nextToken s.mgt.queue = some k → mayInject s.mgt.lastInject (s.edgeCount (.iod 0)) = true →
      exec (.expressTokenInject .mc) s = .next ((s.modMgt fun m => { m with
        queue := m.queue.erase k, lastInject := s.edgeCount (.iod 0) }).inject .mc k)) ∧
    (∀ (s : State) (n : NodeId) (e : EdgeId) (k : Token), (∃ x, x < 16 ∧ n = .site x ∧ e = .hbm x) ∨
        (∃ d, d < 4 ∧ n = .iod d ∧ e = .iod d) → nextToken (s.edge e).queue = some k →
      mayInject (s.edge e).lastInject (s.edgeCount e) = true →
      exec (.expressTokenInject n) s = .next ((s.modEdge e fun g => { g with
        queue := g.queue.erase k, lastInject := s.edgeCount e }).inject n k)) ∧
    (∀ a b : Nat, mayInject none (some b) = true ∧ mayInject (some a) none = true ∧
      (a ≤ b → (mayInject (some a) (some b) = true ↔ a + 16 ≤ b))) ∧
    (∀ (s : State) (n : NodeId) (k : Token),
      s.inject n k = { s with flight := s.flight ++ (s.dests n k).map fun d => (d, k) }) ∧
    (∀ (q : List Token) (k : Token), nextToken q = some k → k ∈ q ∧
      ∀ j ∈ q, classOrder.idxOf k.cls.toNat ≤ classOrder.idxOf j.cls.toNat) ∧
    (∀ (s u : State) (k : Token) (key total : Nat), k.cls = 3 → reservedToken k = false → key = bits k.pay 15 0 →
      total = bits k.pay 47 16 → u = { s with
        flight := s.flight.eraseP (fun f => f.2 = k), credits := s.credits.put 0 key total } →
      exec (.creditToken k) s = .next (if 256 ≤ key ∧ key < 304
        then u.ringResume.freeCredit (key - 256) 0 ((total + 2 ^ 32 - s.credits.look 0 key) % 2 ^ 32)
        else u.ringResume)) ∧
    (∀ (s : State) (r : Nat) (k : Token), r < 40 → k.cls = 4 → (s.region r).planeOn = true → reservedToken k = false →
      (s.region r).ctl.isStale k = false →
      exec (.faultToken (.hen r) k) s = .next ((s.landed (.hen r) k).takeFault (some r) k)) ∧
    ∀ (s : State) (k : Token), k.cls = 4 → reservedToken k = false →
      exec (.faultToken .mc k) s = .next ((s.landed .mc k).takeFault none k)

/-- NORM_PAIR and NORM_END that a hen hears complete. The lead hen keeps a pair under its occurrence, norm index and tag,
or discards it where that occurrence's records are out; an end ends one report of its norm index. A hen that is not
the lead passes either on to it. NORM_RECORD_EMIT, once every contributor has ended its report of the occurrence and
some pair or end is there, completes with one record for each tag reported, in ascending order, none marked
incomplete, and the next occurrence collected. Once a contributor has halted or faulted, none of its ends of this
occurrence in flight, and another or a pair is there, it completes with the same records marked incomplete. Emitting a
record of a tag adds to the norm ring one item with the tag's weights and updates summed from zero in ascending norm
index, their ratio and the number of contributions. -/
def Obligations.NormReports : Prop :=
  (∀ (s : State) (r p ph i n : Nat) (k : Token), p = (s.region r).ctl.part → s.leadOf p = some r → ph = bits k.pay 87 80 →
      i = bits k.pay 78 64 → n = ((s.part p).norm.look {} ph).ends.look 0 i + 1 →
      (Heard s r 7 0 k → exec (.normPair r k) s = .next ((s.landed (.hen r) k).modNorm p ph fun o =>
        if n < o.occurrence then o else { o with
          pairs := o.pairs ++ [(n, i, k.group.toNat % 256, k.pay.extractLsb' 0 32, k.pay.extractLsb' 32 32)] })) ∧
      (Heard s r 7 1 k → exec (.normEnd r k) s =
        .next ((s.landed (.hen r) k).modNorm p ph fun o => { o with ends := o.ends.put 0 i n }))) ∧
    (∀ (s : State) (r l : Nat) (k : Token), s.leadOf (s.region r).ctl.part = some l → l ≠ r →
      (Heard s r 7 0 k → exec (.normPair r k) s = .next ((s.landed (.hen r) k).henQueue r { k with scope := 1 })) ∧
      (Heard s r 7 1 k → exec (.normEnd r k) s = .next ((s.landed (.hen r) k).henQueue r { k with scope := 1 }))) ∧
    (∀ (s : State) (p ph : Nat) (o : NormOcc) (pairs : List (Nat × Nat × Nat × Word × Word)) (ended : Nat × Nat → Prop)
      (part : Bool), p < 16 → ph < 256 → o = (s.part p).norm.look {} ph →
      pairs = o.pairs.filter (fun q => q.1 = o.occurrence) → ended = (fun c => o.occurrence ≤ o.ends.look 0 c.1) →
      s.contributors p ≠ [] → (pairs ≠ [] ∨ ∃ c ∈ s.contributors p, ended c) →
      (part = false ∧ (∀ c ∈ s.contributors p, ended c)) ∨ (part = true ∧ ∃ c ∈ s.contributors p, ¬ ended c ∧
        (s.tile c.2).over = true ∧ o.ends.look 0 c.1 + s.normOnWay p ph c.1 < o.occurrence) →
      exec (.normRecordEmit p ph) s = .next ((((List.range 256).filter fun t => pairs.any fun q => q.2.2.1 = t).foldl
        (fun u t => u.emitNorm p ph o.occurrence part pairs t) s).modNorm p ph fun o =>
          { o with occurrence := o.occurrence + 1, pairs := o.pairs.filter fun q => q.1 ≠ o.occurrence })) ∧
    ∀ (s : State) (p ph occ tag flags : Nat) (part : Bool) (pairs mine : List (Nat × Nat × Nat × Word × Word)) (w u r : Word),
      mine = sortBy (fun q => q.2.1) (pairs.filter fun q => q.2.2.1 = tag) →
      w = mine.foldl (fun a q => fadd a q.2.2.2.1) 0#32 → u = mine.foldl (fun a q => fadd a q.2.2.2.2) 0#32 →
      r = normRatio u w → flags = normFlags (s.normLimit p) w r part →
      ∀ t, t = s.modPart p (fun x => { x with
        normq := x.normq.push [lineOf (normRecord s.now occ ph tag flags w u r mine.length)] }) →
      s.emitNorm p ph occ part pairs tag = if flags % 2 = 1 ∨ 8 ≤ flags then t.event (p + 1) 1 else t

/-- A TPHASE sends a PHASE token with its id to the hen of the tile's own region; a PHASE token that a hen hears makes its
id the region's phase and changes nothing else; and at run start the phase is 0. (R320) -/
def Obligations.RegionPhase : Prop :=
  (∀ (s u : State) (n : Nat) (w : Dword), Issuing s n w u → wCls w = 4 → wOp w = 3 → tokenOk w = true →
      ∃ t, exec (.tphase n) s = .next t ∧
        (.hen (regionOf n), tileToken u n 6 0 0 (BitVec.ofNat 96 (bits w 7 0))) ∈ t.flight) ∧
    (∀ (s : State) (r : Nat) (k : Token), Heard s r 6 0 k → exec (.phase r k) s =
      .next ((s.landed (.hen r) k).modPwr r fun p => { p with phase := bits k.pay 7 0 })) ∧
    ∀ (s : State) (r k : Nat) (i : Image), r < 40 → (s.region r).clk.on = true → (s.region r).ctl.atStart = some k →
      k ≤ (s.region r).clk.count → (s.region r).ctl.assigned = true → (s.part (s.region r).ctl.part).img = some i →
      ((s.part (s.region r).ctl.part).st = .starting ∨ (s.part (s.region r).ctl.part).st = .running) →
      ∃ t, exec (.runStartBeat r) s = .next t ∧ (t.region r).pwr.phase = 0

/-- ROOSTER_TICK of a powered module that is not dark completes: device time moves on, and then, region by region, a
region without its oscillator advances E by F, and one that a valid input reaches takes the real tick. Device time
moves by one and the pending step, not at all while a backward correction lasts, and at most 1 ns of an offset is
slewed. A real tick advances E by F, takes the tick's number, measures LAG, has no synthetic tick counted and leaves
the count and every other region as they were. TICK_MISS of a running clock completes: E advances by F, the miss is
counted and recorded, the next tick may come by another input, and the sixteenth in a row enters HOLDOVER. EPOCH_MARK
at a count that is a multiple of 4,096 and not yet tested completes: an oscillator whose ceiling is below F is
recorded; with LAG above 24 an assigned region in a run counts SLIP and asks for a hold, once while held, and any
other records SLIP. SLIP_RECOVERED, LAG at or below 0, withdraws the request. RESYNC at the real tick after lock loss
completes: the border queues are discarded, edge tables and tiles under way follow the jump, the count becomes E, LAG
0 and LOCKED with the jump recorded, announced actions passed over are late, and the jump and each transit input that
lost words are reported. -/
def Obligations.ClockEvents : Prop :=
  (∀ (s u : State) (dead amps : List (Nat × Nat)), s.mgt.pwrOk = true → s.mgt.darkened = false →
      u = s.modMgt (fun m => m.tickOn) → exec (.roosterTick dead amps) s = .next ((List.range 40).foldl (fun v r =>
        if (u.region r).clk.on = false then v.modClk r fun k => { k with expect := k.expect + s.mgt.fMhz }
        else if u.ticked dead r then v.realTick dead amps r else v) u)) ∧
    (∀ (m : Mgt) (w : Int), w = m.slewPs - max (-1000) (min 1000 m.slewPs) →
      m.tickOn = if 0 < m.freeze then { m with freeze := m.freeze - 1, slewPs := w }
        else { m with nextTick := m.nextTick + 1 + m.step, step := 0, slewPs := w }) ∧
    (∀ (s t : State) (dead amps : List (Nat × Nat)) (r : Nat) (k : HenClk), t = s.realTick dead amps r →
      k = (s.region r).clk → (t.region r).clk.expect = k.expect + s.mgt.fMhz ∧ (t.region r).clk.tick = s.mgt.nextTick ∧
      (t.region r).clk.lag = fracInt ((k.expect : Int) + s.mgt.fMhz - k.count) ∧ (t.region r).clk.synth = 0 ∧
      (t.region r).clk.count = k.count ∧ ∀ q, q ≠ r → t.region q = s.region q) ∧
    (∀ (s : State) (r : Nat), r < 40 → (s.region r).clk.on = true → exec (.tickMiss r) s = .next ((s.modClk r fun k =>
      { k with
        expect := k.expect + s.mgt.fMhz, tick := k.tick + 1, synth := k.synth + 1, switchDue := true
        st := if 16 ≤ k.synth + 1 then .holdover else k.st }.error 1).countWaits r)) ∧
    (∀ (k : HenClk) (bit : Nat), k.error bit = { k with
      err := setBit k.err bit, errCount := min (k.errCount + 1) 65535
      errBeat := if k.errValid then k.errBeat else k.count, errValid := true }) ∧
    (∀ (s u v : State) (r : Nat) (x : Region), r < 40 → x = s.region r → x.clk.on = true → x.clk.count % 4096 = 0 →
      x.clk.epochAt ≠ some x.clk.count → u = s.modClk r (fun k => { k with epochAt := some k.count }) →
      v = (if x.pwr.topMhz < s.mgt.fMhz then u.modClk r fun k => k.error 4 else u) →
      exec (.epochMark r) s = .next (if (fracInt 24).lt x.clk.lag = false then v
        else if x.ctl.assigned = true ∧ x.ctl.run = true then (if x.ctl.held = true ∧ x.clk.slipOut = true then v
          else (v.modClk r fun k => { k with
            slipReqs := min (k.slipReqs + 1) 65535, slipOut := true }.error 0).askLead r 6 0 2)
        else v.modClk r fun k => k.error 0)) ∧
    (∀ (s : State) (r : Nat), r < 40 → (s.region r).clk.slipOut = true → (s.region r).clk.lag.le (fracInt 0) = true →
      exec (.slipRecovered r) s = .next ((s.modClk r fun k => { k with slipOut := false }).askLead r 7 0 2)) ∧
    ∀ (s u v w : State) (r : Nat) (x : Region) (jump sched : Nat → Nat) (delta : Int), r < 40 → x = s.region r →
      x.clk.on = true → x.clk.resyncDue = true → jump = (fun b => b + x.clk.expect - x.clk.count) →
      sched = (fun b => if x.ctl.run && !x.ctl.held then jump b else b) → delta = (x.clk.expect : Int) - x.clk.count →
      u = s.flushBorders r delta sched jump → v = (if x.ctl.tables then u.jumpPorts r delta else u) →
      w = (if x.ctl.run && !x.ctl.held then (keysIn v.tiles r).foldl (fun w n =>
        w.modTile n fun y => if y.owned then y.shift jump else y) v else v) →
      exec (.resync r) s = .next ((s.transitLost r).foldl (fun a n => a.raise (regionOf n) 2 1 n
        (a.region (regionOf n)).clk.count true) (((w.modRegion r fun y => { y with
          clk := { y.clk with count := x.clk.expect, lag := fracInt 0, st := .locked, resyncDue := false }.error 2
          ctl := if x.ctl.run && !x.ctl.held then { y.ctl with sched := sched y.ctl.sched }
            else { y.ctl with posBase := y.ctl.posBase - delta } }).passedAll r x.clk.count x.clk.expect x.ctl.sched
              (sched x.ctl.sched)).raise r 2 0x11 0x7FFF x.clk.expect true))

/-- DROOP_TRIP of 30 mV or more on a running clock completes: the clock is slowed by one step of F/40 for each full 5 mV
past 30, at most 8 steps, and the droop is counted there and in the telemetry frame. DROOP_CLEAR of a tripped clock
completes: the rate takes its first step up, and each step of a rise adds F/40 and then follows the target. F_CHANGE
at the announced tick completes with the announced F. FIXED_CLOCK_APPLY, a mode change waiting and no run active,
completes: where the mode is to be turned on and F is not FIXED_MHZ, F is announced for two ticks ahead, unless it is
already; else the mode takes effect. REF_LOST of a powered module completes with the loss recorded and a POWER token,
REF_RESTORED with the record cleared and a host port that waits training. FABRIC_LOCK_LOSS, one second without a valid
time frame, completes with FABRIC_LOCK clear and a LINK token. -/
def Obligations.RateEvents : Prop :=
  (∀ (s : State) (r mv n : Nat), r < 40 → (s.region r).clk.on = true → 30 ≤ mv → n = min 8 ((mv - 30) / 5) →
      exec (.droopTrip r mv) s = .next (s.modRegion r fun y => { y with
        clk := { y.clk with
          tripped := true, rising := false, slowed := n, droops := min (y.clk.droops + 1) 65535 }.setRate
            (droopRate s.mgt.fMhz y.pwr.topMhz n)
        tlm := { y.tlm with droops := y.tlm.droops + 1, droop := true } })) ∧
    (∀ f top n, droopRate f top n = (fracOf (f * (40 - n)) 40).min (fracInt top)) ∧
    (∀ (s : State) (r : Nat), r < 40 → (s.region r).clk.on = true → (s.region r).clk.tripped = true →
      exec (.droopClear r) s = .next (s.modClk r fun k =>
        { k with tripped := false, rising := true }.nextRate s.mgt.fMhz (s.region r).pwr.topMhz)) ∧
    (∀ (k : HenClk) (f top : Nat), k.tripped = false → k.rising = true →
      k.nextRate f top = (k.setRate (k.rate.add (fracOf f 40))).retarget f top) ∧
    (∀ (s : State) (k f : Nat), s.mgt.fNext = some (k, f) → k ≤ s.mgt.nextTick + 1 →
      exec .fChange s = .next (s.modMgt fun m => { m with fMhz := f, fNext := none })) ∧
    (∀ s : State, s.mgt.modeWait = true → s.anyRun = false →
      (s.mgt.fixed = true → s.mgt.fMhz ≠ s.mgt.fixedMhz →
        ((∃ k, s.mgt.fNext = some (k, s.mgt.fixedMhz)) → exec .fixedClockApply s = .next s) ∧
        ((∀ k, s.mgt.fNext ≠ some (k, s.mgt.fixedMhz)) → exec .fixedClockApply s =
          .next (s.modMgt fun m => { m with fNext := some (m.nextTick + 2, m.fixedMhz) }))) ∧
      (s.mgt.fixed = false ∨ s.mgt.fMhz = s.mgt.fixedMhz → exec .fixedClockApply s = .next (s.modMgt fun m => { m with
        modeWait := false, fixedOn := m.fixed, fNext := if m.fixed then none else m.fNext }))) ∧
    (∀ s : State, s.mgt.pwrOk = true → s.mgt.refLost = false → exec .refLost s =
      .next ((s.modMgt fun m => { m with refLost := true }).raiseEdge (.iod 0) 0 0 5 1 s.mgt.nextTick false)) ∧
    (∀ s : State, s.mgt.refLost = true → exec .refRestored s = .next (s.modMgt fun m => { m with
      refLost := false, pcieTraining := m.pcieTraining || m.pcieWait, pcieWait := false })) ∧
    ∀ s : State, s.mgt.fabricLock = true → s.mgt.frameTime + 1000000 ≤ s.mgt.nextTick →
      exec .fabricLockLoss s = .next ((s.modMgt fun m => { m with fabricLock := false, lockSince := none }).raiseEdge (.iod 0) 0 0
        6 0x20 s.mgt.nextTick false)

/-- OX_PASS_START of a pass of a valid share whose START has come, no pass of the ox that may start coming before it by D
and index, and none of its pages handed over, completes: it is listed as running and asks the fabric or the other
sites for its lines, or, where its pages refuse it, fills with zeros, sets REFUSED with a MEMORY fault, and is done.
OX_PASS_COMPLETE of a running pass completes: while a line it asked for is missing it asks on; else a REMOTE pass is
done, and a local one moves each of its lines in order and is done. A line kept at another site is left alone; one
whose channel has failed is refused; a DRAIN writes the staging line; a FILL stages the line read, or, with an
uncorrectable error, a free line, counted at its site and reported. A pass that is done is no longer running or late
and is counted as served. OX_LATE_POINT of a pass not complete at D − 512 completes: LATE is set and counted once with
the first beat, and an OX hold is requested for one beat before D. STAGING_MISS of an access to a pending or late line
completes: once a beat MISS is set, counted and reported with a TIMING token. -/
def Obligations.OxPasses : Prop :=
  (∀ (s u : State) (e : EdgeId) (sh i b k st dl : Nat) (g : Edge) (h : Share) (d : OxDesc), shareOk e sh i = true →
      g = s.edge e → h = g.share sh → d = g.desc sh i → h.valid = true → i < h.descCount →
      s.oxBeat e h.part = some b → g.nextPass sh i = some (k, st, dl) → st ≤ b → g.running sh i = false →
      s.passWaits d = false → (∀ q ∈ s.waiting e, dl < q.1 ∨ (dl = q.1 ∧ h.descBase + i ≤ q.2)) →
      u = s.modEdge e (fun g => { g with passes := g.passes ++ [{ share := sh, desc := i, k := k, next := 0 : Pass }] }) →
      (oxRemote d = true → exec (.oxPassStart e sh i) s = .next (u.askAll e sh i)) ∧
      (oxRemote d = false → ∀ v, v = (if d.lines = 0 then 0
          else s.memStatus s.mgt.ownId h.part (!oxFill d) (oxLocal d) (64 * d.lines.toNat)) →
        (v = 0 → exec (.oxPassStart e sh i) s = .next (u.passAsk e sh i)) ∧
        (v ≠ 0 → exec (.oxPassStart e sh i) s = .next (((if oxFill d
          then u.stage e (g.stageAt sh i) (List.replicate d.lines.toNat 0) else u).oxRefused e sh).passDone e sh i)))) ∧
    (∀ (s : State) (e : EdgeId) (sh i : Nat) (bad : List Nat) (p : Pass) (g : Edge) (d : OxDesc), shareOk e sh i = true →
      g = s.edge e → d = g.desc sh i → g.passes.find? (fun p => p.share = sh && p.desc = i) = some p →
      (p.next < d.lines.toNat ∨ p.asks ≠ [] ∨ s.inFlight e sh i ≠ 0 →
        exec (.oxPassComplete e sh i bad) s = .next (s.passAsk e sh i)) ∧
      (d.lines.toNat ≤ p.next → p.asks = [] → s.inFlight e sh i = 0 → exec (.oxPassComplete e sh i bad) s = .next
        ((if oxRemote d then s else (List.range d.lines.toNat).foldl (fun u l =>
          u.moveLine e sh i (bad.contains l) l) s).passDone e sh i))) ∧
    (∀ (s : State) (e : EdgeId) (sh i l a at_ : Nat) (bad : Bool) (d : OxDesc) (gone : Prop), d = (s.edge e).desc sh i →
      a = oxLocal d + 64 * l → at_ = (s.edge e).stageAt sh i + l →
      gone = (∃ k ∈ lineStarts a 64, ∀ c, s.cell k = some c → s.chanFailed c.1 c.2.1 = true) →
      (s.ownLine e a = false → s.moveLine e sh i bad l = s) ∧
      (s.ownLine e a = true → gone → s.moveLine e sh i bad l = s.passAnswer e sh i l 1 5 []) ∧
      (s.ownLine e a = true → ¬ gone → oxFill d = false →
        s.moveLine e sh i bad l = s.writeLines a [(s.edge e).lines.look 0 at_]) ∧
      (s.ownLine e a = true → ¬ gone → oxFill d = true → bad = false →
        s.moveLine e sh i bad l = s.stage e at_ (s.readLines a 1)) ∧
      (s.ownLine e a = true → ¬ gone → oxFill d = true → bad = true → s.moveLine e sh i bad l =
        (s.freeLine.2.passAnswer e sh i l 1 4 [s.freeLine.1]).uncorrectable ((s.siteAt a).getD 0))) ∧
    (∀ (s t : State) (e : EdgeId) (sh i : Nat), shareOk e sh i = true → t = s.passDone e sh i →
      (t.edge e).passes = (s.edge e).passes.filter (fun p => !(p.share = sh && p.desc = i)) ∧
      (t.edge e).lateAt = (s.edge e).lateAt.filter (fun l => l.1 ≠ servedKey sh i) ∧
      (t.edge e).served = (s.edge e).served.put 0 (servedKey sh i) ((s.edge e).served.look 0 (servedKey sh i) + 1) ∧
      (t.edge e).lines = (s.edge e).lines ∧ t.hbm = s.hbm) ∧
    (∀ (s : State) (e : EdgeId) (sh i b k st dl : Nat) (g : Edge) (h : Share), shareOk e sh i = true → g = s.edge e →
      h = g.share sh → h.valid = true → i < h.descCount → s.oxBeat e h.part = some b →
      g.nextPass sh i = some (k, st, dl) → dl ≤ b + 512 → (servedKey sh i, k) ∉ g.lateAt →
      exec (.oxLatePoint e sh i) s = .next ((s.modEdge e fun g => { g with
        beat := if g.beatValid then g.beat else b % 2 ^ 48
        beatShare := if g.beatValid then g.beatShare else decide (sh = 1), beatValid := true, late := true
        lateCount := min (g.lateCount + 1) 65535, holding := true
        lateAt := g.lateAt ++ [(servedKey sh i, k)] }).edgeAsk e h.part 6 (dl - 1))) ∧
    ∀ (s : State) (e : EdgeId) (p i : Nat) (c : HenCtl) (y : EPort),
      (match e with | .hbm x => x < 16 ∧ p < 25 | .iod d => d < 4 ∧ p < 50) → s.portMisses e p = some i →
      c = (s.region (regionOf (edgeTile e p).1)).ctl → y = (s.edge e).ports.look {} p →
      (y.assessed = some c.sched → exec (.stagingMiss e p) s = .next s) ∧
      (y.assessed ≠ some c.sched → exec (.stagingMiss e p) s = .next ((s.modEdge e fun g => { g with
        beat := if g.beatValid then g.beat else c.sched % 2 ^ 48
        beatShare := if g.beatValid then g.beatShare else decide (i = 1), beatValid := true, miss := true
        missCount := min (g.missCount + 1) 65535
        ports := g.ports.put {} p { y with assessed := some c.sched } }).raiseEdge e c.part c.runGen 2 0x30 c.sched false))

/-- RING_READ, RING_WRITE and RING_ATOMIC on a request of that operation at the head of an ox's queue whose pages are not
pending complete: it is taken out, its entries freed, and it is answered to the host DMA, the port or the pass that
asked. If its page check fails nothing is read or written and the answer has the check's status. Else a READ answers
the lines it names, each bad one free and counted at the site, with UNCORRECTABLE if a line of it is bad; a WRITE
stores its lines, or the bytes of one line that its mask names; an ATOMIC answers the old word and stores the new one,
a bad old word being free, counted and answered UNCORRECTABLE. -/
def Obligations.RingRequests : Prop :=
  ∀ (s u : State) (x a n st : Nat) (k : List Line) (rest : List (List Line)) (h : Line), x < 16 →
    (s.site x).oxq.items = k :: rest → h = headOf k → a = hAddr h % 2 ^ 40 → n = reqLines h →
    s.mustWait a (64 * n) = false → u = s.popOx x k.length (askerDie h) →
    (hCls h = 0 → st = s.memStatus (hSrc h) (hPart h) false a (64 * n) → ∀ bad,
      (st ≠ 0 → exec (.ringRead x bad) s = .next (u.ringAnswer h st 0 [])) ∧
      (st = 0 → exec (.ringRead x bad) s = .next ((u.readChecked x a bad n).2.ringAnswer h
        (if (∃ i ∈ bad, i < n) then 4 else 0) 0 (u.readChecked x a bad n).1))) ∧
    (∀ m bad, u.readChecked x a bad 0 = ([], u) ∧
      (m ∉ bad → u.readChecked x a bad (m + 1) = ((u.readChecked x a bad m).1 ++
        (u.readChecked x a bad m).2.readLines (a + 64 * m) 1, (u.readChecked x a bad m).2)) ∧
      (m ∈ bad → u.readChecked x a bad (m + 1) = ((u.readChecked x a bad m).1 ++
        [(u.readChecked x a bad m).2.freeLine.1], (u.readChecked x a bad m).2.freeLine.2.uncorrectable x))) ∧
    (hCls h = 1 → st = s.memStatus (hSrc h) (hPart h) true a (64 * n) →
      (st ≠ 0 → exec (.ringWrite x) s = .next (u.ringAnswer h st 0 [])) ∧
      (st = 0 → hOp h ≠ 2 → exec (.ringWrite x) s = .next ((u.writeLines a (k.drop 1)).ringAnswer h 0 0 [])) ∧
      (st = 0 → hOp h = 2 → exec (.ringWrite x) s = .next ((u.writeMem a (lineBytes
        (mergeLine (lineOf (u.readMem a 64)) (k.getD 1 0) (BitVec.ofNat 64 (hOp0 h))))).ringAnswer h 0 0 []))) ∧
    (hCls h = 2 → st = s.memStatus (hSrc h) (hPart h) true a (64 * n) →
      ∀ new : Dword → Dword, new = (fun old => atomicNew (hArg h) old (BitVec.ofNat 64 (hOp0 h)) (BitVec.ofNat 64 (hOp1 h))) →
      (st ≠ 0 → ∀ bad, exec (.ringAtomic x bad) s = .next (u.ringAnswer h st 0 [])) ∧
      (∀ old : Dword, st = 0 → old = BitVec.ofNat 64 (leNat (u.readMem a 8)) → exec (.ringAtomic x false) s =
        .next ((u.writeMem a (leBytes 8 (new old).toNat)).ringAnswer h 0 old.toNat [])) ∧
      (∀ old : Dword, st = 0 → old = u.draw.1 → exec (.ringAtomic x true) s =
        .next (((u.draw.2.uncorrectable x).writeMem a (leBytes 8 (new old).toNat)).ringAnswer h 4 old.toNat []))) ∧
    u.hbm = s.hbm ∧ (u.site x).oxq = (s.site x).oxq.pop ∧ ((u.site x).oxq.items = rest)

/-- An atomic's new word is: for SWAP its operand; for CAS the operand where the old word equals the comparand, else the
old word; for ADD the sum modulo 2^64; for AND, OR and XOR the bitwise results; for MAXU and MINU the unsigned greater
and lesser. -/
def Obligations.AtomicValues : Prop :=
  ∀ old a b : Dword, atomicNew 0 old a b = a ∧ atomicNew 1 old a b = (if old = b then a else old) ∧
    (atomicNew 2 old a b).toNat = (old.toNat + a.toNat) % 2 ^ 64 ∧ atomicNew 3 old a b = old &&& a ∧
    atomicNew 4 old a b = old ||| a ∧ atomicNew 5 old a b = old ^^^ a ∧
    (atomicNew 6 old a b).toNat = max old.toNat a.toNat ∧ (atomicNew 7 old a b).toNat = min old.toNat a.toNat

/-- HBM_ECC_POLL of a fitted site completes with each report taken in order: it is exported and counted as corrected or
uncorrected at its site, and an uncorrected row, or one corrected twice within 24 h, is repaired if its bank has a
repair left and its channel failed if not. HBM_CHANNEL_FAIL of a fitted site completes: a channel not yet failed is
marked, logged and exported, the stack DEGRADED, or FAILED with more than 8. HBM_SOFT_REPAIR_COMPLETE of a repair
under way completes with the row repaired, the channel marked and the repair counted. STAGING_BLOCK_TEST of a fitted
site without shares completes: a block that fails for the first time is marked, logged and exported, its HBM site
FAILED or its I/O die TRANSIT_ONLY; one that passes changes nothing. HBM_HOT completes with half the command slots and
a POWER token, HBM_STACK_COOL with all of them. HANDOVER_COMPLETE of a pending page completes with the page's record,
GEN one higher, for its new owner and mode and the request answered, or, for a release, with its zeroing begun;
PAGE_ZEROING_COMPLETE of a pending page that no pass touches completes with the record FREE, GEN one higher, and no
byte listed that lies in the page on a channel not failed. -/
def Obligations.StackEvents : Prop :=
  (∀ (s : State) (x : Nat) (l : List EccReport), x < 16 → (∀ r ∈ l, r.channel < 32) → hbmFitted s.mgt.fuses x = true →
      exec (.hbmEccPoll x l) s = .next (l.foldl (State.eccReport x) s)) ∧
    (∀ (s u : State) (x : Nat) (r : EccReport), u = s.cper { source := 4, unitKind := 8, unit := channelIndex x r.channel, severity := (if r.corrected then 2 else 0) } →
      (r.corrected = true → ∀ v, v = u.modSite x (fun y => { y with
          corr := min (y.corr + 1) 65535, corrRows := y.corrRows ++ [(r.channel, r.bank, r.row, s.mgt.nextTick)] }) →
        State.eccReport x s r = if (∃ q ∈ (s.site x).corrRows, q.1 = r.channel ∧ q.2.1 = r.bank ∧ q.2.2.1 = r.row ∧
          s.mgt.nextTick ≤ q.2.2.2 + 86400000000) then v.repairRow x r.channel r.bank r.row else v) ∧
      (r.corrected = false → State.eccReport x s r =
        (u.modSite x fun y => { y with uncorr := min (y.uncorr + 1) 65535 }).repairRow x r.channel r.bank r.row)) ∧
    (∀ (s : State) (x c bank row n : Nat) (y : Site), y = s.site x →
      n = ((y.repairing ++ y.repaired ++ y.hardRows).filter fun q => q.1 = c && q.2.1 = bank).length →
      s.repairRow x c bank row = if (c, bank, row) ∈ y.repairing ∨ y.chFailed.getLsbD c = true then s
        else if Config.bankRepairs ≤ n then s.failChannel x c
        else s.modSite x fun y => { y with repairing := y.repairing ++ [(c, bank, row)] }) ∧
    (∀ (s : State) (x c : Nat), x < 16 → c < 32 → hbmFitted s.mgt.fuses x = true →
      exec (.hbmChannelFail x c) s = .next (s.failChannel x c)) ∧
    (∀ (s : State) (x c : Nat) (y : Site), y = s.site x → (y.chFailed.getLsbD c = true → s.failChannel x c = s) ∧
      (y.chFailed.getLsbD c = false → ∀ st, (y.st = .failed ∧ st = SiteSt.failed) ∨ (y.st = .absent ∧ st = SiteSt.absent) ∨
          (y.st ≠ .failed ∧ y.st ≠ .absent ∧ st = if 8 < popcount (setBit y.chFailed c) then .failed else .degraded) →
        s.failChannel x c = (((s.setSite x { y with chFailed := setBit y.chFailed c, st := st }).log 8 2
          (channelIndex x c)).cper { source := 7, unitKind := 8, finding := 2, unit := channelIndex x c, published := true }))) ∧
    (∀ (s : State) (x c bank row : Nat), x < 16 → c < 32 → (c, bank, row) ∈ (s.site x).repairing →
      exec (.hbmSoftRepairComplete x c bank row) s = .next (s.modSite x fun y => { y with
        repairing := y.repairing.erase (c, bank, row), repaired := y.repaired ++ [(c, bank, row)]
        chRepaired := setBit y.chRepaired c, soft := min (y.soft + 1) 65535 })) ∧
    (∀ (s u : State) (e : EdgeId), (match e with | .hbm x => x < 16 | .iod d => d < 4) → edgeFitted s.mgt.fuses e = true →
      (s.edge e).share0.valid = false → (s.edge e).share1.valid = false → exec (.stagingBlockTest e true) s = .next s ∧
      ((s.edge e).blockBad = false → u = ((s.modEdge e fun g => { g with blockBad := true }).log 9 2 (stagingIndex e)).cper
          { source := 7, unitKind := 9, finding := 2, unit := stagingIndex e, published := true } →
        (∀ x, e = .hbm x → exec (.stagingBlockTest e false) s = .next (u.failSite x)) ∧
        (∀ d, e = .iod d → exec (.stagingBlockTest e false) s = .next (u.setDie d fun x => { x with laneOnly := true })))) ∧
    (∀ (s : State) (x : Nat), x < 16 → hbmFitted s.mgt.fuses x = true → (s.site x).halfSlots = false →
      exec (.hbmHot x) s = .next ((s.modSite x fun y => { y with halfSlots := true }).raiseEdge (.hbm x) 0 0 5 8
        s.mgt.nextTick false)) ∧
    (∀ (s : State) (x : Nat), x < 16 →
      exec (.hbmStackCool x) s = .next (s.modSite x fun y => { y with halfSlots := false })) ∧
    (∀ (s : State) (page : Nat) (m : HandOver), page < 524288 → s.moves.find? (fun m => m.page = page) = some m →
      pgPending (s.page page) = true → m.zeroing = false →
      (m.mode ≠ 0 → exec (.handoverComplete page) s = .next (s.endMove m
        (pageRecord m.dev m.part m.mode.toNat (pgGen (s.page page) + 1) false)).advanceAll) ∧
      (m.mode = 0 → exec (.handoverComplete page) s = .next ({ s with moves := s.moves.map fun (q : HandOver) => if q.page = page then { q with zeroing := true } else q }).advanceAll)) ∧
    (∀ (s : State) (page : Nat) (m : HandOver), page < 524288 → s.moves.find? (fun m => m.page = page) = some m →
      m.mode = 0 → pgPending (s.page page) = true → s.passOn page = false → exec (.pageZeroingComplete page) s =
        .next ((List.range 16).foldl (fun u p => u.destroyed p) (({ s with hbm := s.hbm.filter fun c => (s.site (c.1 / 2 ^ 36)).chFailed.getLsbD (c.1 / 2 ^ 31 % 32) || (s.offsetOf c.1).map (· / 2 ^ 21) ≠ some page }).endMove m
          (pageRecord 0 0 0 (pgGen (s.page page) + 1) false)).advanceAll)) ∧
    ∀ (s : State) (m : HandOver) (r : BitVec 32), (s.endMove m r).page m.page = r ∧
      (∀ q, q ≠ m.page → (s.endMove m r).page q = s.page q) ∧
      (s.endMove m r).moves = s.moves.filter (fun (q : HandOver) => q.page ≠ m.page) ∧ (s.endMove m r).hbm = s.hbm

/-- Where a local offset and the ones after it lie in the map and no two of them share a place in the stacks, reading back
as many bytes as were written gives the bytes written; a mapped byte whose place is none of the written ones reads as
before; and a byte outside the map goes nowhere. -/
def Obligations.MemoryReads : Prop :=
  ∀ (s : State) (a : Nat) (bs : List Byte),
    (∀ i j, i < bs.length → j < bs.length → (s.cell (a + i)).isSome = true ∧
      ((s.cell (a + i)).map cellKey = (s.cell (a + j)).map cellKey → i = j)) →
    (s.writeMem a bs).readMem a bs.length = bs ∧
    (∀ b, (∀ i, i < bs.length → (s.cell (a + i)).map cellKey ≠ (s.cell b).map cellKey) →
      (s.writeMem a bs).readMem b 1 = s.readMem b 1) ∧
    ∀ b c, s.cell b = none → (s.writeMem b [c]).hbm = s.hbm

/-- LOAD, STORE, STORE_MASKED and the eight atomics, at the head of a port's queue at an I/O die that is not dark,
complete as memory requests: refused with the first check of R240 that fails, answered NOT_MAPPED where a line of it
is not mapped and CHANNEL_FAILED where its site is FAILED, and else sent to the ox of the site as soon as the ring has
room. IRANT_HANDOVER completes with the hand-over begun, or with the refusal and the page record as found. RECLAIM
completes with the page being freed, for a fabric manager and a mapped page at rest, and else with the refusal and the
record as found. CTL_READ and CTL_WRITE complete: refused by a check, DENIED where the device may not read the
register or write what it gives, UNMAPPED where nothing is mapped, and else answered with the register's value, or
with the write carried out. -/
def Obligations.FabricRequests : Prop :=
  ∀ (s u : State) (p st a page : Nat) (k : List Line) (h : Line), p < 48 → s.fqHead p = some k → h = headOf k →
    (s.iod (dieOf p)).st ≠ .dark → st = s.fabricCheck p k → a = hAddr h % 2 ^ 40 → page = a / 2 ^ 21 → u = s.popFq p →
    (hOp h = 0 → exec (.load p) s = .next (s.serveMemory p k)) ∧ (hOp h = 1 → exec (.store p) s = .next (s.serveMemory p k)) ∧
    (hOp h = 2 → exec (.storeMasked p) s = .next (s.serveMemory p k)) ∧
    (hOp h = 3 → (hArg h % 8 = 0 → exec (.atomicSwap p) s = .next (s.serveMemory p k)) ∧
      (hArg h % 8 = 1 → exec (.atomicCas p) s = .next (s.serveMemory p k)) ∧
      (hArg h % 8 = 2 → exec (.atomicAdd p) s = .next (s.serveMemory p k)) ∧
      (hArg h % 8 = 3 → exec (.atomicAnd p) s = .next (s.serveMemory p k)) ∧
      (hArg h % 8 = 4 → exec (.atomicOr p) s = .next (s.serveMemory p k)) ∧
      (hArg h % 8 = 5 → exec (.atomicXor p) s = .next (s.serveMemory p k)) ∧
      (hArg h % 8 = 6 → exec (.atomicMaxu p) s = .next (s.serveMemory p k)) ∧
      (hArg h % 8 = 7 → exec (.atomicMinu p) s = .next (s.serveMemory p k))) ∧
    (st ≠ 0 → s.serveMemory p k = u.answer p h st 0 []) ∧
    (st = 0 → s.locate a = none → s.serveMemory p k = u.answer p h 2 0 []) ∧
    (∀ x o, st = 0 → s.locate a = some (x, o) → s.serveMemory p k =
      if (lineStarts a (64 * reqLines h)).any (fun l => (s.cell l).isNone) then u.answer p h 2 0 []
      else if (s.site x).st = .failed then u.answer p h 5 0 []
      else if k.length ≤ s.ringCredit x ∧ s.ringJoins (.iod (dieOf p)) (.hbm x) = true
        then u.ringPush x (ringHead (ringOp h) p 1 h :: k.drop 1) else s) ∧
    (hOp h = 4 → (st ≠ 0 → exec (.irantHandover p) s = .next (u.answer p h st (s.page page).toNat [])) ∧
      (∀ c, st = 0 → c = s.handCheck page (hSrc h) (hPart h) (hOp0 h % 4096) →
        (c ≠ 0 → exec (.irantHandover p) s = .next (u.answer p h c (s.page page).toNat [])) ∧
        (c = 0 → exec (.irantHandover p) s = .next (u.beginMove {
          page := page, dev := hOp0 h / 2 ^ 12 % 8192, part := hOp0 h / 2 ^ 25 % 16
          mode := BitVec.ofNat 2 (hOp0 h / 2 ^ 29), zeroing := false, port := some p, req := [h], fn := none, cid := 0 })))) ∧
    (hOp h = 5 → ∀ c, (st ≠ 0 ∧ c = st) ∨ (st = 0 ∧ s.mgt.isFm (hSrc h) = false ∧ c = 21) ∨
        (st = 0 ∧ s.mgt.isFm (hSrc h) = true ∧ s.pageMapped page = false ∧ c = 2) ∨
        (st = 0 ∧ s.mgt.isFm (hSrc h) = true ∧ s.pageMapped page = true ∧
          (pgPending (s.page page) = true ∨ s.moving page = true) ∧ c = 7) →
      exec (.reclaim p) s = .next (u.answer p h c (s.page page).toNat [])) ∧
    (hOp h = 5 → st = 0 → s.mgt.isFm (hSrc h) = true → s.pageMapped page = true → pgPending (s.page page) = false →
      s.moving page = false →
      exec (.reclaim p) s = .next ((u.freePage page).answer p h 0 ((u.freePage page).page page).toNat [])) ∧
    ∀ w ok, w = s.mgt.partyOf (hSrc h) → ok = s.ctlAllowed w (hAddr h) →
      (hOp h = 6 → (∀ c, (st ≠ 0 ∧ c = st) ∨ (st = 0 ∧ ok = false ∧ c = 21) ∨
            (st = 0 ∧ ok = true ∧ blockOf s.mgt.fuses (hAddr h) = none ∧ c = 22) →
          exec (.ctlRead p) s = .next (u.answer p h c 0 [])) ∧
        (∀ b off, st = 0 → ok = true → blockOf s.mgt.fuses (hAddr h) = some (b, off) →
          exec (.ctlRead p) s = .next (u.answer p h 0 (s.readReg b off).toNat []))) ∧
      (hOp h = 7 → ∀ v, v = BitVec.ofNat 64 (hOp0 h) →
        (∀ c, (st ≠ 0 ∧ c = st) ∨ (st = 0 ∧ ok = false ∧ c = 21) ∨
            (st = 0 ∧ ok = true ∧ blockOf s.mgt.fuses (hAddr h) = none ∧ c = 22) ∨ (st = 0 ∧ ok = true ∧ c = 21 ∧
              ∃ b off, blockOf s.mgt.fuses (hAddr h) = some (b, off) ∧ s.overreach w b off (BitVec.allOnes 64) v = true) →
          exec (.ctlWrite p) s = .next (u.answer p h c 0 [])) ∧
        (∀ b off, st = 0 → ok = true → blockOf s.mgt.fuses (hAddr h) = some (b, off) →
          s.overreach w b off (BitVec.allOnes 64) v = false →
          exec (.ctlWrite p) s = .next (((u.writeReg w b off (BitVec.allOnes 64) v).getD u).answer p h 0 0 [])))

/-- CODEWORD_RECEIVED at a listening port, of a lane in service, completes: up to 15 symbol errors are counted as
corrected with their bit errors, and the flits join the frame; more are counted as an uncorrectable codeword whose
flits are lost; a whole frame's flit positions are taken in turn, a NAK following the first of each lost codeword, and
a LANE_MAP of this port's own goes out again. A packet of bad CRC, or a LINK packet of a reserved op, is counted, the
former with a NAK; a LINK packet waits in the port; another is accepted at an UP port if it has the next LSEQ, ignored
if it is older or a NAK stands, and answered by a NAK if it is ahead. The first LINK packet of its op at a port is
taken out and its command completes: ACK frees the replay space up to a held LSEQ that it names and the port sends on;
NAK at an UP port is counted and the held packets from the named one go out again; CREDIT sets the peer's totals and
the port sends on; TIME_SYNC in range at an UP port is answered by TIME_RESP; TIME_RESP in range at an UP port records
the time source and, from the parent, applies its offset; DEPART brings an UP port to RETRAINING for reason 2 and to
DOWN for another; ADMIT records the peer and brings a READY port that has sent its own to UP; LANE_MAP at an UP port
retires the lanes it drops and is kept for its frame, or for the present one, counted as a replay, where that has
passed. -/
def Obligations.LinkPackets : Prop :=
  (∀ (s u v a : State) (p lane frame : Nat) (errs : CodeErrors) (flits : List Line) (x y : Port) (l : Lane), p < 48 → lane < 9 →
      frame < 65536 → x = s.port p → x.listens = true → x.inService.contains lane = true → l = x.lanes.look {} lane →
      (errs.symbols ≤ 15 ∧ y = { x with
        lanes := x.lanes.put {} lane (l.decoded s.mgt.nextTick errs.symbols errs.bits)
        frames := (x.frames.filter fun f => !(f.1 = frame && f.2.1 = lane)) ++ [(frame, lane, flits.take 10)] }) ∨
      (15 < errs.symbols ∧ y = { x with
        cwUncorr := min (x.cwUncorr + 1) 65535, lanes := x.lanes.put {} lane { l with badRun := l.badRun + 1 }
        frames := (x.frames.filter fun f => !(f.1 = frame && f.2.1 = lane)) ++ [(frame, lane, [])] }) → u = s.setPort p y →
      (y.frameFlits frame = none → exec (.codewordReceived p lane frame errs flits) s = .next u) ∧
      ∀ fs, y.frameFlits frame = some fs →
        v = u.setPort p { y with frame := (frame + 1) % 65536, frames := y.frames.filter fun f => f.1 ≠ frame } →
        a = (fs.take x.inService.length).foldl (fun a f =>
          if f.isNone then (a.takeFlit p f).sendNak p else a.takeFlit p f) v →
        exec (.codewordReceived p lane frame errs flits) s =
          .next (((fs.drop x.inService.length).foldl (fun a f => a.takeFlit p f) a).repeatMap p)) ∧
    (∀ (l : Lane) (now errs bitErrs : Nat) (e : List (Nat × Nat)), e = l.errs.filter (fun e => now < e.1 + 1000000) →
      l.decoded now errs bitErrs = { l with
        symCorr := (l.symCorr + errs) % 2 ^ 32, badRun := 0, errs := if bitErrs = 0 then e else e ++ [(now, bitErrs)] }) ∧
    (∀ (s : State) (p ahead : Nat) (k : List Line) (h : Line) (x : Port), h = headOf k → x = s.port p →
      ahead = (hSeq h + 65536 - x.rxLseq) % 65536 →
      s.takePacket p k = if crcGood k = false then
          (s.modPort p fun x => { x with crcErr := min (x.crcErr + 1) 65535 }).sendNak p
        else if hCls h = 4 then (if 8 ≤ hOp h then s.modPort p fun x => { x with crcErr := min (x.crcErr + 1) 65535 }
          else s.modPort p fun x => { x with rx := x.rx ++ [(s.stampAt (.iod (dieOf p)), k)] })
        else if 4 < hCls h ∨ x.st ≠ .up then s
        else if ahead = 0 then (s.modPort p fun x => { x with
          rxLseq := (x.rxLseq + 1) % 65536, nakked := false }).acceptPacket p k
        else if 32768 ≤ ahead ∨ x.nakked = true then s else s.sendNak p) ∧
    (∀ (s u : State) (p op n : Nat) (came : Dword) (k : List Line) (h : Line) (x : Port), p < 48 → x = s.port p →
      h = headOf k → n = hAddr h % 65536 →
      x.rx.find? (fun k => hCls (headOf k.2) = 4 && hOp (headOf k.2) = op) = some (came, k) →
      u = (s.modPort p fun x => { x with rx := x.rx.erase (came, k) }) →
      (op = 0 → ∀ b, (x.replay.map fun k => hSeq (headOf k)).head? = some b → n ∈ x.replay.map (fun k => hSeq (headOf k)) →
        exec (.ack p) s = .next ((u.modPort p fun x => { x with
          replay := x.replay.filter fun k => !seqLe b (hSeq (headOf k)) n }).pump p x.txq.length)) ∧
      (op = 0 → n ∉ x.replay.map (fun k => hSeq (headOf k)) → exec (.ack p) s = .next (u.pump p x.txq.length)) ∧
      (op = 1 → exec (.nak p) s = .next (if x.st = .up then u.modPort p fun x => { x with
        replays := min (x.replays + 1) 65535, out := x.out ++ x.replay.dropWhile fun k => hSeq (headOf k) ≠ n } else u)) ∧
      (op = 2 → exec (.credit p) s = .next ((u.modPort p fun x => { x with
        peerFreed := ⟨hAddr h % 2 ^ 32, hAddr h / 2 ^ 32, hOp0 h % 2 ^ 32, hOp0 h / 2 ^ 32⟩ }).pump p x.txq.length)) ∧
      (op = 3 → ∀ (t2 t3 : Dword) (v : State), v = u.noteGm p (hOp0 h) → exec (.timeSync p t2 t3) s =
        .next (if x.st = .up ∧ tsOk (hAddr h) = true then v.sendLink p 4 (hAddr h) t2.toNat t3.toNat v.mgt.gmField else u)) ∧
      (op = 4 → ∀ (t4 : Dword) (v : State), v = u.noteGm p (hExt h) → exec (.timeResp p t4) s =
        .next (if x.st = .up ∧ tsOk (hAddr h) = true ∧ tsOk (hOp0 h) = true ∧ tsOk (hOp1 h) = true ∧ tsOk t4.toNat = true
          then (if v.mgt.parent = p
            then v.modMgt fun m => m.takeOffset (timeRespOffset h t4) (timeRespDelay h t4) else v) else u)) ∧
      (op = 5 → ∀ v, v = (u.modPort p fun x => { x with departRx := hAddr h % 16 }) → exec (.depart p) s =
        .next (if x.st = .up then v.leaveUp p (if hAddr h % 16 = 2 then .retraining else .down) true else v).chooseParent) ∧
      (op = 6 → ∀ v, v = (u.modPort p fun x => { x with
          gotAdmit := true, peerDev := hAddr h % 8192, peerPort := hAddr h / 2 ^ 16 % 64, peerCap := hAddr h / 2 ^ 24 % 256 }) →
        exec (.admitted p) s = .next (if x.st = .ready ∧ x.sentAdmit = true then v.becomeUp p else v)) ∧
      (op = 7 → ∀ (f late : Nat) (m : BitVec 9), m = BitVec.ofNat 9 (hAddr h) → f = hAddr h / 2 ^ 16 % 65536 →
        late = (x.frame + 65536 - f) % 65536 → exec (.laneMap p) s = .next (if x.st = .up then u.modPort p fun x => { x with
          mapAt := some (if 0 < late ∧ late < 32768 then x.frame else f, m), mapOwn := false
          retired := x.retired ||| droppedLanes m
          replays := if 0 < late ∧ late < 32768 then min (x.replays + 1) 65535 else x.replays } else u))) ∧
    (∀ (s : State) (p n : Nat), (s.port p).canSend = false → s.pump p n = s) ∧
    (∀ (s : State) (p op a b c d : Nat), s.sendLink p op a b c d = s.modPort p fun x => { x with out := x.out ++
      [sealed [header 4 op 0 s.mgt.ownId x.peerDev 0 0 0 a b c ||| (BitVec.ofNat 512 (d % 2 ^ 64) <<< 320)]] }) ∧
    ∀ (s : State) (p : Nat), s.becomeUp p = s.modPort p fun x => { x with
      st := .up, txLseq := 0, rxLseq := 0, acked := 0, nakked := false, replay := [], freed := {}, freedSent := {}
      peerFreed := {}, used := {}, tail := [], full := false, departed := false, failedQual := false, rr := []
      mapAt := none, mapOwn := false }

/-- Let a TIME_RESP carry t1, t2 and t3 and arrive at t4, all in range and less than half the range of ticks apart. Where
the peer's device time is o ahead of the module's and each way takes d, so that t2 = t1 + d + o and t4 = t3 - o + d in
picoseconds, the delay found is d and the offset found is o. An offset of 1 microsecond or more either way is applied
as whole ticks by a step forward or a freeze, and the rest by slewing, so that what is applied is the offset. -/
def Obligations.TimeOffsets : Prop :=
  (∀ (h : Line) (t4 : Dword) (d o : Int), tsOk (hAddr h) = true → tsOk (hOp0 h) = true → tsOk (hOp1 h) = true →
      tsOk t4.toNat = true → (tsPs (hOp0 h) : Int) = tsPs (hAddr h) + d + o → (tsPs t4.toNat : Int) = tsPs (hOp1 h) - o + d →
      (∀ a ∈ [hAddr h, hOp0 h, hOp1 h, t4.toNat], ∀ b ∈ [hAddr h, hOp0 h, hOp1 h, t4.toNat],
        2 * ((tsPs a : Int) - tsPs b) < tsRange) →
      timeRespDelay h t4 = d ∧ timeRespOffset h t4 = o) ∧
    ∀ (m : Mgt) (o d : Int), ((m.takeOffset o d).step : Int) * 1000000 - (m.takeOffset o d).freeze * 1000000 +
        (m.takeOffset o d).slewPs = o ∧ ((m.takeOffset o d).step = 0 ∨ (m.takeOffset o d).freeze = 0) ∧
      (m.takeOffset o d).slewPs.natAbs < 1000000 ∧ (m.takeOffset o d).nextTick = m.nextTick

/-- LANE_SWITCH whose frame has come puts the lanes of the map in service. LANE_RETIRE of a lane of an UP port that fails
the rule marks and counts it and raises a LINK token; with fewer than 4 good lanes the port goes DOWN, else, if the
lane was in service, LANE_MAP goes out for 64 frames on. PORT_SIGNAL_LOSS brings an UP port DOWN. ACK_TIMER sends ACK
where packets are received and not acknowledged, CREDIT_TIMER sends CREDIT and TIME_SYNC_TIMER sends TIME_SYNC, at an
UP port. AUTO_RETRAIN of a DOWN port that neither departed nor failed its qualification, 60 s after the last, begins
its training. REPLAY_DRAIN_END of a draining port drops its replay buffer. PORT_TRAINING_COMPLETE leads to QUALIFYING,
or, in restore mode with a failed eye scan, to full training. PORT_QUALIFICATION_COMPLETE leads to READY, a
full-trained port's record being saved and ADMIT sent if it can be; with fewer than 4 good lanes a full-trained port
goes DOWN and another trains in full. TRANSIT_FORWARD sends the next transit packet on by its route with HOPS one
greater, or, at 32 HOPS or without a route, drops it as unroutable. RSP goes to the request that holds its tag, or is
counted as late. REQUEST_TIMEOUT ends its request with TIMEOUT, counted. REQUEST_EXPIRED answers the oldest overdue
request: a hand-over in progress with IN_PROGRESS and the page record, one in an ox's or the port's queue, which
leaves the queue and frees its entries, with EXPIRED. A port that leaves UP drops what it had sent and looks up again
what it had queued. -/
def Obligations.PortEvents : Prop :=
  (∀ (s : State) (p f : Nat) (m : BitVec 9), p < 48 → (s.port p).mapAt = some (f, m) →
      ((s.port p).frame + 65536 - f) % 65536 < 32768 → exec (.laneSwitch p) s =
        .next (s.modPort p fun x => { x with inService := lanesOf m, mapAt := none, mapOwn := false })) ∧
    (∀ (s u : State) (p lane f : Nat) (x : Port), p < 48 → lane < 9 → (s.port p).st = .up →
      (s.port p).retired.getLsbD lane = false → ((s.port p).lanes.look {} lane).failing s.mgt.nextTick = true →
      x = { s.port p with
        retired := setBit (s.port p).retired lane, laneRetires := min ((s.port p).laneRetires + 1) 65535 } →
      u = (s.setPort p x).raiseEdge (.iod (dieOf p)) 0 0 6 5 s.mgt.nextTick false → f = (x.frame + 64) % 65536 →
      exec (.laneRetire p lane) s = .next (if x.good.length < 4 then (u.leaveUp p .down false).chooseParent
        else if x.inService.contains lane then
          (u.sendLink p 7 ((laneMask x.lanesLeft).toNat + f * 2 ^ 16) 0 0 0).modPort p fun y => { y with
            mapAt := some (f, laneMask x.lanesLeft), mapOwn := true }
        else u)) ∧
    (∀ (s : State) (p : Nat), p < 48 → (s.port p).st = .up →
      exec (.portSignalLoss p) s = .next (s.leaveUp p .down false).chooseParent ∧
      ((s.port p).acked ≠ (s.port p).rxLseq → exec (.ackTimer p) s = .next
        ((s.sendLink p 0 (((s.port p).rxLseq + 65535) % 65536) 0 0 0).modPort p fun x => { x with
          acked := (s.port p).rxLseq })) ∧
      exec (.creditTimer p) s = .next (s.sendCredit p) ∧
      (∀ t1 : Dword, exec (.timeSyncTimer p t1) s = .next (s.sendLink p 3 t1.toNat s.mgt.gmField 0 0))) ∧
    (∀ (s : State) (p : Nat), p < 48 → s.mgt.ready = true → (s.port p).st = .down → (s.port p).downByDepart = false →
      (s.port p).failedQual = false → (∀ t, (s.port p).autoTime = some t → t + 60000000 ≤ s.mgt.nextTick) →
      (s.iod (dieOf p)).st ≠ .dark → exec (.autoRetrain p) s = .next (s.modPort p fun x => { x with
        autoTime := some s.mgt.nextTick, st := .retraining, full := !s.portSaved p, sentAdmit := false, gotAdmit := false
        failedQual := false, tail := [], frames := [] })) ∧
    (∀ (s : State) (p : Nat), p < 48 → (s.port p).draining = true → exec (.replayDrainEnd p) s =
      .next (s.modPort p fun x => { x with
        draining := false, replay := [], tail := [], frames := [], nakked := false, mapAt := none, mapOwn := false })) ∧
    (∀ (s : State) (p : Nat) (ok : Bool), p < 48 → (s.port p).st = .training ∨ (s.port p).st = .retraining →
      (s.port p).draining = false → exec (.portTrainingComplete ⟨p, ok⟩) s = .next (s.modPort p fun x =>
        if x.full = true ∨ ok = true then { x with st := .qualifying } else { x with full := true })) ∧
    (∀ (s u : State) (p : Nat) (bad : List Nat) (x : Port), p < 48 → (∀ l ∈ bad, l < 9) → (s.port p).st = .qualifying →
      x = { s.port p with retired := laneMask bad, mapAt := none, mapOwn := false } → u = s.setPort p x →
      (x.good.length < 4 → exec (.portQualificationComplete p bad) s = .next (u.setPort p (if x.full
        then { x with st := .down, failedQual := true, downByDepart := false }
        else { x with st := if s.mgt.ready then .retraining else .training, full := true }))) ∧
      (4 ≤ x.good.length → exec (.portQualificationComplete p bad) s =
        .next (((if x.full then u.modMgt fun m => m.save (4, p) x.peerKey else u).setPort p { x with
          st := .ready, inService := x.lanesLeft, failedQual := false }).tryAdmit p))) ∧
    (∀ (s u : State) (p : Nat) (came : Dword) (k : List Line) (h : Line), p < 48 → s.mgt.devValid = true →
      (s.iod (dieOf p)).st ≠ .dark → h = headOf k →
      (s.port p).rx.find? (fun k => 1 ≤ hCls (headOf k.2) && hCls (headOf k.2) ≤ 3 && !s.isOwn (headOf k.2)) =
        some (came, k) → u = (s.modPort p fun x => { x with rx := x.rx.erase (came, k) }) →
      (∀ q, hHops h + 1 < 32 → u.routeTo (dieOf p) (hDst h) = some q → exec (.transitForward p) s = .next
        ((u.modIod (dieOf p) fun x => { x with transit := (x.transit + 1) % 2 ^ 32 }).queueAt q p
          (setField h 24 8 (hHops h + 1) :: k.drop 1))) ∧
      (32 ≤ hHops h + 1 ∨ u.routeTo (dieOf p) (hDst h) = none →
        exec (.transitForward p) s = .next (u.noRoute (dieOf p) p k))) ∧
    (∀ (s u : State) (p d : Nat) (came : Dword) (k : List Line), p < 48 → d = hTag (headOf k) / 16384 →
      (s.port p).rx.find? (fun k => hCls (headOf k.2) = 2 && s.isOwn (headOf k.2)) = some (came, k) →
      u = (s.modPort p fun x => { x with rx := x.rx.erase (came, k) }).freeCredit p 2 k.length →
      (∀ q, (u.iod d).outstanding.find? (fun q => q.tag = hTag (headOf k)) = some q →
        exec (.rsp p) s = .next (u.answered d q (hStatus (headOf k)) (k.drop 1))) ∧
      ((u.iod d).outstanding.find? (fun q => q.tag = hTag (headOf k)) = none →
        exec (.rsp p) s = .next (u.modIod (dieOf p) fun x => { x with lateRsp := min (x.lateRsp + 1) 65535 }))) ∧
    (∀ (s : State) (d tag : Nat) (q : OutReq), d < 4 → (s.iod d).outstanding.find? (fun q => q.tag = tag) = some q →
      exec (.requestTimeout d tag) s = .next
        ((s.modIod d fun x => { x with timeouts := min (x.timeouts + 1) 65535 }).answered d q 24 [])) ∧
    (∀ (s : State) (p src tag came : Nat) (his : List Line → Bool) (move : Option HandOver)
      (mine : List Line → Bool) (q : GQueue), p < 48 → s.overdue p = some (src, tag, came) →
      his = (fun k => hSrc (headOf k) = src && hTag (headOf k) = tag) →
      mine = (fun k => ringKind (headOf k) = 1 && ringWho (headOf k) = p && his k) →
      move = s.moves.find? (fun m => m.port = some p && his [headOf m.req]) →
      q = (s.iod (dieOf p)).fq.look { n := 9 } (p % 12) →
      (∀ m, move = some m → exec (.requestExpired p) s = .next (({ s with moves := s.moves.map fun (r : HandOver) => if r.page = m.page then { r with port := none, req := [] } else r }).answer p
        (headOf m.req) 25 (s.page m.page).toNat [])) ∧
      (∀ x k, move = none → (List.range 16).find? (fun x => (s.site x).oxq.items.any mine) = some x →
        (s.site x).oxq.items.find? mine = some k → exec (.requestExpired p) s = .next (((s.modSite x fun y => { y with
          oxq := { y.oxq with items := y.oxq.items.erase k, rptr := (y.oxq.rptr + k.length) % 2048 } }).freed x k.length
            (dieOf p)).answer p (headOf k) 17 0 [])) ∧
      (∀ k, move = none → (∀ x, x < 16 → (s.site x).oxq.items.any mine = false) → q.items.find? his = some k →
        exec (.requestExpired p) s = .next (((s.modIod (dieOf p) fun x => { x with
          fq := x.fq.put { n := 9 } (p % 12) { q with items := q.items.erase k, rptr := (q.rptr + k.length) % 1024 } }).freed (0x100 + p) k.length
            (dieOf p)).answer p (headOf k) 17 (s.foundRecord (headOf k)) []))) ∧
    ∀ (s : State) (p : Nat) (st : PortSt) (b : Bool), s.leaveUp p st b = (s.port p).txq.foldl State.lookAgain
      (s.modPort p fun x => { x with
        st := st, downByDepart := b, txq := [], tail := [], frames := [], nakked := false, mapAt := none, mapOwn := false
        sentAdmit := false, gotAdmit := false, draining := false, gmValid := false, replay := [], full := !s.portSaved p })

/-- PHASE_FAIL of a phase not yet failed completes: it is marked, logged, counted in PWR_ERR with a POWER token and
exported; the region is NORMAL at 1,300 MHz with up to 16 failed phases, RATE_CAPPED at 25 x (64 - failed) MHz up to
24, and asks to go dark with 25 or more. TRIP of a block that is not isolated, or is enabled again, completes with the
error, the region isolated, for good at a second trip within 1 s of re-enabling, and not enabled again. To isolate a
region is to make it ISOLATED, to take its own feed and its partner's second feed away, a plane without feeds
stopping, to switch its rail off with the contents of its tiles, and to ask for a hold in a run. BLOCK_REENABLE, 1 s
after a trip that may end, completes: both feeds are back, planes that were stopped acquire, and a half-rate ramp is
asked for. DROP_MEASUREMENT of a steady current of 100 A or more with a characterised baseline completes with drop,
baseline, ratio and streaks shown; the third in a row above 1.5 times the baseline marks a crack, limits the region to
220 A and is reported; above 2.5 times it isolates the region for good. RAMP_RECHECK of a waiting ramp, fewer than two
neighbours loaded, fewer than four ramps and no earlier one waiting, starts it, at half rate beside one.
RAMP_WAIT_LONG after 1 ms records the wait and limits the neighbours to 255 A. RAMP_COMPLETE ends the ramp with the
rail up, or, where a reason to be off stands, dark again, and frees the neighbours that no other long wait limits. -/
def Obligations.RegionPower : Prop :=
  (∀ (s u : State) (r ph n : Nat), r < 40 → ph < 64 → (s.region r).pwr.phFailed.getLsbD ph = false →
      n = popcount (setBit (s.region r).pwr.phFailed ph) →
      u = (((s.modPwr r fun p => { p with
        phFailed := setBit p.phFailed ph
        topMhz := if n ≤ 16 then 1300 else if n ≤ 24 then 25 * (64 - n) else p.topMhz
        st := if p.st = .dark ∨ p.st = .isolated then p.st else if n ≤ 16 then .normal else .capped }).log 7 2
          (phaseIndex r ph)).pwrError r 0 2).cper
            { source := 7, unitKind := 7, finding := 2, unit := phaseIndex r ph, published := true } →
      exec (.phaseFail r ph) s = .next (if 25 ≤ n then u.requestDark r .phases else u)) ∧
    (∀ (s : State) (r : Nat) (p : HenPwr), r < 40 → p = (s.region r).pwr → p.st ≠ .isolated ∨ p.reEnabled = true →
      exec (.trip r) s = .next (((s.pwrError r 1 5).isolate r (p.reEnabled && decide (s.now ≤ p.reTime + 1000000))).modPwr r
        fun p => { p with reEnabled := false })) ∧
    (∀ (s u : State) (r : Nat) (final : Bool) (x : Region), x = s.region r →
      u = ((s.modPwr r fun p => { p with
        st := .isolated, cause := .none, wantDark := none, darkTime := s.now, tripTime := s.now
        noReturn := p.noReturn || final }).feedLost r).railsOff r →
      s.isolate r final = if x.ctl.run then u.report r x.pwr.iAvg 1 else u) ∧
    (∀ (s u v : State) (r q : Nat), q = partner r →
      u = (s.modPwr r fun p => { p with feedOwn := false }).modPwr q (fun p => { p with feedNb := false }) →
      v = (if (u.region r).pwr.feedOwn = true ∨ (u.region r).pwr.feedNb = true then u else u.planeOff r) →
      s.feedLost r = if (v.region q).pwr.feedOwn = true ∨ (v.region q).pwr.feedNb = true then v else v.planeOff q) ∧
    (∀ (s u : State) (r : Nat), u = (s.modPwr r fun p => { p with
        railOff := true, railUp := false, ramping := false, rampWait := false }).abandonTests r →
      s.railsOff r = (keysIn u.tiles r).foldl (fun u n => u.modTile n Tile.lost) u) ∧
    (∀ (s : State) (r bit cause : Nat), s.pwrError r bit cause = (s.modPwr r fun p => { p with
      err := setBit p.err bit, errCount := min (p.errCount + 1) 65535
      errTime := if p.errValid then p.errTime else s.now, errValid := true }).raise r 5 cause 0x7FFF
        (s.region r).clk.count true) ∧
    (∀ (s : State) (r q : Nat), r < 40 → q = partner r → (s.region r).pwr.st = .isolated → (s.region r).pwr.noReturn = false →
      (s.region r).pwr.reEnabled = false → (s.region r).pwr.tripTime + 1000000 ≤ s.now →
      exec (.blockReenable r) s = .next (((((s.modPwr r fun p => { p with
        reEnabled := true, reTime := s.now, feedOwn := true, halfRate := true }).modPwr q fun p => { p with
        feedNb := true }).feedCheck r).feedCheck q).requestRamp r)) ∧
    (∀ (s : State) (r : Nat), s.requestRamp r = s.modPwr r fun p =>
      if p.rampWait || p.ramping || p.railUp then p else { p with rampWait := true, rampSince := s.now }) ∧
    (∀ (s u v : State) (r drop amps low high base k k25 : Nat) (p : HenPwr), r < 40 → p = (s.region r).pwr →
      base = baseAt amps (s.mgt.dropBins.look [] r) → 0 < base → 100 ≤ amps → 20 * (high - low) < amps →
      k = (if 3 * base < 2 * drop then min (p.streak + 1) 15 else 0) →
      k25 = (if 5 * base < 2 * drop then min (p.streak25 + 1) 15 else 0) →
      u = s.modPwr r (fun p => { p with
        drop := min drop 4095, base := min base 4095, ratio := min (256 * drop / base) 4095, streak := k
        streak25 := k25 }) →
      v = (if 3 ≤ k ∧ p.crack = false then ((u.modPwr r fun p => { p with crack := true, limitA := 220 }).pwrError r 2 6).cper
        { source := 7, unitKind := 7, unit := r, published := true } else u) →
      exec (.dropMeasurement r drop ⟨amps, low, high⟩) s =
        .next (if 3 ≤ k25 ∧ p.st ≠ .isolated then (v.pwrError r 1 5).isolate r true else v)) ∧
    (∀ (s : State) (r loaded : Nat), r < 40 → (s.region r).pwr.rampWait = true → loaded < 2 →
      ((List.range 40).filter fun q => (s.region q).pwr.ramping).length < 4 → s.earlierRamp r = false →
      exec (.rampRecheck r loaded) s = .next (s.modPwr r fun p => { p with
        rampWait := false, ramping := true, halfRate := p.halfRate || loaded = 1 })) ∧
    (∀ (s : State) (r : Nat), r < 40 → (s.region r).pwr.rampWait = true → (s.region r).pwr.rampSince + 1000 ≤ s.now →
      exec (.rampWaitLong r) s = .next ((adjacent r).foldl (fun u q => u.modPwr q fun p => { p with near255 := true })
        (s.pwrNote r 6))) ∧
    ∀ (s u : State) (r : Nat) (p q : HenPwr), r < 40 → p = (s.region r).pwr → p.ramping = true →
      q = { p with ramping := false, halfRate := false, railUp := true, railOff := false } →
      (p.reason = none ∧ u = s.modPwr r (fun _ => q)) ∨
        (∃ c, p.reason = some c ∧ p.st = .isolated ∧ u = s.modPwr r fun _ => { q with railUp := false }) ∨
        (∃ c, p.reason = some c ∧ p.st ≠ .isolated ∧ u = s.modPwr r fun _ => { q with
          st := .dark, cause := c, railUp := false }) →
      exec (.rampComplete r) s = .next ((adjacent r).foldl (fun u q =>
        if (adjacent q).any (fun z => z ≠ r && u.longWait z) then u
        else u.modPwr q fun p => { p with near255 := false }) u)

/-- RETENTION_ENTRY of a region that wants to be dark, its rail not ramping and no run moving it, completes: it is DARK
with its cause, its rail down, its tests abandoned. RETENTION_EXIT, the rail up, LAG at or below 0 and no reason to be
off, completes with its STATE again and the hold withdrawn in a run. DARK_RUN_KILL of a running partition's region off
past its limit announces the stop. DERATE below 90 C ends derating; at 90 C or more it derates, with an error.
HEAT_OFF, THERM_TRIP: each completes with its error and a request to go dark, which an isolated region ignores, a dark
one remembers, and another waits for, asking for a hold in a run. HEAT_RETURN of a region off for heat whose rail did
not go off forgets those reasons; a region without another then ramps up or withdraws its request. THERM_TRIP_RAIL_OFF
of a dark tripped region switches its rail off. IOD_HOT turns a die TRANSIT_ONLY with a POWER token, IOD_COOL ends
that, IOD_TRIP makes it depart and stay dark until the next boot with a POWER token. COOLANT_LOSS is recorded; in a
powered module from stage 2 it makes every region ask to go dark, every die TRANSIT_ONLY, and sends a POWER token.
COOLANT_RAIL_CHECK 20 ms on switches off a half that still heats; COOLANT_DEPART 10 s on makes every die depart and go
dark; COOLANT_RETURN is recorded and, before any rail went off, regions return, dark ports go DOWN and dies return. -/
def Obligations.RegionHeat : Prop :=
  (∀ (s : State) (r : Nat) (c : DarkCause), r < 40 → (s.region r).pwr.wantDark = some c → (s.region r).pwr.ramping = false →
      (s.region r).ctl.run = false ∨ (s.region r).ctl.held = true → exec (.retentionEntry r) s = .next ((s.modPwr r fun p =>
        { p with
          st := .dark, cause := p.darkFor c, wantDark := none, darkTime := s.now, railUp := false
          rampWait := false }).abandonTests r)) ∧
    (∀ (s u : State) (r : Nat) (x : Region), r < 40 → x = s.region r → x.dark = true → x.pwr.railUp = true →
      x.clk.lag.le (fracInt 0) = true → x.pwr.reason = none → x.pwr.noReturn = false →
      u = s.modPwr r (fun p => { p with st := p.service, cause := .none }) →
      exec (.retentionExit r) s = .next (if x.ctl.run then u.report r x.pwr.iAvg 2 else u)) ∧
    (∀ (s : State) (r n : Nat), r < 40 → killAfter (s.region r).pwr = some n → (s.region r).ctl.assigned = true →
      s.running (s.region r).ctl.part = true → (s.region r).pwr.darkTime + n ≤ s.now →
      exec (.darkRunKill r) s = .next (s.announceStop (s.region r).ctl.part 2)) ∧
    (∀ (s : State) (r temp : Nat), r < 40 → exec (.derate r temp) s = .next (if temp < 90
      then s.modPwr r fun p => { p with derate := none }
      else (s.modPwr r fun p => { p with derate := some temp }).pwrError r 3 8)) ∧
    (∀ (s : State) (r : Nat), r < 40 → exec (.heatOff r) s = .next ((s.pwrError r 4 9).requestDark r .heat) ∧
      exec (.thermTrip r) s = .next ((s.pwrError r 5 0x0A).requestDark r .trip)) ∧
    (∀ (s u v : State) (r : Nat) (c : DarkCause) (x : Region), u = s.modPwr r (fun p => p.hold c) → x = s.region r →
      v = u.modPwr r (fun p => { p with wantDark := some c }) →
      s.requestDark r c = if x.pwr.st = .isolated then u
        else if x.pwr.st = .dark then u.modPwr r fun p => { p with cause := p.darkFor c, rampWait := false }
        else if x.ctl.run then v.report r x.pwr.iAvg 1 else v) ∧
    (∀ (s : State) (r : Nat) (p : HenPwr), r < 40 → p = (s.region r).pwr → p.railOff = false →
      (p.heatOff = true ∨ p.tripOff = true → exec (.heatReturn r) s = .next ((s.modPwr r fun p => { p with
        heatOff := false, tripOff := false }).reasonGone r)) ∧
      (p.st = .dark → p.tripOff = true → exec (.thermTripRailOff r) s = .next (s.railsOff r))) ∧
    (∀ (s u : State) (r : Nat) (x : Region), x = s.region r → u = s.modPwr r (fun p => { p with wantDark := none }) →
      (x.pwr.st = .dark → x.pwr.reason = none → s.reasonGone r = if x.pwr.railOff then s else s.requestRamp r) ∧
      (∀ c, x.pwr.st = .dark → x.pwr.reason = some c → s.reasonGone r = s.modPwr r fun p => { p with cause := p.darkFor c }) ∧
      (x.pwr.st ≠ .dark → x.pwr.wantDark = none → s.reasonGone r = s) ∧
      (x.pwr.st ≠ .dark → x.pwr.wantDark ≠ none → x.pwr.reason = none →
        s.reasonGone r = if x.ctl.run then u.report r x.pwr.iAvg 2 else u) ∧
      (∀ c, x.pwr.st ≠ .dark → x.pwr.wantDark ≠ none → x.pwr.reason = some c →
        s.reasonGone r = s.modPwr r fun p => { p with wantDark := some c })) ∧
    (∀ (s : State) (d : Nat), d < 4 →
      ((s.iod d).hotOnly = false → exec (.iodHot d) s =
        .next ((s.setDie d fun x => { x with hotOnly := true }).raiseEdge (.iod d) 0 0 5 9 s.now false)) ∧
      exec (.iodCool d) s = .next (s.setDie d fun x => { x with hotOnly := false }) ∧
      ((s.iod d).darkTillBoot = false → exec (.iodTrip d) s = .next (((s.departDie d 1 .dark).setDie d fun x => { x with
        darkTillBoot := true }).raiseEdge (.iod d) 0 0 5 0x0A s.now false))) ∧
    (∀ (s u : State) (d : Nat) (f : Iod → Iod), u = s.modIod d (fun x => (f x).settle) →
      s.setDie d f = if (s.iod d).st = .running ∧ (u.iod d).st ≠ .running then u.abortDie d else u) ∧
    (∀ x : Iod, x.settle = { x with
      st := if x.st = .absent then .absent else if x.darkTillBoot then .dark
        else if x.hotOnly || x.coolOnly || x.laneOnly then .transitOnly else .running }) ∧
    (∀ (s u : State), s.mgt.coolantOk = true → u = s.modMgt (fun m => { m with
        coolantOk := false, coolantLost := some m.nextTick }) →
      exec .coolantLoss s = .next (if s.mgt.pwrOk = true ∧ 2 ≤ s.mgt.stage ∧ s.mgt.stopped = false then
        ((List.range 4).foldl (fun v d => v.setDie d fun x => { x with coolOnly := true }) ((List.range 40).foldl (fun v r =>
          (v.pwrNote r 7).requestDark r .coolant) u)).fly .mc (faultTok .mc 0 0 5 0x0B 0x7FFF s.now false) else u)) ∧
    (∀ (s : State) (t0 : Nat), s.mgt.coolantOk = false → s.mgt.coolantLost = some t0 →
      (t0 + 20000 ≤ s.now → ∀ w e u, u = (if w = true ∧ s.mgt.railsOffW = false then s.halfOffNow true else s) →
        exec (.coolantRailCheck w e) s = .next (if e = true ∧ u.mgt.railsOffE = false then u.halfOffNow false else u)) ∧
      (t0 + 10000000 ≤ s.now → exec .coolantDepart s = .next ((List.range 4).foldl (fun u d =>
        (u.departDie d 4 .dark).modIod d fun x => { x with st := if x.st = .absent then .absent else .dark }) s))) ∧
    ∀ (s u : State), s.mgt.coolantOk = false → u = s.modMgt (fun m => { m with coolantOk := true, coolantLost := none }) →
      exec .coolantReturn s = .next (if s.mgt.railsOffW = false ∧ s.mgt.railsOffE = false then
        (List.range 4).foldl (fun v d => v.setDie d fun x => { x with coolOnly := false }) ((List.range 48).foldl (fun v p =>
          if (v.iod (dieOf p)).coolOnly && (v.port p).st == .dark && !(v.iod (dieOf p)).darkTillBoot then
            v.modPort p fun x => { x with st := .down, downByDepart := false } else v) ((List.range 40).foldl (fun v r =>
              (v.modPwr r fun p => { p with coolOff := false }).reasonGone r) u)) else u)

/-- BUDGET_INTERVAL, the controller READY and the interval not yet computed, completes: an excess over the cap in
fixed-clock mode is reported as it begins, and the budgeter computes the interval that begins at the next multiple of
100 ticks. The budgeter keeps the demand, announces the rate of that interval, at most 100 MHz down or 25 up toward
the target and unchanged where it may not move, and sends every hen a BUDGET. BUDGET that names its hen completes with
the budget and duty kept for their interval, which may be the present one. REPORT at the controller completes with
each region's last report; at a lead hen it asks for a POWER hold on REQ 1 and withdraws it on REQ 2 once nothing of
the partition is off or held for duty; one of another partition counts as stale, and at another node it has no effect.
OVER_BUDGET_REPORT above 1.1 times the budget completes with a report sent and kept and the budgeter computing.
DUTY_SUBPERIOD of a running partition with a duty asks for a POWER hold, and DUTY_HOLD_END below 20 twentieths
withdraws it. FLOOR_RECOMPUTE sets the floor to the power at 600 MHz with all regions held, over 0.97. -/
def Obligations.PowerBudget : Prop :=
  (∀ (s : State) (m : PowerMeas) (k : Nat), s.mgt.ready = true → 0 < m.etaNum → 0 < m.etaDen → k = (s.now / 100 + 1) * 100 →
      s.mgt.interval ≠ s.now / 100 + 1 → exec (.budgetInterval m) s =
        .next (((s.excess m).modMgt fun g => { g with interval := s.now / 100 + 1 }).budgeter m k)) ∧
    (∀ (s u : State) (m : PowerMeas) (ex : Nat),
      ex = (if s.mgt.fixedOn = true ∧ s.mgt.appliedW ≠ 0 then m.inputW10 - s.mgt.appliedW else 0) →
      u = s.modMgt (fun g => { g with excessW := ex }) → s.excess m = if s.mgt.excessW = 0 ∧ 0 < ex
        then u.fly .mc (faultTok .mc 0 0 5 7 0x7FFF s.now false) else u) ∧
    (∀ (s : State) (m : PowerMeas) (k f : Nat) (stays : Prop), f = s.nextF m k →
      stays = (s.mgt.fixedOn = true ∨ (s.mgt.modeWait = true ∧ s.mgt.fixed = true) ∨ k < s.now + 2) →
      (stays → f = (s.mgt.fNext.map (·.2)).getD s.mgt.fMhz) ∧ (¬ stays → f = stepF s.mgt.fMhz (s.targetF m)) ∧
      ∀ next, (stays ∧ next = s.mgt.fNext) ∨ (¬ stays ∧ next = if f = s.mgt.fMhz then none else some (k, f)) →
        s.budgeter m k = (List.range 40).foldl (fun u r => u.sendBudget m f (k / 100) r) (s.modMgt fun g => { g with
          demandW := (s.powerAt m 1200 0).floor.toNat % 65536, fNext := next })) ∧
    (∀ f t : Nat, (t < f → f ≤ stepF f t + 100 ∧ t ≤ stepF f t ∧ stepF f t < f) ∧
      (f < t → stepF f t = f + 25) ∧ (t = f → stepF f t = f)) ∧
    (∀ (s : State) (r : Nat) (k : Token), Heard s r 6 1 k → bits k.pay 5 0 = r → exec (.budget r k) s =
      .next ((s.landed (.hen r) k).modPwr r fun p => { p with
        nextBudget := some (bits k.pay 39 32, bits k.pay 21 8, bits k.pay 26 22) }.beginInterval (s.now / 100))) ∧
    (∀ (p : HenPwr) (n i b d : Nat), p.nextBudget = some (i, b, d) → p.beginInterval n = if i = n % 256 then { p with
      budget := b, duty := d, interval := n % 65536, nextBudget := none } else p) ∧
    (∀ (s : State) (k : Token), k.cls = 6 → k.kind = 2 → reservedToken k = false →
      exec (.report .mc k) s = .next ((s.landed .mc k).modMgt fun m =>
      { m with reports := m.reports.put (0, 0, 0) (bits k.pay 5 0) (bits k.pay 21 8, bits k.pay 37 24, bits k.pay 45 38) })) ∧
    (∀ (s u : State) (r : Nat) (k : Token) (c : HenCtl), Heard s r 6 2 k → c = (s.region r).ctl → u = s.landed (.hen r) k →
      exec (.report (.hen r) k) s = .next (if c.assigned = true ∧ c.part = k.part.toNat then
        (if c.lead = true then u.leadReport r (repReq k) else u) else u.stale r)) ∧
    (∀ (s : State) (k : Token) (n : Nat), (n < 20000 → exec (.report (.tile n) k) s = .next s) ∧
      (n < 16 → exec (.report (.site n) k) s = .next s) ∧ (n < 4 → exec (.report (.iod n) k) s = .next s)) ∧
    (∀ (s : State) (l q : Nat), s.leadReport l q = if q = 1 then s.holdRequest l 0 8
      else if q = 2 ∧ (s.region l).pwr.heldPower = false ∧ (∀ r ∈ s.partRegions (s.region l).ctl.part,
        (s.region r).dark = false ∧ (s.region r).pwr.wantDark = none) then s.resumeRequest l 8 else s) ∧
    (∀ (s u : State) (r amps : Nat) (m : PowerMeas) (p : HenPwr), r < 40 → s.mgt.ready = true → 0 < m.etaNum → 0 < m.etaDen →
      11 * (s.region r).pwr.budget < 10 * amps → u = s.report r amps 0 → p = (u.region r).pwr →
      exec (.overBudgetReport r amps m) s = .next ((u.modMgt fun g => { g with
        reports := g.reports.put (0, 0, 0) r (min amps 16383, p.pred, p.phase) }).budgeter m ((s.now / 100 + 1) * 100))) ∧
    (∀ (s : State) (p l : Nat), p < 16 → s.leadOf p = some l →
      (s.running p = true → s.now % 10 = 0 → 0 < (s.region l).pwr.duty → s.mgt.fixedOn = false →
        (s.region l).pwr.heldPower = false → exec (.dutySubperiod p) s =
          .next ((s.modPwr l fun q => { q with heldPower := true }).holdRequest l 0 8)) ∧
      ((s.region l).pwr.heldPower = true → (s.region l).pwr.duty < 20 ∨ s.mgt.fixedOn = true →
        exec (.dutyHoldEnd p) s = .next ((s.modPwr l fun q => { q with heldPower := false }).leadReport l 2))) ∧
    ∀ (s : State) (m : PowerMeas), s.mgt.ready = true → 0 < m.etaNum → 0 < m.etaDen → exec (.floorRecompute m) s =
      .next (s.modMgt fun g => { g with
        floorW := ((s.powerAt m 600 20).mul (fracOf 100 97)).ceil.toNat % 65536 })

/-- POWER_GOOD at stage 0 without PWR_OK completes at stage 1 of a new boot, powered, PERST_N counting as low until its
window ends, with the training and interleave modes of the configuration record. CONTROLLER_FIRMWARE at stage 1
completes at stage 2, or 9 after READY, with the active slot where its image is accepted and it has not failed, else
the other; with neither, in RECOVERY with code 1. HALF_ALWAYS_ON_POWER at stage 2, or after a first stop with code 4,
5 or 6, completes with every region fed and stage 3, or, without power, stopped with code 4. FUSE_MAPS at stage 3
completes with the fused units bad, the sites and dies that are not fitted ABSENT and stage 4, or, with a bad check,
stopped with code 2. SEAM_AND_BRIDGE_REPAIR at stage 4 completes with the logged and found seam groups and wires
tested and stage 5; BIST at stage 5, the rails up, with its findings kept and stage 6; FLOOR_PLAN_MERGE at stage 6
with them merged with the log and stage 7. REFCLK at stage 7 without reference completes stopped with code 5;
LINK_TRAINING with it completes stopped with code 7 where a capability word disagrees and 3 where the halves' levels
differ; else, where the tick tree reaches every fed hen, it completes with stage 8, the origin tick set, the device
level, temperature bands and links to be trained in full kept, every fitted stack, die and port trained, the tick tree
built and the regions' clocks begun. ERROR_RATE_QUALIFICATION at stage 8 completes with the wires, lanes, segments,
channels and crossings found bad out of use, the links that passed saved and stage 9. PUBLICATION at stage 9 completes
with the boot's interleave, the channels in use, the lost planes locked again where they can be, the first map
published and READY. STAGE_TIMEOUT from stage 2 to 9 completes stopped with code 6. WATCHDOG_EXPIRY from stage 2 on
completes at stage 1, counted; the third in a row fails the slot, and with both failed the module is in RECOVERY with
code 1, unpowered. -/
def Obligations.BringUp : Prop :=
  (∀ s : State, s.mgt.stage = 0 → s.mgt.pwrOk = false → exec .powerGood s = .next (s.modMgt fun m => { m with
      powered := true, pwrOk := true, stage := 1, boot := m.boot + 1, perstLow := true, perstWindow := true
      restore := m.cfgRestore, bootStriped := m.cfgStriped })) ∧
    (∀ (s : State) (a : Bool), s.mgt.powered = true → s.mgt.stage = 1 → s.mgt.stopped = false → s.mgt.recovery = false →
      a = (if (s.mgt.slotOf s.mgt.cfgSlot).failed then !s.mgt.cfgSlot else s.mgt.cfgSlot) →
      (∀ b, s.mgt.pickSlot a = some b → exec .controllerFirmware s = .next (s.modMgt fun m => { m with
          slot := b, svn := Config.firmwareSvn (m.slotOf b).bytes
          restarts := if b = m.slot ∧ m.ready = false then m.restarts else 0, stage := if m.ready then 9 else 2 })) ∧
      (s.mgt.pickSlot a = none → exec .controllerFirmware s =
        .next (s.modMgt fun m => { m with recovery := true, fail := 1 }).unpower)) ∧
    (∀ (m : Mgt) (a : Bool) (ok : Bool → Prop), (∀ b, ok b ↔ (m.slotOf b).failed = false ∧ fwGood (m.slotOf b).bytes = true) →
      (ok a → m.pickSlot a = some a) ∧ (¬ ok a → ok (!a) → m.pickSlot a = some (!a)) ∧
      (¬ ok a → ¬ ok (!a) → m.pickSlot a = none)) ∧
    (∀ (s q : State), q = s.modMgt Mgt.retry → q.works 2 = true →
      exec (.halfAlwaysOnPower true) s = .next (((List.range 40).foldl (fun v r => v.feedUp r) q).modMgt fun m => { m with
        stage := 3 }) ∧
      exec (.halfAlwaysOnPower false) s = .next (q.modMgt fun m => m.halt 4)) ∧
    (∀ (m : Mgt) (code : Nat), m.halt code = { m with stopped := true, fail := code } ∧
      (m.stopped = true → m.retried = false → m.fail = 4 ∨ m.fail = 5 ∨ m.fail = 6 →
        m.retry = { m with retried := true, stopped := false, fail := 0, stage := 2 }) ∧
      (m.stopped = false ∨ m.retried = true ∨ (m.fail ≠ 4 ∧ m.fail ≠ 5 ∧ m.fail ≠ 6) → m.retry = m)) ∧
    (∀ (s u : State) (f : Fuses), s.works 3 = true → f = s.mgt.fuses →
      (f.checkOk = true → u = { s with units := {
          tiles := f.tiles.foldl (fun (a : Tab Nat) t => a.put 0 t 1) [], badRouters := f.routers
          planeLost := s.units.planeLost } } →
        exec .fuseMaps s = .next (((List.range 4).foldl (fun v d => v.modIod d fun x => { x with
          st := if iodFitted f d then .running else .absent, hotOnly := false, laneOnly := false, darkTillBoot := false })
            ((List.range 16).foldl (fun v x => v.modSite x fun y => { y with
              st := if hbmFitted f x then .ok else .absent }) u)).modMgt fun m => { m with stage := 4 })) ∧
      (f.checkOk = false → exec .fuseMaps s = .next (s.modMgt fun m => m.halt 2))) ∧
    (∀ (s : State) (q : SeamFindings), s.works 4 = true → (∀ g ∈ q.groups, isSeam g.1 = true) →
      (∀ w ∈ q.wires, isWire (.bridge w.1 w.2.1 w.2.2) = true) → exec (.seamAndBridgeRepair q) s = .next
        (((q.groups.foldl (fun s g => s.seamTest g.1 g.2.1 g.2.2) s.oldSeams).testWires 5
          (q.wires.map fun w => .bridge w.1 w.2.1 w.2.2)).modMgt fun m => { m with stage := 5 })) ∧
    (∀ (s : State) (q : BistFindings), s.works 5 = true → (∀ r, r < 40 → (s.region r).dark = true ∨ (s.region r).pwr.railUp = true) →
      (∀ t ∈ q.tiles, t < 20000) → (∀ t ∈ q.routers, t < 20000) → (∀ r ∈ q.hens, r < 40) →
      (∀ p ∈ q.phases, p.1 < 40 ∧ p.2 < 64) → (∀ x ∈ q.hbmStaging, x < 16) → (∀ d ∈ q.iodStaging, d < 4) →
      (∀ r ∈ q.tripped, r < 40) → exec (.bist q) s = .next
        ((s.modUnits fun u => { u with bist := some q }).modMgt fun m => { m with stage := 6, bistRuns := m.bistRuns + 1 })) ∧
    (∀ (s a b c e g h i : State) (q : BistFindings) (f : Fuses), s.works 6 = true → s.units.bist = some q → f = s.mgt.fuses →
      a = (f.tiles ++ s.mgt.loggedAs 1 2 ++ s.mgt.loggedAs 1 3 ++ q.tiles).foldl (fun v t => v.mergeTile q t) s →
      b = a.mergeUnits 2 f.routers q.routers (fun t v => v.modUnits fun u => { u with
        badRouters := if u.badRouters.contains t then u.badRouters else t :: u.badRouters }) →
      c = b.mergeUnits 3 f.hens q.hens State.badHen →
      e = c.mergeUnits 7 (f.phases.map fun p => phaseIndex p.1 p.2) (q.phases.map fun p => phaseIndex p.1 p.2) State.badPhase →
      g = e.mergeUnits 9 (f.hbmStaging.map (fun x => stagingIndex (.hbm x)) ++ f.iodStaging.map fun d => stagingIndex (.iod d))
        (q.hbmStaging.map (fun x => stagingIndex (.hbm x)) ++ q.iodStaging.map fun d => stagingIndex (.iod d))
        State.badStaging →
      h = g.mergeUnits 8 [] [] State.badChannel → i = q.tripped.foldl (fun v r => v.isolate r false) h →
      exec .floorPlanMerge s = .next (i.modMgt fun m => { m with stage := 7 })) ∧
    (∀ (s a b c d e g h : State) (q : TrainFindings) (f : Fuses), s.works 7 = true → f = s.mgt.fuses →
      (s.mgt.refLost = true → exec .refclk s = .next (s.modMgt fun m => m.halt 5)) ∧
      (s.mgt.refLost = false → (∀ k ∈ q.segments, k < 20) → (∀ p ∈ q.ticks, p.1 < 40 ∧ p.2.1 < 6) → (∀ p ∈ q.mbps, p.1 < 16) →
        (∀ p ∈ q.peers, p.1 < 48) →
        (capsMatch f q = false → exec (.linkTraining q) s = .next (s.modMgt fun m => m.halt 7)) ∧
        (capsMatch f q = true → ifLevel f.stepWest ≠ ifLevel f.stepEast → exec (.linkTraining q) s = .next
          (s.modMgt fun m => { m with numLevel := deviceLevel f, stopped := true, fail := 3 })) ∧
        (capsMatch f q = true → ifLevel f.stepWest = ifLevel f.stepEast →
          s.treeReaches q.ticks (s.units.trained q) = true →
          a = (s.modMgt fun m => { m with
            numLevel := deviceLevel f, bands := q.temps.foldl (fun t p => t.put 0 p.1 (bandOf p.2)) [] }).modMgt (fun m =>
              { m with fullLinks := m.inFull q.eyeBad }) →
          b = ((List.range 16).filter fun x => hbmFitted f x).foldl (fun v x => v.modSite x fun y =>
            y.train (Tab.look 0 q.mbps x)) a →
          c = (fittedDies f).foldl (fun v d => v.modIod d fun x => { x with capLevel := if f.iodS.getLsbD d then 1 else 2 }) b →
          d = q.peers.foldl (fun v p => v.modPort p.1 fun x => { x with peerKey := p.2 }) (c.modUnits fun u => u.trained q).cutOff →
          e = ((List.range 48).filter fun p => iodFitted f (dieOf p)).foldl (fun v p =>
            if (v.port p).st = .dark ∧ (v.iod (dieOf p)).st ≠ .dark then v.modPort p fun x => { x with
              st := .training, full := !v.mgt.restore || !v.mgt.savedOk (4, p) x.peerKey } else v) d →
          g = e.growTree q.ticks →
          h = (List.range 40).foldl (fun v r => v.modRegion r fun x => { x with
            clk := if x.clk.on then x.clk.origin0 v.now else { x.clk with count := 0, expect := 0, lag := {} }
            ctl := { x.ctl with tBase := 0 } }) g →
          exec (.linkTraining q) s = .next (h.modMgt fun m => { m with
            originSet := true, bistTime := m.nextTick, stage := 8 })))) ∧
    (∀ (s a b c d e : State) (q : QualFindings), s.works 8 = true → (∀ w ∈ q.wires, isWire (.bridge w.1 w.2.1 w.2.2) = true) →
      (∀ w ∈ q.lanes, isWire (.iodLane w.1 w.2.1 w.2.2) = true) → (∀ k ∈ q.segments, k < 20) →
      (∀ c ∈ q.channels, c.1 < 16 ∧ c.2 < 32) →
      a = s.testWires 5 (q.wires.map fun w => .bridge w.1 w.2.1 w.2.2) →
      b = a.testWires 6 ((q.lanes.filter fun w => iodFitted a.mgt.fuses w.1).map fun w => .iodLane w.1 w.2.1 w.2.2) →
      c = (b.modUnits fun u => { u with
        segments := u.segments ++ q.segments.filter fun k => !u.segments.contains k }).cutOff →
      d = q.channels.foldl (fun v x => v.failChannel x.1 x.2) c →
      e = d.modUnits (fun u => { u with
        northBad := u.northBad || !q.northCrossing, southBad := u.southBad || !q.southCrossing
        xjoin := (u.northBad || !q.northCrossing) && !(u.southBad || !q.southCrossing) }) →
      exec (.errorRateQualification q) s = .next ((e.saveLinks q.fell).modMgt fun m => { m with stage := 9, restarts := 0 })) ∧
    (∀ (s a b : State), s.works 9 = true →
      a = ((List.range 16).filter fun x => hbmFitted s.mgt.fuses x).foldl (fun v x => v.modSite x fun y => { y with
        chans := (List.range 32).filter fun c => !y.chFailed.getLsbD c, bootFailed := decide (y.st = .failed) }) s →
      b = a.modMgt (fun m => { m with ilv := m.bootStriped, striped := m.bootStriped, gen := 0, restarts := 0 }) →
      exec .publication s = .next (b.relock.publish.modMgt fun m => { m with ready := true })) ∧
    (∀ s : State, 2 ≤ s.mgt.stage → s.works s.mgt.stage = true → exec .stageTimeout s = .next (s.modMgt fun m => m.halt 6)) ∧
    (∀ s : State, s.mgt.powered = true → 2 ≤ s.mgt.stage → s.mgt.recovery = false → s.mgt.stopped = false →
      exec .watchdogExpiry s = .next (s.modMgt Mgt.restart).unpower) ∧
    (∀ m n : Mgt, n = { m with
        restarts := m.restarts + 1, stage := 1, act := if m.act = .running then .failed else m.act } →
      (m.restarts < 2 → m.restart = n) ∧ (2 ≤ m.restarts → m.restart = n.dropSlot)) ∧
    (∀ m n : Mgt, n = m.setSlot m.slot { m.slotOf m.slot with failed := true } →
      m.dropSlot = if (n.slotOf (!m.slot)).failed then { n with recovery := true, fail := 1 } else { n with restarts := 0 }) ∧
    ∀ s : State, (s.mgt.recovery = false → s.unpower = s) ∧ (s.mgt.recovery = true → s.unpower =
      ((List.range 40).foldl (fun v r => (v.railsOff r).planeOff r) s).modMgt fun m => { m with ready := false })

/-- ACTIVATION_HEALTHY within 10 s of the activation completes with the slot that runs active; ACTIVATION_TIMEOUT at 10 s
completes with the other slot running again, the activation FAILED with status 23. SPDM_RECOVERY_IMAGE in RECOVERY,
over I3C with an address, completes with the image in the slot not in use, which becomes active, at stage 1, where the
image is accepted; where it is not, it changes nothing. ENTDAA after power good completes with the address given.
PERST_N_DELAY_END in its window completes with the level of PERST_N counting, a high level starting the host port's
training, or its wait for the reference. BUSBAR_SHUTDOWN completes with the module unpowered; MODULE_RESET, the
coolant good again after rails went off, completes at stage 2 of a new boot: both keep the flash, with the field
defect log, the keys and the fuses, and the host's memory, and leave partitions, pages and sessions as after reset; a
shutdown leaves tiles and stacks without contents, a reset the stacks' contents as they were. COMMANDED_SHUTDOWN
completes with every die departed and dark until the next boot. -/
def Obligations.FirmwareAndPower : Prop :=
  (∀ s : State, s.mgt.act = .running →
      (s.now < s.mgt.actTime + 10000000 → exec .activationHealthy s =
        .next (s.modMgt fun m => { m with act := .done, cfgSlot := m.slot })) ∧
      (s.mgt.actTime + 10000000 ≤ s.now → exec .activationTimeout s = .next (s.modMgt fun m => { m with
        act := .failed, actLast := 23, slot := !m.slot, svn := Config.firmwareSvn (m.slotOf (!m.slot)).bytes }))) ∧
    (∀ (s : State) (fw : List Byte), s.mgt.recovery = true → s.mgt.i3c.isSome = true →
      (fwGood (writeBytes [] 0 fw) = false → exec (.spdmRecoveryImage fw) s = .next s) ∧
      (fwGood (writeBytes [] 0 fw) = true → exec (.spdmRecoveryImage fw) s = .next (s.modMgt fun m =>
        { m.setSlot (!m.slot) { bytes := writeBytes [] 0 fw, valid := true, failed := false } with
          cfgSlot := !m.slot, recovery := false, fail := 0, stage := 1, restarts := 0 }))) ∧
    (∀ (s : State) (a : BitVec 7), s.mgt.pwrOk = true →
      exec (.entdaa a) s = .next (s.modMgt fun m => { m with i3c := some a })) ∧
    (∀ s : State, s.mgt.pwrOk = true → s.mgt.perstWindow = true → exec .perstNDelayEnd s = .next (s.modMgt fun m => { m with
      perstWindow := false, perstLow := !m.perstPin, pcieTraining := m.pcieTraining || (m.perstPin && !m.refLost)
      pcieWait := m.pcieWait || (m.perstPin && m.refLost) })) ∧
    (∀ (s : State) (m : Mgt), m = s.mgt → m.coolantOk = true → m.railsOffW = true ∨ m.railsOffE = true →
      exec .moduleReset s = .next (s.clearedWarm { m.flash with
        stage := 2, slot := m.slot, svn := m.svn, pwrOk := m.pwrOk, perstLow := m.perstLow, perstPin := m.perstPin
        perstWindow := m.perstWindow, pcieTraining := m.pcieTraining, pcieWait := m.pcieWait, i3c := m.i3c
        restore := m.cfgRestore, bootStriped := m.cfgStriped, slotA := m.slotA, slotB := m.slotB, boot := m.boot + 1
        spdmOut := m.spdmOut, accCount := m.accCount })) ∧
    (∀ s : State, exec .busbarShutdown s = .next (s.cleared { s.mgt.flash with powered := false, spdmOut := s.mgt.spdmOut })) ∧
    (∀ (s : State) (m : Mgt), (s.cleared m).mgt = m ∧ (s.cleared m).host = s.host ∧ (s.cleared m).hbm = [] ∧
      (s.cleared m).tiles = [] ∧ (s.cleared m).parts = [] ∧ (s.cleared m).pages = [] ∧ (s.cleared m).sessions = [] ∧
      (s.clearedWarm m).mgt = m ∧ (s.clearedWarm m).host = s.host ∧ (s.clearedWarm m).hbm = s.hbm ∧
      (s.clearedWarm m).parts = [] ∧ (s.clearedWarm m).pages = [] ∧ (s.clearedWarm m).sessions = []) ∧
    (∀ m : Mgt, m.flash.fdl = m.fdl ∧ m.flash.fuses = m.fuses ∧ m.flash.keys = m.keys ∧ m.flash.imageKeys = m.imageKeys ∧
      m.flash.saved = m.saved ∧ m.flash.boot = m.boot ∧ m.flash.cfgSlot = m.cfgSlot ∧ m.flash.powered = true ∧
      m.flash.stage = 0 ∧ m.flash.ready = false ∧ m.flash.pwrOk = false ∧ m.flash.i3c = none) ∧
    ∀ s : State, s.mgt.ready = true → exec .commandedShutdown s = .next (((List.range 4).foldl (fun v d =>
      (v.departDie d 1 .dark).setDie d fun x => { x with darkTillBoot := true }) s).modMgt fun m => { m with darkened := true })

/-- COL_PASS_DUE of the pass that falls due next in an active channel whose beat has come, with fewer than 8 operations in
progress and no source page waiting, completes: the pass takes the next sequence number, its operation starts, and its
chunks are sent in their order, those of an ALL_GATHER to every rank. CONTRIB, RESULT, ROSTER and LATE_NOTICE of the
first such packet at a port complete. A stale packet is taken out and counted STALE; a data packet waits while the
buffer is full; one with a wrong digest is counted and its operation marked. Of a good one: a contribution or result
seen before is counted DUPLICATE; a contribution to an operation already recorded is counted late with a LATE_NOTICE
sent, a result of one counted late; one that disagrees with its descriptor is dropped as STALE (the model's choice,
log entry 140); a contribution joins its operation, or is late; a result of a chunk given up is late, another is taken
in and the channel goes on; a roster is noted once and the channel goes on, one of a recorded operation has no effect;
a LATE_NOTICE counts. CHUNK_CLOSE of a chunk that all ranks contributed to, or whose window has ended, completes: the
chunk closes, and the fold of the ranks' elements is sent as result. CHUNK_GIVE_UP of a chunk without a result that
can be applied, 2 windows and 100 microseconds after its start, completes with it missing and counted. Ranks fold in
ascending order by sum, mean, maximum or minimum. The digest log takes entries until its bank is full, swaps unless
frozen, and counts what it cannot take. -/
def Obligations.Collectives : Prop :=
  (∀ (s u v : State) (c i b t seq : Nat) (x : Chan) (d : ColDesc), c < 64 → x = s.chan c → d = x.desc i → x.st = .active →
      s.oxBeat (.iod x.home) x.part = some b → x.nextDue x.passes = some (t, i) → t ≤ b →
      (x.ops.filter (·.started)).length < 8 →
      (∀ k, k < dL d → ∀ p ∈ partsAt (dIn d) d.src.toNat d.srcScale.toNat k (dE d) (dElems d k), s.mustWait p.1 p.2 = false) →
      seq = x.next.toNat → u = s.openOp c seq →
      v = (u.modChan c fun y => { y with next := y.next + 1, passes := y.passes.put 0 i (y.passes.look 0 i + 1) }).modOp c seq
        (fun o => { o with started := true, tStart := u.chanTime c, present := List.range x.n }) →
      exec (.colPassDue c i) s = .next (((x.sendOrder d).foldl
        (if dKind d = 3 then State.sendGather c seq d else State.sendContrib c seq d) v).advance c 8)) ∧
    (∀ (s v w : State) (p c seq : Nat) (came : Dword) (k : List Line) (h : Line), h = headOf k → c = cChan h → seq = cSeq h →
      w = v.openOp c seq →
      (Collected s p 0 came k v →
        (2 ^ 31 ≤ (v.chan c).ahead seq → exec (.contrib p) s = .next (v.colSeen c 0 p h fun u =>
          (u.modChan c fun y => { y with lateRx := sat16 (y.lateRx + 1) }).colSend c (u.colPacket c
            { op := 3, dst := ((v.chan c).peer (cRank h)).1, seq := seq, chunk := cChunk h, rank := cRank h } []))) ∧
        ((v.chan c).ahead seq < 2 ^ 31 → (w.chan c).op seq = none → exec (.contrib p) s = .next w) ∧
        (∀ o d n, (v.chan c).ahead seq < 2 ^ 31 → (w.chan c).op seq = some o → d = (v.chan c).desc o.desc →
          n = dElems d (cChunk h) →
          (dKind d = 3 ∨ dL d ≤ cChunk h ∨ (v.chan c).owner (cChunk h) ≠ (v.chan c).rank ∨
            colFits (dIn d) n (chunkLines (dIn d) n) h = false → exec (.contrib p) s = .next (w.colDrop p)) ∧
          (dKind d ≠ 3 → cChunk h < dL d → (v.chan c).owner (cChunk h) = (v.chan c).rank →
            colFits (dIn d) n (chunkLines (dIn d) n) h = true → exec (.contrib p) s =
              .next (w.colSeen c 0 p h fun u => u.contribute c seq h (k.drop 1) came (u.chanTime c))))) ∧
      (Collected s p 1 came k v →
        (2 ^ 31 ≤ (v.chan c).ahead seq → exec (.result p) s = .next (v.colSeen c 1 p h fun u =>
          u.modChan c fun y => { y with lateRx := sat16 (y.lateRx + 1) })) ∧
        ((v.chan c).ahead seq < 2 ^ 31 → (w.chan c).op seq = none → exec (.result p) s = .next w) ∧
        (∀ o d n key, (v.chan c).ahead seq < 2 ^ 31 → (w.chan c).op seq = some o → d = (v.chan c).desc o.desc →
          n = dElems d (cChunk h) → key = (if dKind d = 3 then cRank h * dL d + cChunk h else cChunk h) →
          (dL d ≤ cChunk h ∨ (dKind d ≠ 3 ∧ (v.chan c).owner (cChunk h) ≠ cRank h) ∨
            colFits (dOut d) n (if dKind d = 2 then 0 else chunkLines (dOut d) n) h = false →
            exec (.result p) s = .next (w.colDrop p)) ∧
          (cChunk h < dL d → dKind d = 3 ∨ (v.chan c).owner (cChunk h) = cRank h →
            colFits (dOut d) n (if dKind d = 2 then 0 else chunkLines (dOut d) n) h = true →
            exec (.result p) s = .next (w.colSeen c 1 p h fun u => if key ∈ o.missing
              then (u.modOp c seq fun o => { o with lateRx := o.lateRx ++ [(1, cRank h)] }).modChan c fun y => { y with
                lateRx := sat16 (y.lateRx + 1) }
              else (u.takeResult c seq h (k.drop 1) []).advance c 8)))) ∧
      (Collected s p 2 came k v → (2 ^ 31 ≤ (v.chan c).ahead seq → exec (.roster p) s = .next v) ∧
        ((v.chan c).ahead seq < 2 ^ 31 → exec (.roster p) s = .next ((w.modOp c seq fun o =>
          if o.rosters.any (fun q => q.1 = cChunk h && q.2.1 = cSeg h) then o else { o with
          rosters := o.rosters ++ [(cChunk h, cSeg h, (List.range 2048).filterMap fun j =>
            if (leNat ((k.drop 1).flatMap lineBytes)).testBit j then some (2048 * cSeg h + j) else none)] }).advance c 8))) ∧
      (Collected s p 3 came k v → exec (.lateNotice p) s = .next
        ((v.modChan c fun y => { y with lateTx := sat16 (y.lateTx + 1) }).modOp c seq fun o =>
          { o with lateFlag := true, lateSent := o.lateSent + 1 }))) ∧
    (∀ (s : State) (c kind p : Nat) (h : Line) (f : State → State) (q : Nat × Nat × Nat × Nat), q = (cSeq h, kind, cChunk h, cRank h) →
      (q ∈ (s.chan c).seen → s.colSeen c kind p h f = s.modIod (dieOf p) fun y => { y with
        duplicate := sat16 (y.duplicate + 1) }) ∧
      (q ∉ (s.chan c).seen → s.colSeen c kind p h f = f (s.modChan c fun x => { x with
        seen := (x.seen.filter fun e =>
          (s.chan c).ahead e.1 < 64 || 2 ^ 31 ≤ (s.chan c).ahead e.1) ++ [q] })) ∧
      s.colDrop p = s.modIod (dieOf p) fun y => { y with stale := sat16 (y.stale + 1) }) ∧
    (∀ (s u : State) (c seq : Nat) (h : Line) (data : List Line) (came now : Dword) (x : Chan) (o : ColOp) (late : Prop), x = s.chan c →
      x.op seq = some o → (late ↔ cChunk h ∈ o.closed ∨ ∃ q, o.opened.find? (fun q => q.1 = cChunk h) = some q ∧
        lateAfter came q.2 (dWindow (x.desc o.desc)) = true) →
      (¬ late → s.contribute c seq h data came now = s.modOp c seq fun o => { o with
        opened := if o.opened.any (fun q => q.1 = cChunk h) then o.opened else o.opened ++ [(cChunk h, now)]
        contribs := o.contribs ++ [{
          chunk := cChunk h, rank := cRank h, elems := cElems h, data := data, time := now, digest := cDigest h }]
        rcvdDig := o.rcvdDig ++ [(0, cRank h, cChunk h, cDigest h)] }) ∧
      (late → u = (s.modOp c seq fun o => { o with lateRx := o.lateRx ++ [(0, cRank h)] }).modChan c (fun y => { y with
          lateRx := sat16 (y.lateRx + 1) }) →
        (cRank h = x.rank → s.contribute c seq h data came now = u.lateNoticed c seq) ∧
        (cRank h ≠ x.rank → s.contribute c seq h data came now = u.colSend c (u.colPacket c
          { op := 3, dst := (x.peer (cRank h)).1, seq := seq, chunk := cChunk h, rank := cRank h } [])))) ∧
    (∀ (s u v : State) (p op c seq : Nat) (came : Dword) (k : List Line) (h : Line) (e : Instr), p < 48 →
      (op, e) ∈ [(0, Instr.contrib p), (1, .result p), (2, .roster p), (3, .lateNotice p)] → h = headOf k → c = cChan h →
      seq = cSeq h →
      (s.port p).rx.find? (fun k => hCls (headOf k.2) = 3 && hOp (headOf k.2) = op && s.isOwn (headOf k.2)) = some (came, k) →
      u = (s.modPort p fun x => { x with rx := x.rx.erase (came, k) }).freeCredit p 3 k.length →
      (s.colStale h = true → exec e s = .next (u.modIod (dieOf p) fun y => { y with stale := sat16 (y.stale + 1) })) ∧
      (s.colStale h = false → 262144 ≤ s.colLines (s.chan c).home → 0 < hData h → exec e s = .next s) ∧
      (s.colStale h = false → s.colLines (s.chan c).home < 262144 ∨ hData h = 0 → colDigest k ≠ cDigest h →
        v = u.modChan c (fun y => { y with digestRej := sat16 (y.digestRej + 1) }) →
        exec e s = .next ((if 2 ^ 31 ≤ (s.chan c).ahead seq then v else v.openOp c seq).modOp c seq fun o => { o with
          rejectFlag := true, rejected := o.rejected ++ [(if op = 0 then 0 else 1, cRank h)] }))) ∧
    (∀ (s : State) (c seq ch : Nat) (x : Chan) (o : ColOp) (t0 : Dword) (cs : List Contrib), c < 64 → x = s.chan c →
      x.st = .active → x.op seq = some o → o.opened.find? (fun q => q.1 = ch) = some (ch, t0) → ch ∉ o.closed →
      cs = o.contribs.filter (fun q => q.chunk = ch) →
      cs.length = x.n ∨ lateAfter (s.chanTime c) t0 (dWindow (x.desc o.desc)) = true → exec (.chunkClose c seq ch) s = .next
        (((s.modOp c seq fun o => { o with
          closed := o.closed ++ [ch]
          contribs := o.contribs.map fun q => if q.chunk = ch then { q with data := [] } else q }).sendResult c seq ch
            (x.desc o.desc) ((List.range x.n).filter fun r => cs.any fun q => q.rank = r)
            (cs.foldl (fun a q => if 0 < tsDiff q.time.toNat a.toNat then q.time else a) t0)
            (foldChunk (s.chanSela c) x (x.desc o.desc) seq ch cs)).advance c 8)) ∧
    (∀ (s : State) (c seq ch : Nat) (x : Chan) (o : ColOp), c < 64 → x = s.chan c → x.st = .active → x.op seq = some o →
      o.started = true → ch ∈ x.keys (x.desc o.desc) → ch ∉ o.missing →
      (∀ r ∈ o.results, ¬ (resKey (x.desc o.desc) r = ch ∧ x.applicable (x.desc o.desc) o r = true)) →
      lateAfter (s.chanTime c) o.tStart (giveUpAfter (x.desc o.desc)) = true →
      exec (.chunkGiveUp c seq ch) s = .next (((s.modOp c seq fun o => { o with
        missing := o.missing ++ [ch] }).modChan c fun y => { y with missing := sat16 (y.missing + 1) }).advance c 8)) ∧
    (∀ (a b : Word) (xs : List Word), foldRanks 0 [a] = a ∧ foldRanks 0 (a :: xs ++ [b]) = fadd (foldRanks 0 (a :: xs)) b ∧
      foldRanks 2 (a :: xs ++ [b]) = fmax (foldRanks 2 (a :: xs)) b ∧
      foldRanks 3 (a :: xs ++ [b]) = fmin (foldRanks 3 (a :: xs)) b ∧
      foldRanks 1 (a :: xs) = meanOf (foldRanks 0 (a :: xs)) (xs.length + 1)) ∧
    ∀ (l : DigestLog) (e : BitVec 256), (32768 ≤ l.entries → l.add e = { l with discards := sat16 (l.discards + 1) }) ∧
      (l.entries < 32767 → (l.add e).entries = l.entries + 1 ∧ (l.add e).fill = l.fill) ∧
      (l.entries = 32767 → l.freeze = false → (l.add e).entries = 0 ∧ (l.add e).fill = !l.fill)

/-- RESIDUE_MISMATCH of a sum that disagrees modulo 7 with the residues carried to it, formed at most 16 beats ago by an
array of a tile that is not dark, or by a router output that was adding or is under test, completes: the check is
counted at the tile with its first unit and beat kept, a test in progress is hit, and a RESIDUE token is raised.
TILE_DUE, TILE_OVERDUE and TILE_LAPSED of a GOOD tile 20, 23 and 24 h after its last test complete with that state,
the latter two reported, a lapse counted. IDLE_REGION_TEST of a due idle tile of a region without image completes with
its test begun, and FALLOW_WINDOW at an occurrence of a window of the running image with the tests of every due tile
it names begun. IFT_COMPLETE 1,920,000 beats after its test began completes: a failed loop of routers under test
clears ROUTER_OK; part B runs again, or the test ends with its result; the last test of a pause ends the hen's part in
it. A hit or a failed scan is a FAIL; otherwise the outcome decides, a mismatch only after it has run twice. A test
that ends leaves its tile CURRENT, or SUSPECT where unresolved, without its arrays' and its area's contents; a FAIL
makes the tile FAILED, raising a TILE token in a run, and a second unresolved one RETIRED. GRANT completes with a
pause begun at the region of a running image with a step period, at the first pause point at least 96 beats ahead,
unless one waits already, and elsewhere with NO_PAUSE set. TEST_OVERDUE and TEST_LAPSED at the controller complete
with the test event and a record. TEST_GRANT completes with the hen waiting for the pause of the hen it names;
TEST_DONE at the coordinator with the hen it names no longer awaited, and with the pause over when none is; at another
hen it has no effect. -/
def Obligations.InFieldTests : Prop :=
  (∀ (s : State) (t unit beat now : Nat) (router tested region : Bool) (sum : Int) (carried : List Nat) (x : Region), t < 20000 →
      unit < (if router then 5 else 4) → x = s.region (regionOf t) →
      tested = ((s.tile t).test.st == .testing && (!router || (s.tile t).test.routers)) →
      region = (tested || !x.ctl.run || (router && (s.router t).transit unit)) →
      now = (if region then x.clk.count else x.ctl.sched) → beat ≤ now → now ≤ beat + 16 → residueAgrees sum carried = false →
      (router = true → x.planeOn = true ∧ (tested = true ∨ (s.router t).addsAt x.ctl unit beat = true)) →
      (router = false → x.dark = false) → exec (.residueMismatch t router unit ⟨beat, sum, carried⟩) s =
        .next ((s.modTile t fun y => { y with test := { y.test with
          arrSeen := y.test.arrSeen || !router, rtrSeen := y.test.rtrSeen || router
          array := if router || y.test.arrSeen then y.test.array else unit
          port := if router && !y.test.rtrSeen then unit else y.test.port
          arrCount := if router then y.test.arrCount else sat16 (y.test.arrCount + 1)
          rtrCount := if router then sat16 (y.test.rtrCount + 1) else y.test.rtrCount
          resBeat := if y.test.resValid then y.test.resBeat else beat
          resRegion := if y.test.resValid then y.test.resRegion else region, resValid := true
          hit := y.test.hit || tested } }).raise (regionOf t) 3 (if router then 16 + unit else unit) t beat region)) ∧
    (∀ (sum : Int) (l : List Nat), residueAgrees sum l = true ↔ sum % 7 = ((l.foldl (fun a r => (a + r) % 7) 0 : Nat) : Int)) ∧
    (∀ (s : State) (t : Nat), t < 20000 → s.mgt.originSet = true → s.tileState t = 0 →
      (s.lastTest t + 20 * 3600000000 ≤ s.now → (s.tile t).test.st = .current →
        exec (.tileDue t) s = .next (s.moveTest t .due)) ∧
      (s.lastTest t + 23 * 3600000000 ≤ s.now → (s.tile t).test.st = .current ∨ (s.tile t).test.st = .due →
        exec (.tileOverdue t) s = .next (s.moveTest t .overdue)) ∧
      (s.lastTest t + 24 * 3600000000 ≤ s.now →
        (s.tile t).test.st = .current ∨ (s.tile t).test.st = .due ∨ (s.tile t).test.st = .overdue →
        exec (.tileLapsed t) s = .next (s.moveTest t .lapsed))) ∧
    (∀ (s u : State) (t : Nat) (st : TestSt), u = s.modTile t (fun x => { x with test := { x.test with st := st } }) →
      (st = .due → s.moveTest t st = u) ∧
      (st = .overdue → s.moveTest t st = u.reportTests (regionOf t) 0 (· == .overdue)) ∧
      (st = .lapsed → s.moveTest t st = (u.modTest (regionOf t) fun h => { h with
        lapses := sat16 (h.lapses + 1) }).reportTests (regionOf t) 3 (· == .lapsed))) ∧
    (∀ (s : State) (t : Nat) (c : HenCtl), t < 20000 → s.mgt.ready = true → c = (s.region (regionOf t)).ctl →
      c.assigned = false ∨ (s.part c.part).st = .empty → (s.region (regionOf t)).dark = false → (s.tile t).st = .idle →
      isDue (s.tile t).test.st = true →
      exec (.idleRegionTest t) s = .next (s.startTests [t] { place := 0, routers := true })) ∧
    (∀ (s : State) (r i : Nat) (g : Image) (f : ImgFallow) (c : HenCtl), r < 40 → c = (s.region r).ctl → (s.part c.part).img = some g →
      g.fallow[i]? = some f → c.run = true → c.held = false → f.region = r → occurs f.start f.period c.sched = true →
      exec (.fallowWindow r i) s = .next (s.startTests ((regionTiles r).filter fun t => namesTile f t && isDue (s.tile t).test.st)
        { place := 1, area := some f.testLine, routers := f.router, roomy := decide (3840000 ≤ f.length) })) ∧
    (∀ (s u v : State) (t r : Nat) (o : TestOutcome) (routerOk second : Bool) (p : TestRegs), t < 20000 → p = (s.tile t).test →
      p.st = .testing → r = regionOf t → p.beganAt + 1920000 ≤ (s.region r).clk.count →
      u = (if routerOk || !p.routers then s else s.routerBad t 2 2) →
      second = (p.before == .suspect || (u.tile p.partner).test.before == .suspect) →
      (testResult p (u.tile t).scanFails second o = none ∧ v = u.modTile t fun x => { x with
          test := x.test.again (u.region r).clk.count }) ∨
        (∃ res, testResult p (u.tile t).scanFails second o = some res ∧ v = u.endTest t res) →
      exec (.iftComplete t o routerOk) s = .next (if p.place = 2 ∧ (v.region r).test.pending = true ∧
          v.testTiles r (· == .testing) = [] then (v.modTest r fun h => { h with
            tested := 0, failed := false }).pauseDone r (v.region r).test.tested (v.region r).test.failed else v)) ∧
    (∀ (p : TestRegs) (scan second : Bool) (o : TestOutcome), (p.hit = true ∨ scan = true → testResult p scan second o = some 2) ∧
      (p.hit = false → scan = false → testResult p scan second .pass = some 1 ∧ testResult p scan second .failA = some 2 ∧
        testResult p scan second .failC = some 2 ∧ testResult p scan second .mismatch = none ∧
        (p.reran = false → testResult p scan second .refereeAgainst = none ∧ testResult p scan second .refereeFor = none ∧
          testResult p scan second .noReferee = none) ∧
        (p.reran = true → testResult p scan second .refereeAgainst = some 2 ∧ testResult p scan second .refereeFor = some 1 ∧
          testResult p scan second .noReferee = some (if second then 4 else 3)))) ∧
    (∀ (p : TestRegs) (n : Nat), (p.roomy = true → p.again n = { p with reran := true, beganAt := n }) ∧
      (p.roomy = false → p.again n = { p with
        st := if p.before = .current then .due else p.before, rerunDue := true, hit := false })) ∧
    (∀ (s u v : State) (t r res : Nat), r = regionOf t →
      u = ({ s with free := s.free + 1 } : State).modTile t (fun x => { x.afterTest (s.testArea t) with test := { x.test with
        st := if res = 3 then .suspect else .current, result := if res = 4 then 3 else res
        last := if res = 1 then x.test.opened else s.now, tests := sat16 (x.test.tests + 1), hit := false } }) →
      v = (if (s.tile t).test.place = 2 then u.modTest r fun h => { h with
        tested := h.tested + 1, failed := h.failed || decide (res = 2) } else u) →
      s.endTest t res = if res = 2 then (if (s.region r).ctl.run then (v.tileBad t 2 2).raise r 0 0x20 t (s.region r).ctl.sched false
        else v.tileBad t 2 2) else if res = 4 then v.tileBad t 3 2 else v) ∧
    (∀ (s : State) (w : Party) (r : Nat), r < 40 → Permitted s w (.rgn r) 0x600 1 →
      (s.oneBits w (.rgn r) 0x600).getLsbD 0 = true → exec (.grant w r) s = .next ((s.modTest r fun t => t).grant r)) ∧
    (∀ (s : State) (r p : Nat) (x : Region), x = s.region r → p = x.ctl.part →
      ((s.part p).img = none ∨ x.ctl.assigned = false ∨ s.running p = false → s.grant r = s.modTest r fun t => { t with
        noPause := true }) ∧
      (∀ i, (s.part p).img = some i → i.stepPeriod = 0 → s.grant r = s.modTest r fun t => { t with noPause := true }) ∧
      (∀ i, (s.part p).img = some i → x.ctl.assigned = true → s.running p = true → 0 < i.stepPeriod →
        ((∃ q ∈ s.partRegions p, (s.region q).test.pending = true) → s.grant r = s) ∧
        ((∀ q ∈ s.partRegions p, (s.region q).test.pending = false) → s.grant r = (((s.modTest r fun t => { t with
          pending := true, coord := true, coordRegion := r, waiting := s.partRegions p }).henQueue r
            (s.henToken r 5 1 0 2 (testPay r 0 false x.ctl.runGen.toNat))).askLead r 6
              (pausePoint i.stepStart i.stepPeriod x.ctl.sched) 4)))) ∧
    (∀ start period now : Nat, 0 < period → now + 96 ≤ pausePoint start period now ∧
      occurs start period (pausePoint start period now) = true ∧
      ∀ b, occurs start period b = true → now + 96 ≤ b → pausePoint start period now ≤ b) ∧
    (∀ (s : State) (k : Token), k.cls = 5 → reservedToken k = false → ∀ f,
      f = ({ source := 6, unitKind := 3, unit := bits k.pay 5 0, severity := 3 } : Finding) →
      (k.kind.toNat = 0 → exec (.testOverdue k) s = .next (((s.landed .mc k).event 0 3).cper f)) ∧
      (k.kind.toNat = 3 → exec (.testLapsed k) s = .next (((s.landed .mc k).event 0 3).cper f))) ∧
    ∀ (s u v : State) (r : Nat) (k : Token), u = s.landed (.hen r) k →
      (Heard s r 5 1 k → exec (.testGrant r k) s = .next (u.modTest r fun t => { t with
        pending := true, coordRegion := bits k.pay 5 0 })) ∧
      (Heard s r 5 2 k → (s.region r).test.coord = false → exec (.testDone r k) s = .next u) ∧
      (Heard s r 5 2 k → (s.region r).test.coord = true → v = u.modTest r (fun t => { t with
          waiting := t.waiting.erase (bits k.pay 5 0) }) →
        ((v.region r).test.waiting ≠ [] → exec (.testDone r k) s = .next v) ∧
        ((v.region r).test.waiting = [] → exec (.testDone r k) s = .next
          (((v.partRegions (v.region r).ctl.part).foldl (fun w q => w.modTest q fun t => { t with
            pending := false, coord := false }) v).askLead r 7 0 4)))

/-- WIRE_RETIRE of a fitted wire in service whose link is not DOWN completes with its corrections counted; where it was
not FAILING yet and the count reaches 64 within 1 s, or 16 in consecutive beats, a free spare takes its place and the
link is SPARED, else the wire goes FAILING, the link FAILING at the first wire of its check group and DOWN at the
second, each logged with a LINK token and a record, and an alternate table set is loaded for a FAILING link.
DOUBLE_WIRE_ERROR completes with the words of the check group spoilt and a token, and at the second such beat within 1
s with the link DOWN. HEN_POLL completes: answered, the missed polls are 0 and the fault queue is drained; missed, it
is counted, and the third in a row makes the hen FAILED, its tiles FAILED, and isolates its region until the next
boot. RING_SEGMENT_FAIL of a segment not yet failed completes with it failed and what is cut off out of use;
CONTROL_CROSSING_FAIL with the crossing failed, the south one joining where the north has failed. MAP_PUBLICATION
completes with regained planes locked again and, where the map has changed, published under the next even GEN with the
event raised. CPER_MERGE_RELEASE completes with the first held record, 1 s old, on the export queue. TELEMETRY_SWAP of
a region with a fed plane completes: the frame is in the bank that was filled, the banks change over under the next
number, the measures are kept, and a report is sent. -/
def Obligations.UnitsAndReports : Prop :=
  (∀ (s u : State) (w v : WireId) (n k : Nat), isWire w = true → wireFitted s.mgt.fuses w = true → s.units.carries w = some v →
      s.wireDown v = false → u = s.modUnits (fun x => x.correct w s.now n) →
      (w ∈ s.units.badWires ∨ (u.units.inSecond w s.now < 64 ∧ k < 16) → exec (.wireRetire ⟨w, n, k⟩) s = .next u) ∧
      (w ∉ s.units.badWires → 64 ≤ u.units.inSecond w s.now ∨ 16 ≤ k →
        (u.units.spareFree w = true → exec (.wireRetire ⟨w, n, k⟩) s =
          .next (((u.modUnits fun x => x.useSpare w).wireState v 1).wireFound w v 1 1)) ∧
        (u.units.spareFree w = false → u.units.groupFailing w = true → exec (.wireRetire ⟨w, n, k⟩) s =
          .next (((u.modUnits fun x => x.failing w).wireState v 3).wireFound v v 4 3)) ∧
        (u.units.spareFree w = false → u.units.groupFailing w = false → exec (.wireRetire ⟨w, n, k⟩) s =
          .next ((((u.modUnits fun x => x.failing w).wireState v 2).wireFound v v 2 2).alternate v)))) ∧
    (∀ (s u : State) (w v : WireId) (g : Nat × Nat), isWire w = true → wireFitted s.mgt.fuses w = true →
      s.units.carries w = some v → s.wireDown v = false → g = checkGroup v →
      u = (s.spoil v).modUnits (fun x => { x with
        doubles := (g.1, g.2, (s.spoil v).now) :: x.doubles.filter fun q => !(q.1 = g.1 && q.2.1 = g.2) }) →
      ((∃ t, (g.1, g.2, t) ∈ s.units.doubles ∧ s.now ≤ t + 1000000) →
        exec (.doubleWireError w) s = .next ((u.wireState v 3).wireFound v v 4 4)) ∧
      ((∀ t, (g.1, g.2, t) ∈ s.units.doubles → t + 1000000 < s.now) →
        exec (.doubleWireError w) s = .next (u.wireToken v 4))) ∧
    (∀ (s u : State) (w v : WireId) (finding cause : Nat), u = s.log (wireIndex w).1 finding (wireIndex w).2 →
      s.wireFound w v finding cause = (u.wireToken v cause).cper {
        source := 3, unitKind := (wireIndex w).1, finding := finding, unit := (wireIndex w).2
        severity := if finding = 1 then 2 else 0, published := true }) ∧
    (∀ (s u v : State) (r : Nat), r < 40 → s.mgt.ready = true → (s.region r).henBad = false →
      exec (.henPoll r true) s = .next (s.modRegion r fun x => { x with
        missedPolls := 0, faults := (List.range x.faults.items.length).foldl (fun q _ => q.pop) x.faults }) ∧
      (u = s.modRegion r (fun x => { x with missedPolls := x.missedPolls + 1 }) →
        ((s.region r).missedPolls < 2 → exec (.henPoll r false) s = .next u) ∧
        (2 ≤ (s.region r).missedPolls → v = (u.modRegion r fun x => { x with henBad := true }).henTiles r →
          exec (.henPoll r false) s = .next (((v.log 3 2 r).cper {
            source := 7, unitKind := 3, finding := 2, unit := r, published := true }).isolate r true)))) ∧
    (∀ (s : State) (g : Nat), g < 20 → g ∉ s.units.segments → exec (.ringSegmentFail g) s =
      .next ((s.modUnits fun u => { u with segments := u.segments ++ [g] }).cutOff)) ∧
    (∀ (s : State) (south : Bool), exec (.controlCrossingFail south) s = .next (s.modUnits fun u => { u with
        northBad := u.northBad || !south, southBad := u.southBad || south
        xjoin := u.xjoin || ((u.northBad || !south) && !(u.southBad || south)) })) ∧
    (∀ s : State, s.mgt.ready = true →
      (s.relock.mgt.pub = some s.relock.floor → exec .mapPublication s = .next s.relock) ∧
      (s.relock.mgt.pub ≠ some s.relock.floor → exec .mapPublication s = .next s.relock.publish)) ∧
    (∀ s : State, s.relock = s.modUnits fun u => { u with planeLost := u.planeLost.filter fun r =>
      !((s.region r).planeOn && (s.region r).clk.st == .locked) }) ∧
    (∀ s : State, s.publish.mgt.gen = BitVec.ofNat 32 (nextGen s.mgt.gen) ∧
      s.publish.mgt.pub = some { s.floor with changedAt := s.now } ∧ (s.publish.fn 0).events.getLsbD 0 = true) ∧
    (∀ g : BitVec 32, nextGen g % 2 = 0 ∧ 2 ≤ nextGen g ∧ nextGen g < 2 ^ 32 ∧
      (g.toNat % 2 = 0 → g.toNat < 0xFFFFFFFE → nextGen g = g.toNat + 2)) ∧
    (∀ (s : State) (c : Cper) (cs : List Cper), s.mgt.cperHeld = c :: cs → c.time + 1000000 ≤ s.now →
      exec .cperMergeRelease s = .next ((s.modMgt fun m => { m with cperHeld := cs }).exportCper c)) ∧
    (∀ (s : State) (r v : Nat) (m : TlmMeas) (n : BitVec 32), r < 40 → (s.region r).planeOn = true →
      v = (s.vRail r s.mgt.fMhz).floor.toNat → n = (s.region r).tlm.seq + 1 → exec (.telemetrySwap r m) s = .next
        ((s.modRegion r fun x => { x with
          tlm := x.tlm.swap (BitVec.ofNat 1024 (leNat (frameBytes x n.toNat s.now v m))) n x.clk x.ctl.held
          pwr := { x.pwr with
            iAvg := min m.iAvg 16383, iPeak := min m.iPeak 16383, vSet := v, vMin := min m.vMin 1023, tMax := m.tMax
            tHigh := if x.pwr.tHigh.toInt < m.tMax.toInt then m.tMax else x.pwr.tHigh, hot := m.hot % 16 } }).report r
              m.iAvg 0)) ∧
    ∀ (q : Telemetry) (f : BitVec 1024) (n : BitVec 32) (k : HenClk) (held : Bool), (q.swap f n k held).fill = (!q.fill) ∧
      (q.swap f n k held).seq = n ∧ (q.fill = false → (q.swap f n k held).bank0 = f ∧ (q.swap f n k held).bank1 = q.bank1) ∧
      (q.fill = true → (q.swap f n k held).bank1 = f ∧ (q.swap f n k held).bank0 = q.bank0)

/-- A permitted DOORBELL write completes: while a request waits it sets REFUSED and changes nothing else; else the banks
change over, and the request waits, or, with an unknown opcode or a payload above 4,088 bytes, is answered INVALID at
once. Each request that waits completes with an answer. FDL_READ answers up to 255 entries from a first one, or
INVALID where it asks for none, for more, or is too short; CONFIG_READ the three settings; CONFIG_WRITE takes three
bytes of 0 or 1, and is INVALID otherwise or too short; FW_WRITE puts bytes into the slot not in use, which is then
not committed, and is INVALID with less than 4 or more than 4,084 bytes; FW_COMMIT commits an authentic image there,
in RECOVERY starting it, or answers SIGNATURE; KEY_BOOTSTRAP enrols the first ADMIN key while the table is empty,
answers LOCKED when it is not, and INVALID without a key. To answer is to write status and payload into the bank and
to end the wait. -/
def Obligations.MailboxRequests : Prop :=
  (∀ (s : State) (w : Party), Permitted s w .mgt 0x50 1 → (s.oneBits w .mgt 0x50).getLsbD 0 = true →
      exec (.doorbell w) s = .next (s.modMgt Mgt.doorbell)) ∧
    (∀ m n : Mgt, (m.mboxBusy = true → m.doorbell = { m with mboxRefused := true }) ∧
      (m.mboxBusy = false → n = { m with mboxFill := !m.mboxFill, swaps := m.swaps + 1, mboxBusy := true } →
        m.doorbell = if mbxNum n.drainBank 0 2 = 0 ∨ 6 < mbxNum n.drainBank 0 2 ∨ 4088 < mbxNum n.drainBank 2 2
          then n.respond 1 [] else n)) ∧
    (∀ (s : State) (n first count : Nat), Requested s 1 n → first = leNat (s.mgt.mbxBytes 0 4) →
      count = leNat (s.mgt.mbxBytes 4 2) →
      (6 ≤ n → 1 ≤ count → count ≤ 255 → exec .fdlRead s =
        .next (s.respond 0 (((s.mgt.fdl.drop first).take count).flatMap fdlBytes))) ∧
      (n < 6 ∨ count = 0 ∨ 255 < count → exec .fdlRead s = .next (s.respond 1 []))) ∧
    (∀ (s : State) (n : Nat), Requested s 2 n → exec .configRead s = .next (s.respond 0
      [BitVec.ofNat 8 (b2n s.mgt.cfgSlot), BitVec.ofNat 8 (b2n s.mgt.cfgRestore), BitVec.ofNat 8 (b2n s.mgt.cfgStriped)])) ∧
    (∀ (s : State) (n : Nat) (b : List Byte), Requested s 3 n → b = s.mgt.mbxBytes 0 3 →
      (3 ≤ n → (∀ x ∈ b, x.toNat ≤ 1) → exec .configWrite s = .next ((s.modMgt fun m => { m with
        cfgSlot := b.getD 0 0 = 1, cfgRestore := b.getD 1 0 = 1, cfgStriped := b.getD 2 0 = 1 }).respond 0 [])) ∧
      (n < 3 ∨ (∃ x ∈ b, 1 < x.toNat) → exec .configWrite s = .next (s.respond 1 []))) ∧
    (∀ (s : State) (n : Nat), Requested s 4 n →
      (4 ≤ n → n ≤ 4084 → exec .fwWrite s = .next ((s.modMgt fun m => m.setSlot (!m.slot) { m.slotOf (!m.slot) with
        bytes := writeBytes (m.slotOf (!m.slot)).bytes (leNat (m.mbxBytes 0 4)) (s.mgt.mbxBytes 4 (n - 4))
        valid := false }).respond 0 [])) ∧
      (n < 4 ∨ 4084 < n → exec .fwWrite s = .next (s.respond 1 []))) ∧
    (∀ (s : State) (n : Nat) (x : FwSlot), Requested s 5 n → x = s.mgt.slotOf (!s.mgt.slot) →
      exec .fwCommit s = .next (if fwGood x.bytes = false then s.respond 13 []
        else if s.mgt.recovery = true then (s.modMgt fun m => m.recover x.bytes).respond 0 []
        else (s.modMgt fun m => m.setSlot (!m.slot) { x with valid := true }).respond 0 [])) ∧
    (∀ (s : State) (n : Nat), Requested s 6 n →
      (n = 0 → exec .keyBootstrap s = .next (s.respond 1 [])) ∧
      (0 < n → (∀ i, i < 16 → s.mgt.keys.look none i = none) → exec .keyBootstrap s = .next ((s.modMgt fun m => { m with
        keys := m.keys.put none 0 (some { key := s.mgt.mbxBytes 0 n, role := .admin, mask := 0 }) }).respond 0 [])) ∧
      (0 < n → (∃ i, i < 16 ∧ s.mgt.keys.look none i ≠ none) → exec .keyBootstrap s = .next (s.respond 24 []))) ∧
    ∀ (s : State) (st : Nat) (bs : List Byte), (s.respond st bs).mgt.mboxBusy = false ∧
      (s.respond st bs).mgt.fdl = s.mgt.fdl ∧ (s.respond st bs).mgt.keys = s.mgt.keys ∧
      (s.respond st bs).mgt.mboxFill = s.mgt.mboxFill

/-- The CQ is full when (TAIL + 1) mod 2^n = HEAD. While it is full no SQ entry is fetched, whatever asks for it, and a
completion joins the ones that wait, in order, with no byte of the host's memory changed; once there is room, the
oldest waiting completion is the next one written. (R374) -/
def Obligations.FullCompletionRing : Prop :=
  (∀ x : Fn, x.cqFull = true ↔ (x.cqTail + 1) % 2 ^ x.cqLog = x.cqHead) ∧
    (∀ (s : State) (f n : Nat), (s.fn f).cqFull = true → s.fetchRing f n = s) ∧
    (∀ (s : State) (f : Nat) (e : CqEntry), (s.fn f).cqFull = true →
      s.complete f e = s.modFn f fun x => { x with waitCq := x.waitCq ++ [e] }) ∧
    ∀ (s : State) (f n : Nat) (e : CqEntry) (es : List CqEntry), (s.fn f).waitCq = e :: es →
      ((s.fn f).cqFull = true → s.drainCq f n = s) ∧
      ((s.fn f).cqFull = false → (s.fn f).cqOn = true → s.drainCq f (n + 1) =
        ((s.modFn f fun x => { x with waitCq := es }).complete f e).drainCq f n)

/-- TAIL, HEAD and ENABLE where the party may write the register, and REGISTER_WRITE of any register that it may write,
complete with the write's effect; a REGISTER_WRITE that reaches no register, or one that may not be read, completes
with the access error recorded. A tail below the ring's size is taken and entries are fetched, and one of 2^n or more
is ignored and raises RING_ERR; a head between the old one and the tail is taken and lets waiting completions out, any
other is ignored and raises RING_ERR. Setting ENABLE of a submission ring sets the head and the tail to 0 and the
phase to 1. A fetched entry joins the queue with the head moved on. A completion is written as one 32-byte entry at
the tail, with a message. -/
def Obligations.HostRings : Prop :=
  (∀ (s u : State) (w : Party) (f n tail : Nat) (host : List (Nat × Byte)) (v : Dword), f ≤ 16 → tail < 4096 →
      u = s.hostBytes host → v = setField (u.pageReg f 0x10) 0 12 tail → Permitted u w (.page f) 0x10 v →
      u.rwBits w (.page f) 0x10 ≠ 0 → n = bits (u.taken w (.page f) 0x10 v) 11 0 →
      exec (.tail w f tail host) s = .next (u.writeTail f n)) ∧
    (∀ (s : State) (w : Party) (f n head : Nat) (v : Dword), f ≤ 16 → head < 4096 → v = setField (s.pageReg f 0x20) 0 12 head →
      Permitted s w (.page f) 0x20 v → s.rwBits w (.page f) 0x20 ≠ 0 → n = bits (s.taken w (.page f) 0x20 v) 11 0 →
      exec (.head w f head) s = .next (s.writeHead f n)) ∧
    (∀ (s t : State) (w : Party) (f off : Nat) (cq on : Bool) (v : Dword), f ≤ 16 → off = (if cq then 0x18 else 0x08) →
      v = setField (s.pageReg f off) 4 1 (b2n on) → Permitted s w (.page f) off v → s.rwBits w (.page f) off ≠ 0 →
      s.writeRing f cq (s.taken w (.page f) off v) = some t → exec (.enable w f cq on) s = .next t) ∧
    (∀ (s : State) (w : Party) (b : Block) (off : Nat) (v : Dword) (t : State), addrOf b off < 2 ^ 40 → Permitted s w b off v →
      s.writeReg w b off (BitVec.allOnes 64) v = some t → exec (.registerWrite w (addrOf b off) 8 v) s = .next t) ∧
    (∀ (s : State) (w : Party) (a size : Nat) (v : Dword), partyOk w = true → a < 2 ^ 40 → (s.reach a size).1 ≠ 0 →
      exec (.registerWrite w a size v) s = .next (s.accError w a (s.reach a size).1)) ∧
    (∀ (s : State) (w : Party) (a size : Nat) (v : Dword), partyOk w = true → a < 2 ^ 40 → (s.reach a size).1 = 0 →
      s.mayRead w (s.reach a size).2.1 (s.reach a size).2.2 = false →
      exec (.registerWrite w a size v) s = .next (s.accError w a 8)) ∧
    (∀ (s : State) (f n : Nat), ((s.fn f).sqSize ≤ n → s.writeTail f n = s.event f 7) ∧
      (n < (s.fn f).sqSize → s.writeTail f n = (s.modFn f fun x => { x with sqTail := n }).fetchRing f 4096) ∧
      ((s.fn f).cqSize ≤ n → s.writeHead f n = s.event f 7) ∧
      (n < (s.fn f).cqSize → (n + (s.fn f).cqSize - (s.fn f).cqHead) % (s.fn f).cqSize ≤
          ((s.fn f).cqTail + (s.fn f).cqSize - (s.fn f).cqHead) % (s.fn f).cqSize →
        s.writeHead f n = (s.modFn f fun x => { x with cqHead := n }).ringAgain f) ∧
      (((s.fn f).cqTail + (s.fn f).cqSize - (s.fn f).cqHead) % (s.fn f).cqSize <
          (n + (s.fn f).cqSize - (s.fn f).cqHead) % (s.fn f).cqSize → s.writeHead f n = s.event f 7)) ∧
    (∀ (s : State) (f : Nat) (v : Dword) (x : Fn), 4 ≤ bits v 3 0 → bits v 3 0 ≤ 12 → v.getLsbD 4 = true →
      x = { s.fn f with sqLog := bits v 3 0, sqBase := v.extractLsb' 12 52, sqOn := true } → (s.fn f).sqOn = false →
      s.writeRing f false v = some ((s.setFn f { x with sqHead := 0, sqTail := 0, sqPhase := true }).ringAgain f)) ∧
    (∀ (s : State) (f n h : Nat) (x : Fn) (e : SqEntry), x = s.fn f → x.sqOn = true → x.sqHead ≠ x.sqTail → x.cqFull = false →
      e = sqEntry (readBytes s.host (x.sqBase.toNat * 4096 + 64 * x.sqHead) 64) → h = (x.sqHead + 1) % 2 ^ x.sqLog →
      s.fetchRing f (n + 1) = ((s.setFn f { x with
        sqHead := h
        sqPhase := if h = 0 then !x.sqPhase else x.sqPhase
        queue := x.queue ++ [{ entry := e, head := h, rej := x.screen f x.sqPhase e }] }).ringOn f).fetchRing f n) ∧
    ∀ (s : State) (f : Nat) (e : CqEntry) (x : Fn), x = s.fn f → x.cqFull = false → x.cqOn = true →
      (s.complete f e).host = writeBytes s.host (x.cqBase.toNat * 4096 + 32 * x.cqTail) (cqBytes x e) ∧
      (cqBytes x e).length = 32 ∧ (s.complete f e).msix = s.msix ++ [(f, 0)] ∧
      ((s.complete f e).fn f).cqTail = (x.cqTail + 1) % 2 ^ x.cqLog ∧ ((s.complete f e).fn f).waitCq = x.waitCq

/-- WINDOW_REG that starts completes: it registers a free window's base and length, and is answered INVALID with an id
above 63, an unaligned base or no length, OUT_OF_RANGE above 2^48 bytes, and BUSY for a window that is registered or
going. WINDOW_UNREG that starts completes NOT_REGISTERED for a window that is not, else takes the window away, giving
up a dump to it, and is answered when no command uses it. DMA_H2D and DMA_D2H that start complete: refused with the
first check's status, or running and asking for their first lines. DMA_COMPLETE completes, host memory holding what
software has written since: a DMA that has ended is answered with the bytes moved, MEM status and offset where it was
stopped or uncorrectable, and another asks on. HANDOVER that starts completes: INVALID with a reserved bit, refused
with MEM status and the page's record, or begun. IMAGE_LOAD that starts completes: NOT_REGISTERED without its window,
waiting for the end of a run or a scrub, or loaded now; one that waits is loaded once it need not. To load is to
answer BUSY in a partition that is not EMPTY, the first failing check's status and info, or to install the image.
IMAGE_LOAD_COMPLETE completes with the idle tiles and the partition LOADED, and a load that has waited for 10 s
answered BUSY. RUN_START that starts completes: NOT_LOADED without a LOADED image, PLACEMENT with the unit and the
image given up where it may no longer run, else STARTING under the next run number with the start announced. RUN_KILL
that starts completes: NOT_LOADED without a run, else with its end announced unless it is ending. -/
def Obligations.HostCommands : Prop :=
  (∀ (s u : State) (f w b n : Nat) (q : Fetched), Starts s 1 f q u → w = q.entry.window.toNat → b = q.entry.hostOff.toNat →
      n = q.entry.arg2.toNat →
      (63 < w ∨ b % 4096 ≠ 0 → exec (.windowReg f) s = .next (u.done f q 1 3 0 0)) ∧
      (w ≤ 63 → b % 4096 = 0 → (n = 0 → exec (.windowReg f) s = .next (u.done f q 1 4 0 0)) ∧
        (2 ^ 48 < n → exec (.windowReg f) s = .next (u.done f q 2 0 0 n)) ∧
        (n ≠ 0 → n ≤ 2 ^ 48 → (u.fn f).windows.look none w ≠ none ∨ (u.fn f).unreg.look none w ≠ none →
          exec (.windowReg f) s = .next (u.done f q 5 0 0 0)) ∧
        (n ≠ 0 → n ≤ 2 ^ 48 → (u.fn f).windows.look none w = none → (u.fn f).unreg.look none w = none →
          exec (.windowReg f) s = .next ((u.modFn f fun x => { x with
            windows := x.windows.put none w (some (b, n)) }).done f q 0 0 0 0)))) ∧
    (∀ (s u : State) (f w : Nat) (q : Fetched), Starts s 2 f q u → w = q.entry.window.toNat →
      ((u.fn f).windows.look none w = none → exec (.windowUnreg f) s = .next (u.done f q 3 0 0 0)) ∧
      ((u.fn f).windows.look none w ≠ none → exec (.windowUnreg f) s = .next (((u.dropDump f w).modFn f fun x => { x with
        windows := x.windows.drop w, unreg := x.unreg.put none w (some (q.entry.cid.toNat, q.head)) }).ringOn f))) ∧
    (∀ (s u : State) (f : Nat) (q : Fetched) (wr : Bool) (e : Host.Outcome State Fault Refusal),
      (wr = true ∧ Starts s 3 f q u ∧ e = exec (.dmaH2d f) s) ∨
        (wr = false ∧ Starts s 4 f q u ∧ e = exec (.dmaD2h f) s) →
      (∀ st d info, u.dmaRefused f q.entry wr = some (st, d, info) → e = .next (u.done f q st d 0 info)) ∧
      (∀ base len, u.dmaRefused f q.entry wr = none → (u.fn f).windows.look none q.entry.window.toNat = some (base, len) →
        e = .next ((u.modFn f fun x => { x with dmas := x.dmas ++ [{
          cid := q.entry.cid, head := q.head, toDevice := wr, window := q.entry.window.toNat
          host := base + q.entry.hostOff.toNat, devOff := q.entry.devOff.toNat, length := q.entry.length.toNat }] }).dmaAsk
            f q.head))) ∧
    (∀ (s u : State) (f cid : Nat) (host : List (Nat × Byte)) (d : Dma), f ≤ 16 → cid < 65536 → u = s.hostBytes host →
      ((u.fn f).dmas.find? (fun d => d.cid.toNat = cid && d.ended) = some d → exec (.dmaComplete f cid host) s =
        .next (((u.modFn f fun x => { x with dmas := x.dmas.erase d }).complete f d.result).ringOn f)) ∧
      ((u.fn f).dmas.find? (fun d => d.cid.toNat = cid && d.ended) = none →
        (u.fn f).dmas.find? (fun d => d.cid.toNat = cid) = some d → exec (.dmaComplete f cid host) s = .next (u.dmaAsk f d.head))) ∧
    (∀ d : Dma, (d.ended = true ↔ d.stop ≠ none ∨ d.length ≤ d.moved) ∧
      d.result.cid = d.cid ∧ d.result.head = d.head ∧ d.result.detail = 0 ∧ d.result.result = BitVec.ofNat 64 d.moved ∧
      (∀ st a, d.stop = some (st, a) → d.result.status = 32 + st ∧ d.result.info = BitVec.ofNat 64 a) ∧
      (∀ a, d.stop = none → d.bad = some a → d.result.status = 36 ∧ d.result.info = BitVec.ofNat 64 a) ∧
      (d.stop = none → d.bad = none → d.result.status = 0 ∧ d.result.info = 0)) ∧
    (∀ (s u : State) (f o page st : Nat) (q : Fetched), Starts s 8 f q u → o = q.entry.arg2.toNat →
      page = q.entry.devOff.toNat / 2 ^ 21 → st = u.handCheck page u.mgt.ownId (f - 1) (o % 4096) →
      (2 ^ 31 ≤ o → exec (.handover f) s = .next (u.done f q 1 3 0 0)) ∧
      (o < 2 ^ 31 → st ≠ 0 → exec (.handover f) s = .next (u.done f q (32 + st) 0 (u.page page).toNat 0)) ∧
      (o < 2 ^ 31 → st = 0 → exec (.handover f) s = .next ((u.begin f q).beginMove {
        page := page, dev := o / 2 ^ 12 % 8192, part := o / 2 ^ 25 % 16, mode := BitVec.ofNat 2 (o / 2 ^ 29)
        zeroing := false, port := none, req := [], fn := some f, cid := q.entry.cid.toNat }))) ∧
    (∀ (s u v : State) (f : Nat) (q : Fetched) (qs : List Fetched) (i : Image), Starts s 5 f q u → (s.fn f).busy = none →
      (s.fn f).queue = q :: qs → v = ((s.emptied (f - 1)).modFn f fun x => { x with queue := qs }).begin f q →
      ((v.fn f).windows.look none q.entry.window.toNat = none → exec (.imageLoad f i) s =
        .next (v.finish f { doneWith q.entry.cid 3 0 with info := q.entry.window.setWidth 64 })) ∧
      ∀ base len, (v.fn f).windows.look none q.entry.window.toNat = some (base, len) →
        (v.loadWaits (f - 1) = true → exec (.imageLoad f i) s = .next (v.modPart (f - 1) fun x => { x with
          loadCid := some q.entry.cid.toNat, loadSince := some v.now, loadLen := len })) ∧
        (v.loadWaits (f - 1) = false → exec (.imageLoad f i) s = .next (v.loadNow f q i len))) ∧
    (∀ (s : State) (f : Nat) (q : Fetched) (i : Image), f ≤ 16 → (s.fn f).busy = some q → q.entry.opcode = 5 →
      (s.part (f - 1)).loadSince ≠ none → (s.emptied (f - 1)).loadWaits (f - 1) = false →
      exec (.imageLoad f i) s = .next ((s.emptied (f - 1)).loadNow f q i (s.part (f - 1)).loadLen)) ∧
    (∀ (s u : State) (f p n len : Nat) (q : Fetched) (i : Image), p = f - 1 → n = q.entry.length.toNat →
      u = (s.modPart p fun x => { x with loadCid := none, loadSince := none }) →
      ((s.part p).st ≠ .empty → s.loadNow f q i len = u.finish f (doneWith q.entry.cid 5 0)) ∧
      ((s.part p).st = .empty → n = 0 ∨ len < q.entry.hostOff.toNat + n → s.loadNow f q i len =
        u.finish f { doneWith q.entry.cid 12 0 with info := BitVec.ofNat 64 (q.entry.hostOff.toNat + n) }) ∧
      ((s.part p).st = .empty → n ≠ 0 → q.entry.hostOff.toNat + n ≤ len →
        (∀ st info, s.imageRefused p n (present i) = some (st, info) → s.loadNow f q i len =
          u.finish f { doneWith q.entry.cid st 0 with info := BitVec.ofNat 64 info }) ∧
        (s.imageRefused p n (present i) = none → s.loadNow f q i len = (u.modPart p fun x => { x with
          loader := (u.fn f).ring, dumpAllowed := q.entry.arg.getLsbD 0, dumpWindow := bits q.entry.arg2 5 0
          claimed := [] }).install p (present i)))) ∧
    (∀ (s : State) (p : Nat) (q : Fetched), p < 16 → (s.fn (p + 1)).busy = some q →
      ((s.part p).st = .loading → exec (.imageLoadComplete p) s = .next ((((s.part p).owned.foldl (fun v t => v.modTile t
        fun y => { y with st := if y.st = .idle then .loaded else y.st }) s).modPart p fun y => { y with
          st := .loaded, claimed := [] }).finish (p + 1) (doneWith q.entry.cid 0 0))) ∧
      (∀ t0, (s.part p).st ≠ .loading → (s.part p).loadSince = some t0 → t0 + 10000000 ≤ s.now →
        exec (.imageLoadComplete p) s = .next ((s.modPart p fun y => { y with
          loadCid := none, loadSince := none }).finish (p + 1) (doneWith q.entry.cid 5 0)))) ∧
    (∀ (s u : State) (f : Nat) (q : Fetched), Starts s 6 f q u →
      ((u.part (f - 1)).img = none ∨ (u.part (f - 1)).st ≠ .loaded → exec (.runStart f) s = .next (u.done f q 11 0 0 0)) ∧
      (∀ i, (u.part (f - 1)).img = some i → (u.part (f - 1)).st = .loaded →
        (∀ t, u.unfit (f - 1) i = some t → exec (.runStart f) s = .next ((u.discard (f - 1) false).done f q 16 0 0 t)) ∧
        (u.unfit (f - 1) i = none → exec (.runStart f) s = .next (((u.begin f q).modPart (f - 1) fun x => { x with
          st := .starting, runNo := x.runNo + 1, runHidden := false
          startCid := some q.entry.cid.toNat }).announceStart (f - 1))))) ∧
    ∀ (s u v : State) (f : Nat) (q : Fetched) (x : Part), Starts s 7 f q u → x = u.part (f - 1) →
      v = (u.begin f q).modPart (f - 1) (fun x => { x with killCid := some q.entry.cid.toNat }) →
      (x.st = .starting ∨ x.st = .running → exec (.runKill f) s = .next (v.announceStop (f - 1) 1)) ∧
      (x.st = .ending → x.img ≠ none → exec (.runKill f) s = .next v) ∧
      (x.st = .empty ∨ x.st = .loaded ∨ x.st = .loading ∨ (x.st = .ending ∧ x.img = none) →
        exec (.runKill f) s = .next (u.done f q 11 0 0 0))

/-- PART_CREATE that starts completes: INVALID for a reserved bit or a rectangle out of range, BUSY for a live partition,
PLACEMENT with its number for a region in use, else the partition lives over its regions, the lowest one's hen
leading, with its function enabled. PART_RESET and PART_DESTROY that start complete: INVALID for reserved bits or a
partition that does not exist, else with the partition's reset. To reset a partition is to abort what its ring has not
finished and a load in progress, then to announce the stop of a run that is starting or running with the reason, to
give a loaded image up, to abort the channels of a run that is ending, and to drop what is left of an empty one.
FLR_VF completes with its live partition reset, its page and its run registers at their reset values, and its binding
ended; FLR_PF with every live partition reset, the PF's page at its reset value, and its bindings ended. PERST_FALL
completes with the pin low, and, where it was heard, as FLR_PF. PERST_RISE completes with the pin high; where it is
heard the host port's training starts, or waits for the reference. -/
def Obligations.Partitions : Prop :=
  (∀ (s u : State) (q : Fetched) (a : BitVec 32) (p x0 y0 x1 y1 : Nat), Starts s 0x10 0 q u → a = q.entry.arg →
      p = bits a 3 0 → x0 = bits a 11 8 → y0 = bits a 13 12 → x1 = bits a 19 16 → y1 = bits a 21 20 →
      (bits a 7 4 ≠ 0 ∨ bits a 15 14 ≠ 0 ∨ bits a 31 22 ≠ 0 ∨ x1 < x0 ∨ 9 < x1 ∨ y1 < y0 →
        exec .partCreate s = .next (u.done 0 q 1 3 0 0)) ∧
      (bits a 7 4 = 0 → bits a 15 14 = 0 → bits a 31 22 = 0 → x0 ≤ x1 → x1 ≤ 9 → y0 ≤ y1 →
        ((u.part p).live = true → exec .partCreate s = .next (u.done 0 q 5 0 0 0)) ∧
        (∀ r, (u.part p).live = false → (rectRegions x0 y0 x1 y1).find? (fun r => (u.region r).ctl.assigned) = some r →
          exec .partCreate s = .next (u.done 0 q 16 0 0 r)) ∧
        ((u.part p).live = false → (∀ r ∈ rectRegions x0 y0 x1 y1, (u.region r).ctl.assigned = false) →
          exec .partCreate s = .next ((u.createPart p x0 y0 x1 y1).done 0 q 0 0 0 0)))) ∧
    (∀ (s : State) (p x0 y0 x1 y1 : Nat) (rs : List Nat), rs = rectRegions x0 y0 x1 y1 → s.createPart p x0 y0 x1 y1 =
      ((rs.foldl (fun v r => v.modCtl r fun c => { c with
        part := p, assigned := true, lead := decide (rs.head? = some r) }) s).modPart p fun x => { x with
          live := true, cx0 := x0, cy0 := y0, cx1 := x1, cy1 := y1, st := .empty, destroying := false
          normq := x.normq.flush }).modFn (p + 1) fun x => { x with enabled := true }) ∧
    (∀ (s u : State) (q : Fetched) (op reason p : Nat) (i : Instr), (op, reason, i) ∈
        [(0x11, 3, Instr.partReset), (0x12, 4, .partDestroy)] → Starts s op 0 q u → p = bits q.entry.arg 3 0 →
      (bits q.entry.arg 31 4 ≠ 0 → exec i s = .next (u.done 0 q 1 3 0 0)) ∧
      (bits q.entry.arg 31 4 = 0 → (u.part p).live = false → exec i s = .next (u.done 0 q 1 1 0 0)) ∧
      (bits q.entry.arg 31 4 = 0 → (u.part p).live = true → exec i s = .next (((u.begin 0 q).modPart p fun x => { x with
        resetCid := some q.entry.cid.toNat, destroying := decide (reason = 4) }).resetPart p reason))) ∧
    (∀ (s u v : State) (p reason : Nat), u = ((s.abortRing (p + 1)).abandonLoad p 10).modPart p (fun x => { x with
        aborting := true }) → v = (((u.partRegions p).foldl (fun w r => w.dropRouters r) u).dropPorts (u.partRegions p)) →
      ((u.part p).st = .starting ∨ (u.part p).st = .running → s.resetPart p reason = u.announceStop p reason) ∧
      ((u.part p).st = .loaded → s.resetPart p reason = u.discard p true) ∧
      ((u.part p).st = .loading → s.resetPart p reason = u) ∧
      ((u.part p).st = .ending → s.resetPart p reason = u.dropChans p true) ∧
      ((u.part p).st = .empty → s.resetPart p reason = ((v.dropShares p).dropChans p true).resetOver p)) ∧
    (∀ (s u v : State) (f : Nat), 1 ≤ f → f ≤ 16 → u = (if (s.part (f - 1)).live then s.resetPart (f - 1) 3 else s) →
      v = (u.resetPage f).resetRunPage (f - 1) →
      exec (.flrVf f) s = .next (if (s.fn f).ring = none then v else v.endRing f)) ∧
    (∀ (s u : State) (f : Nat), u = s.dropDump f (s.part (f - 1)).dumpWindow → s.resetPage f = { u.setFn f {
        enabled := (s.fn f).enabled, ring := (s.fn f).ring, fabric := (s.fn f).fabric } with
      moves := u.moves.map fun (q : HandOver) => if q.fn = some f then { q with fn := none } else q }) ∧
    (∀ s : State, exec .flrPf s = .next s.flrAll) ∧
    (∀ (s u v : State), u = (((List.range 16).filter fun p => (s.part p).live).foldl (fun w p => (w.modPart p fun y => { y with
        resetCid := none }).resetPart p 3) s).resetPage 0 →
      v = (if (s.fn 0).ring = none then u else u.endRing 0) →
      s.flrAll = if (s.fn 0).fabric = none then v else v.endFabric) ∧
    (∀ s u : State, u = (s.modMgt fun m => { m with
        perstPin := false, perstLow := true, pcieTraining := false, pcieWait := false }) →
      exec .perstFall s = .next (if s.mgt.perstLow then u else u.flrAll)) ∧
    ∀ s : State, (s.mgt.pwrOk = true → s.mgt.perstWindow = false → exec .perstRise s = .next (s.modMgt fun m => { m with
        perstPin := true, perstLow := false, pcieTraining := m.pcieTraining || !m.refLost
        pcieWait := m.pcieWait || m.refLost })) ∧
      (s.mgt.pwrOk = false ∨ s.mgt.perstWindow = true →
        exec .perstRise s = .next (s.modMgt fun m => { m with perstPin := true }))

/-- NEGOTIATE_ALGORITHMS, CERTIFICATE_RETRIEVAL, CHALLENGE and SIGNED_MEASUREMENTS complete with one answer each, an error
for a chain or measurements of a slot other than 0. KEY_EXCHANGE completes: answered busy with 32 sessions open, with
an error for a key that is not enrolled, and else with a session of the key's role open under the number chosen, or
the first free one. FINISH of an open session completes with its handshake complete; HEARTBEAT and KEY_UPDATE of a
finished one complete with an answer; END_SESSION of an open one, and SESSION_TIMEOUT 20 s after its last message,
complete with the session ended. To end a session is to close it, to end its bindings, and to give up dumps of images
it loaded. In a finished session each message puts off its end and is answered. BIND completes INVALID for a function
above 16, DENIED to a role that may not have it, BUSY where another holds it, else with the binding; UNBIND INVALID
for a function above 16, else with the binding ended if the session holds it. KEY_ENROLL, KEY_REMOVE, IMAGE_KEY_ENROLL
and IMAGE_KEY_REMOVE complete DENIED to a role other than ADMIN, INVALID for a slot out of range or without key,
LOCKED where the last ADMIN key would go, else with the key there or gone, a removed requester key ending its
sessions. Without a finished session an application message is answered NO_SESSION. -/
def Obligations.SpdmSessions : Prop :=
  (∀ (s : State) (b : List Byte), exec (.negotiateAlgorithms b) s = .next (s.spdm 0xE3 b) ∧
      exec (.challenge b) s = .next (s.spdm 0x83 b)) ∧
    (∀ (s : State) (slot : Nat), slot < 8 → exec (.certificateRetrieval slot) s =
        .next (if slot = 0 then s.spdm 0x82 [] else s.spdm spdmError [0x82]) ∧
      exec (.signedMeasurements slot) s = .next (if slot = 0 then s.spdm 0xE0 [] else s.spdm spdmError [0xE0])) ∧
    (∀ (s : State) (n : Nat) (key : List Byte), n < 32 →
      (s.freeSession n = none → exec (.keyExchange n key) s = .next (s.spdm spdmError [0x03])) ∧
      (∀ m, s.freeSession n = some m →
        (s.mgt.keySlot key = none → exec (.keyExchange n key) s = .next (s.spdm spdmError [0xE4])) ∧
        (∀ i k, s.mgt.keySlot key = some (i, k) → exec (.keyExchange n key) s = .next ((s.setSession m (some {
          slot := i, role := k.role, mask := k.mask, finished := false, lastTime := s.now, keyGen := 0 })).spdm 0xE4 key)))) ∧
    (∀ (s : State) (n : Nat), (s.session n = none → s.freeSession n = some n) ∧
      (s.session n ≠ none → s.freeSession n = (List.range 32).find? fun m => (s.session m).isNone)) ∧
    (∀ (s u : State) (n : Nat) (x : Session), n < 32 → s.session n = some x → u = s.heard n →
      (x.finished = false → exec (.finish n) s =
        .next ((u.setSession n ((u.session n).map fun x => { x with finished := true })).spdm 0xE5 [])) ∧
      exec (.endSession n) s = .next ((u.endSession n).spdm 0xEC []) ∧
      (x.lastTime + 20000000 ≤ s.now → exec (.sessionTimeout n) s = .next (s.endSession n))) ∧
    (∀ (s u : State) (n : Nat) (x : Session), InSession s n x → u = s.heard n → exec (.heartbeat n) s = .next (u.spdm 0xE8 []) ∧
      exec (.keyUpdate n) s =
        .next ((u.setSession n ((u.session n).map fun x => { x with keyGen := x.keyGen + 1 })).spdm 0xE9 [])) ∧
    (∀ (s : State) (n : Nat), s.heard n = s.setSession n ((s.session n).map fun x => { x with lastTime := s.now })) ∧
    (∀ (s u v : State) (n : Nat), u = (List.range 17).foldl (fun w f => if (w.fn f).ring = some n then w.endRing f else w)
        (s.setSession n none) → v = (if (u.fn 0).fabric = some n then u.endFabric else u) →
      s.endSession n = (List.range 16).foldl (fun w p => if (w.part p).loader = some n
        then (w.stopDump p 2).modPart p fun x => { x with loader := none } else w) v) ∧
    (∀ (s u : State) (n f : Nat) (x : Session) (b : Bool) (held : Option Nat), InSession s n x → u = s.heard n → f < 32 →
      held = (if b then (u.fn f).fabric else (u.fn f).ring) →
      (16 < f → exec (.bind n f b) s = .next (u.reply 1) ∧ exec (.unbind n f b) s = .next (u.reply 1)) ∧
      (f ≤ 16 → x.mayBind f b = false → exec (.bind n f b) s = .next (u.reply 8)) ∧
      (f ≤ 16 → x.mayBind f b = true → held ≠ none → held ≠ some n → exec (.bind n f b) s = .next (u.reply 5)) ∧
      (f ≤ 16 → x.mayBind f b = true → held = none ∨ held = some n → exec (.bind n f b) s = .next ((u.modFn f fun y =>
        if b then { y with fabric := some n } else { y with ring := some n }).reply 0)) ∧
      (f ≤ 16 → exec (.unbind n f false) s = .next ((if (u.fn f).ring = some n then u.endRing f else u).reply 0)) ∧
      (f ≤ 16 → exec (.unbind n f true) s = .next
        ((if f = 0 ∧ (u.fn 0).fabric = some n then u.endFabric else u).reply 0))) ∧
    (∀ (s u v : State) (n slot : Nat) (key : List Byte) (role : Role) (mask : BitVec 16) (x : Session), InSession s n x →
      u = s.heard n →
      (x.role ≠ .admin → exec (.keyEnroll n slot key role mask) s = .next (u.reply 8) ∧
        exec (.keyRemove n slot) s = .next (u.reply 8) ∧ exec (.imageKeyEnroll n slot key) s = .next (u.reply 8) ∧
        exec (.imageKeyRemove n slot) s = .next (u.reply 8)) ∧
      (x.role = .admin →
        (16 ≤ slot ∨ key = [] → exec (.keyEnroll n slot key role mask) s = .next (u.reply 1)) ∧
        (slot < 16 → key ≠ [] → role ≠ .admin → u.mgt.isAdmin slot = true → u.mgt.otherAdmin slot = false →
          exec (.keyEnroll n slot key role mask) s = .next (u.reply 24)) ∧
        (slot < 16 → key ≠ [] → role = .admin ∨ u.mgt.isAdmin slot = false ∨ u.mgt.otherAdmin slot = true →
          exec (.keyEnroll n slot key role mask) s = .next ((u.modMgt fun m => { m with
            keys := m.keys.put none slot (some { key := key, role := role, mask := mask }) }).reply 0)) ∧
        (16 ≤ slot → exec (.keyRemove n slot) s = .next (u.reply 1)) ∧
        (slot < 16 → u.mgt.isAdmin slot = true → u.mgt.otherAdmin slot = false →
          exec (.keyRemove n slot) s = .next (u.reply 24)) ∧
        (slot < 16 → u.mgt.isAdmin slot = false ∨ u.mgt.otherAdmin slot = true →
          v = (u.modMgt fun m => { m with keys := m.keys.drop slot }) → exec (.keyRemove n slot) s = .next
            (((List.range 32).foldl (fun w m => match w.session m with
              | some y => if y.slot = slot then w.endSession m else w
              | none => w) v).reply 0)) ∧
        (8 ≤ slot ∨ key = [] → exec (.imageKeyEnroll n slot key) s = .next (u.reply 1)) ∧
        (slot < 8 → key ≠ [] → exec (.imageKeyEnroll n slot key) s =
          .next ((u.modMgt fun m => { m with imageKeys := m.imageKeys.put [] slot key }).reply 0)) ∧
        (8 ≤ slot → exec (.imageKeyRemove n slot) s = .next (u.reply 1)) ∧
        (slot < 8 → exec (.imageKeyRemove n slot) s =
          .next ((u.modMgt fun m => { m with imageKeys := m.imageKeys.drop slot }).reply 0)))) ∧
    ∀ (s : State) (n f slot : Nat) (b : Bool) (key : List Byte) (role : Role) (mask : BitVec 16), n < 32 → f < 32 →
      s.session n = none ∨ (∃ x, s.session n = some x ∧ x.finished = false) →
      exec (.bind n f b) s = .next (s.reply 4) ∧ exec (.unbind n f b) s = .next (s.reply 4) ∧
      exec (.keyEnroll n slot key role mask) s = .next (s.reply 4) ∧ exec (.keyRemove n slot) s = .next (s.reply 4) ∧
      exec (.imageKeyEnroll n slot key) s = .next (s.reply 4) ∧ exec (.imageKeyRemove n slot) s = .next (s.reply 4)
end

