-- ==== Sys2Proof/Laws/State.lean ====
section
/-!
SUPPORT. One lemma per field per update of the state, all by `rfl`, so that no proof unfolds a record update; the lemmas
that turn a `mod` into a `set`; and what a sparse table reads after it is written.
-/
namespace Sys2Proof

/-! ## Sparse tables -/

theorem Tab.look_drop {α : Type} (d : α) (t : Tab α) (n m : Nat) :
    (t.drop n).look d m = if n = m then d else t.look d m := by
  induction t with
  | nil => simp [Tab.drop, Tab.look]
  | cons p t ih =>
    obtain ⟨k, v⟩ := p
    simp only [Tab.drop, List.filter_cons] at ih ⊢
    by_cases hk : k = n
    · subst hk; simp only [ne_eq, not_true, decide_false, Tab.look]; simp only [Bool.false_eq_true, if_false, ih]
      split <;> rfl
    · simp only [ne_eq, hk, not_false_eq_true, decide_true, if_true, Tab.look, ih]
      by_cases hm : k = m
      · subst hm; simp [Ne.symm hk]
      · simp [hm]

theorem Tab.look_ins {α : Type} (d : α) (t : Tab α) (n m : Nat) (v : α) (h : ∀ p ∈ t, p.1 ≠ n) :
    (t.ins n v).look d m = if n = m then v else t.look d m := by
  induction t with
  | nil => simp [Tab.ins, Tab.look]
  | cons p t ih =>
    obtain ⟨k, x⟩ := p
    have hk : k ≠ n := h _ (List.mem_cons_self ..)
    have ih := ih fun q hq => h q (List.mem_cons_of_mem _ hq)
    unfold Tab.ins
    split
    · simp [Tab.look]
    · simp only [Tab.look, ih]
      by_cases hm : k = m
      · subst hm; simp [Ne.symm hk]
      · simp [hm]

theorem Tab.drop_ne {α : Type} (t : Tab α) (n : Nat) : ∀ p ∈ t.drop n, p.1 ≠ n := by
  intro p hp; simp only [Tab.drop, List.mem_filter, decide_eq_true_eq] at hp; exact hp.2

/-- A table reads back what was put in it, and every other member is as it was. -/
@[simp] theorem Tab.look_put {α : Type} [DecidableEq α] (d : α) (t : Tab α) (n m : Nat) (v : α) :
    (t.put d n v).look d m = if n = m then v else t.look d m := by
  unfold Tab.put
  split
  · next h => rw [Tab.look_drop, h]
  · rw [Tab.look_ins d _ n m v (Tab.drop_ne t n), Tab.look_drop]; split <;> rfl

theorem Tab.drop_ins {α : Type} (t : Tab α) (n : Nat) (v : α) (h : ∀ p ∈ t, p.1 ≠ n) : (t.ins n v).drop n = t := by
  induction t with
  | nil => simp [Tab.ins, Tab.drop]
  | cons p t ih =>
    have ih := ih fun q hq => h q (List.mem_cons_of_mem _ hq)
    have hd : Tab.drop t n = t := by
      unfold Tab.drop; rw [List.filter_eq_self]; intro q hq; simpa using h q (List.mem_cons_of_mem _ hq)
    have hk : p.1 ≠ n := h p (List.mem_cons_self ..)
    unfold Tab.ins
    split
    · show List.filter _ (_ :: _ :: _) = _
      rw [List.filter_cons_of_neg (by simp), List.filter_cons_of_pos (by simpa using hk)]
      exact congrArg _ hd
    · show List.filter _ (_ :: _) = _
      rw [List.filter_cons_of_pos (by simpa using hk)]
      exact congrArg _ ih

theorem Tab.drop_drop {α : Type} (t : Tab α) (n : Nat) : (t.drop n).drop n = t.drop n := by
  unfold Tab.drop; rw [List.filter_filter]; congr 1; funext p; simp

/-- Of two values put at one number the later stands. -/
@[simp] theorem Tab.put_put {α : Type} [DecidableEq α] (d : α) (t : Tab α) (n : Nat) (v w : α) :
    (t.put d n v).put d n w = t.put d n w := by
  have h : (t.put d n v).drop n = t.drop n := by
    unfold Tab.put; split
    · exact Tab.drop_drop t n
    · exact Tab.drop_ins _ n v (Tab.drop_ne t n)
  show (if w = d then _ else _) = _
  rw [h]; rfl

namespace Machine

/-! ## setTile -/

@[simp] theorem State.setTile_pending (s : State) (t : Nat) (x : Tile) : (s.setTile t x).pending = s.pending := rfl
@[simp] theorem State.setTile_mgt (s : State) (t : Nat) (x : Tile) : (s.setTile t x).mgt = s.mgt := rfl
@[simp] theorem State.setTile_units (s : State) (t : Nat) (x : Tile) : (s.setTile t x).units = s.units := rfl
@[simp] theorem State.setTile_routers (s : State) (t : Nat) (x : Tile) : (s.setTile t x).routers = s.routers := rfl
@[simp] theorem State.setTile_regions (s : State) (t : Nat) (x : Tile) : (s.setTile t x).regions = s.regions := rfl
@[simp] theorem State.setTile_sites (s : State) (t : Nat) (x : Tile) : (s.setTile t x).sites = s.sites := rfl
@[simp] theorem State.setTile_iods (s : State) (t : Nat) (x : Tile) : (s.setTile t x).iods = s.iods := rfl
@[simp] theorem State.setTile_ports (s : State) (t : Nat) (x : Tile) : (s.setTile t x).ports = s.ports := rfl
@[simp] theorem State.setTile_pages (s : State) (t : Nat) (x : Tile) : (s.setTile t x).pages = s.pages := rfl
@[simp] theorem State.setTile_moves (s : State) (t : Nat) (x : Tile) : (s.setTile t x).moves = s.moves := rfl
@[simp] theorem State.setTile_hbm (s : State) (t : Nat) (x : Tile) : (s.setTile t x).hbm = s.hbm := rfl
@[simp] theorem State.setTile_chans (s : State) (t : Nat) (x : Tile) : (s.setTile t x).chans = s.chans := rfl
@[simp] theorem State.setTile_dlog (s : State) (t : Nat) (x : Tile) : (s.setTile t x).dlog = s.dlog := rfl
@[simp] theorem State.setTile_parts (s : State) (t : Nat) (x : Tile) : (s.setTile t x).parts = s.parts := rfl
@[simp] theorem State.setTile_fns (s : State) (t : Nat) (x : Tile) : (s.setTile t x).fns = s.fns := rfl
@[simp] theorem State.setTile_sessions (s : State) (t : Nat) (x : Tile) : (s.setTile t x).sessions = s.sessions := rfl
@[simp] theorem State.setTile_host (s : State) (t : Nat) (x : Tile) : (s.setTile t x).host = s.host := rfl
@[simp] theorem State.setTile_flight (s : State) (t : Nat) (x : Tile) : (s.setTile t x).flight = s.flight := rfl
@[simp] theorem State.setTile_credits (s : State) (t : Nat) (x : Tile) : (s.setTile t x).credits = s.credits := rfl
@[simp] theorem State.setTile_ringSent (s : State) (t : Nat) (x : Tile) : (s.setTile t x).ringSent = s.ringSent := rfl
@[simp] theorem State.setTile_ringFreed (s : State) (t : Nat) (x : Tile) : (s.setTile t x).ringFreed = s.ringFreed := rfl
@[simp] theorem State.setTile_msix (s : State) (t : Nat) (x : Tile) : (s.setTile t x).msix = s.msix := rfl
@[simp] theorem State.setTile_free (s : State) (t : Nat) (x : Tile) : (s.setTile t x).free = s.free := rfl
@[simp] theorem State.tile_setTile (s : State) (t m : Nat) (x : Tile) :
    (s.setTile t x).tile m = if t = m then x else s.tile m := Tab.look_put ..
@[simp] theorem State.setTile_setTile (s : State) (t : Nat) (x : Tile) (x2 : Tile) :
    (s.setTile t x).setTile t x2 = s.setTile t x2 := by
  simp only [State.setTile, Tab.put_put]
@[simp] theorem State.router_setTile (s : State) (t m : Nat) (x : Tile) :
    (s.setTile t x).router m = s.router m := rfl
@[simp] theorem State.region_setTile (s : State) (t m : Nat) (x : Tile) :
    (s.setTile t x).region m = s.region m := rfl
@[simp] theorem State.site_setTile (s : State) (t m : Nat) (x : Tile) :
    (s.setTile t x).site m = s.site m := rfl
@[simp] theorem State.iod_setTile (s : State) (t m : Nat) (x : Tile) :
    (s.setTile t x).iod m = s.iod m := rfl
@[simp] theorem State.port_setTile (s : State) (t m : Nat) (x : Tile) :
    (s.setTile t x).port m = s.port m := rfl
@[simp] theorem State.chan_setTile (s : State) (t m : Nat) (x : Tile) :
    (s.setTile t x).chan m = s.chan m := rfl
@[simp] theorem State.part_setTile (s : State) (t m : Nat) (x : Tile) :
    (s.setTile t x).part m = s.part m := rfl
@[simp] theorem State.fn_setTile (s : State) (t m : Nat) (x : Tile) :
    (s.setTile t x).fn m = s.fn m := rfl
@[simp] theorem State.session_setTile (s : State) (t m : Nat) (x : Tile) :
    (s.setTile t x).session m = s.session m := rfl

/-! ## setRouter -/

@[simp] theorem State.setRouter_pending (s : State) (t : Nat) (x : Router) : (s.setRouter t x).pending = s.pending := rfl
@[simp] theorem State.setRouter_mgt (s : State) (t : Nat) (x : Router) : (s.setRouter t x).mgt = s.mgt := rfl
@[simp] theorem State.setRouter_units (s : State) (t : Nat) (x : Router) : (s.setRouter t x).units = s.units := rfl
@[simp] theorem State.setRouter_tiles (s : State) (t : Nat) (x : Router) : (s.setRouter t x).tiles = s.tiles := rfl
@[simp] theorem State.setRouter_regions (s : State) (t : Nat) (x : Router) : (s.setRouter t x).regions = s.regions := rfl
@[simp] theorem State.setRouter_sites (s : State) (t : Nat) (x : Router) : (s.setRouter t x).sites = s.sites := rfl
@[simp] theorem State.setRouter_iods (s : State) (t : Nat) (x : Router) : (s.setRouter t x).iods = s.iods := rfl
@[simp] theorem State.setRouter_ports (s : State) (t : Nat) (x : Router) : (s.setRouter t x).ports = s.ports := rfl
@[simp] theorem State.setRouter_pages (s : State) (t : Nat) (x : Router) : (s.setRouter t x).pages = s.pages := rfl
@[simp] theorem State.setRouter_moves (s : State) (t : Nat) (x : Router) : (s.setRouter t x).moves = s.moves := rfl
@[simp] theorem State.setRouter_hbm (s : State) (t : Nat) (x : Router) : (s.setRouter t x).hbm = s.hbm := rfl
@[simp] theorem State.setRouter_chans (s : State) (t : Nat) (x : Router) : (s.setRouter t x).chans = s.chans := rfl
@[simp] theorem State.setRouter_dlog (s : State) (t : Nat) (x : Router) : (s.setRouter t x).dlog = s.dlog := rfl
@[simp] theorem State.setRouter_parts (s : State) (t : Nat) (x : Router) : (s.setRouter t x).parts = s.parts := rfl
@[simp] theorem State.setRouter_fns (s : State) (t : Nat) (x : Router) : (s.setRouter t x).fns = s.fns := rfl
@[simp] theorem State.setRouter_sessions (s : State) (t : Nat) (x : Router) : (s.setRouter t x).sessions = s.sessions := rfl
@[simp] theorem State.setRouter_host (s : State) (t : Nat) (x : Router) : (s.setRouter t x).host = s.host := rfl
@[simp] theorem State.setRouter_flight (s : State) (t : Nat) (x : Router) : (s.setRouter t x).flight = s.flight := rfl
@[simp] theorem State.setRouter_credits (s : State) (t : Nat) (x : Router) : (s.setRouter t x).credits = s.credits := rfl
@[simp] theorem State.setRouter_ringSent (s : State) (t : Nat) (x : Router) : (s.setRouter t x).ringSent = s.ringSent := rfl
@[simp] theorem State.setRouter_ringFreed (s : State) (t : Nat) (x : Router) : (s.setRouter t x).ringFreed = s.ringFreed := rfl
@[simp] theorem State.setRouter_msix (s : State) (t : Nat) (x : Router) : (s.setRouter t x).msix = s.msix := rfl
@[simp] theorem State.setRouter_free (s : State) (t : Nat) (x : Router) : (s.setRouter t x).free = s.free := rfl
@[simp] theorem State.router_setRouter (s : State) (t m : Nat) (x : Router) :
    (s.setRouter t x).router m = if t = m then x else s.router m := Tab.look_put ..
@[simp] theorem State.setRouter_setRouter (s : State) (t : Nat) (x : Router) (x2 : Router) :
    (s.setRouter t x).setRouter t x2 = s.setRouter t x2 := by
  simp only [State.setRouter, Tab.put_put]
@[simp] theorem State.tile_setRouter (s : State) (t m : Nat) (x : Router) :
    (s.setRouter t x).tile m = s.tile m := rfl
@[simp] theorem State.region_setRouter (s : State) (t m : Nat) (x : Router) :
    (s.setRouter t x).region m = s.region m := rfl
@[simp] theorem State.site_setRouter (s : State) (t m : Nat) (x : Router) :
    (s.setRouter t x).site m = s.site m := rfl
@[simp] theorem State.iod_setRouter (s : State) (t m : Nat) (x : Router) :
    (s.setRouter t x).iod m = s.iod m := rfl
@[simp] theorem State.port_setRouter (s : State) (t m : Nat) (x : Router) :
    (s.setRouter t x).port m = s.port m := rfl
@[simp] theorem State.chan_setRouter (s : State) (t m : Nat) (x : Router) :
    (s.setRouter t x).chan m = s.chan m := rfl
@[simp] theorem State.part_setRouter (s : State) (t m : Nat) (x : Router) :
    (s.setRouter t x).part m = s.part m := rfl
@[simp] theorem State.fn_setRouter (s : State) (t m : Nat) (x : Router) :
    (s.setRouter t x).fn m = s.fn m := rfl
@[simp] theorem State.session_setRouter (s : State) (t m : Nat) (x : Router) :
    (s.setRouter t x).session m = s.session m := rfl

/-! ## setRegion -/

@[simp] theorem State.setRegion_pending (s : State) (r : Nat) (x : Region) : (s.setRegion r x).pending = s.pending := rfl
@[simp] theorem State.setRegion_mgt (s : State) (r : Nat) (x : Region) : (s.setRegion r x).mgt = s.mgt := rfl
@[simp] theorem State.setRegion_units (s : State) (r : Nat) (x : Region) : (s.setRegion r x).units = s.units := rfl
@[simp] theorem State.setRegion_tiles (s : State) (r : Nat) (x : Region) : (s.setRegion r x).tiles = s.tiles := rfl
@[simp] theorem State.setRegion_routers (s : State) (r : Nat) (x : Region) : (s.setRegion r x).routers = s.routers := rfl
@[simp] theorem State.setRegion_sites (s : State) (r : Nat) (x : Region) : (s.setRegion r x).sites = s.sites := rfl
@[simp] theorem State.setRegion_iods (s : State) (r : Nat) (x : Region) : (s.setRegion r x).iods = s.iods := rfl
@[simp] theorem State.setRegion_ports (s : State) (r : Nat) (x : Region) : (s.setRegion r x).ports = s.ports := rfl
@[simp] theorem State.setRegion_pages (s : State) (r : Nat) (x : Region) : (s.setRegion r x).pages = s.pages := rfl
@[simp] theorem State.setRegion_moves (s : State) (r : Nat) (x : Region) : (s.setRegion r x).moves = s.moves := rfl
@[simp] theorem State.setRegion_hbm (s : State) (r : Nat) (x : Region) : (s.setRegion r x).hbm = s.hbm := rfl
@[simp] theorem State.setRegion_chans (s : State) (r : Nat) (x : Region) : (s.setRegion r x).chans = s.chans := rfl
@[simp] theorem State.setRegion_dlog (s : State) (r : Nat) (x : Region) : (s.setRegion r x).dlog = s.dlog := rfl
@[simp] theorem State.setRegion_parts (s : State) (r : Nat) (x : Region) : (s.setRegion r x).parts = s.parts := rfl
@[simp] theorem State.setRegion_fns (s : State) (r : Nat) (x : Region) : (s.setRegion r x).fns = s.fns := rfl
@[simp] theorem State.setRegion_sessions (s : State) (r : Nat) (x : Region) : (s.setRegion r x).sessions = s.sessions := rfl
@[simp] theorem State.setRegion_host (s : State) (r : Nat) (x : Region) : (s.setRegion r x).host = s.host := rfl
@[simp] theorem State.setRegion_flight (s : State) (r : Nat) (x : Region) : (s.setRegion r x).flight = s.flight := rfl
@[simp] theorem State.setRegion_credits (s : State) (r : Nat) (x : Region) : (s.setRegion r x).credits = s.credits := rfl
@[simp] theorem State.setRegion_ringSent (s : State) (r : Nat) (x : Region) : (s.setRegion r x).ringSent = s.ringSent := rfl
@[simp] theorem State.setRegion_ringFreed (s : State) (r : Nat) (x : Region) : (s.setRegion r x).ringFreed = s.ringFreed := rfl
@[simp] theorem State.setRegion_msix (s : State) (r : Nat) (x : Region) : (s.setRegion r x).msix = s.msix := rfl
@[simp] theorem State.setRegion_free (s : State) (r : Nat) (x : Region) : (s.setRegion r x).free = s.free := rfl
@[simp] theorem State.region_setRegion (s : State) (r m : Nat) (x : Region) :
    (s.setRegion r x).region m = if r = m then x else s.region m := Tab.look_put ..
@[simp] theorem State.setRegion_setRegion (s : State) (r : Nat) (x : Region) (x2 : Region) :
    (s.setRegion r x).setRegion r x2 = s.setRegion r x2 := by
  simp only [State.setRegion, Tab.put_put]
@[simp] theorem State.tile_setRegion (s : State) (r m : Nat) (x : Region) :
    (s.setRegion r x).tile m = s.tile m := rfl
@[simp] theorem State.router_setRegion (s : State) (r m : Nat) (x : Region) :
    (s.setRegion r x).router m = s.router m := rfl
@[simp] theorem State.site_setRegion (s : State) (r m : Nat) (x : Region) :
    (s.setRegion r x).site m = s.site m := rfl
@[simp] theorem State.iod_setRegion (s : State) (r m : Nat) (x : Region) :
    (s.setRegion r x).iod m = s.iod m := rfl
@[simp] theorem State.port_setRegion (s : State) (r m : Nat) (x : Region) :
    (s.setRegion r x).port m = s.port m := rfl
@[simp] theorem State.chan_setRegion (s : State) (r m : Nat) (x : Region) :
    (s.setRegion r x).chan m = s.chan m := rfl
@[simp] theorem State.part_setRegion (s : State) (r m : Nat) (x : Region) :
    (s.setRegion r x).part m = s.part m := rfl
@[simp] theorem State.fn_setRegion (s : State) (r m : Nat) (x : Region) :
    (s.setRegion r x).fn m = s.fn m := rfl
@[simp] theorem State.session_setRegion (s : State) (r m : Nat) (x : Region) :
    (s.setRegion r x).session m = s.session m := rfl

/-! ## setSite -/

@[simp] theorem State.setSite_pending (s : State) (x : Nat) (v : Site) : (s.setSite x v).pending = s.pending := rfl
@[simp] theorem State.setSite_mgt (s : State) (x : Nat) (v : Site) : (s.setSite x v).mgt = s.mgt := rfl
@[simp] theorem State.setSite_units (s : State) (x : Nat) (v : Site) : (s.setSite x v).units = s.units := rfl
@[simp] theorem State.setSite_tiles (s : State) (x : Nat) (v : Site) : (s.setSite x v).tiles = s.tiles := rfl
@[simp] theorem State.setSite_routers (s : State) (x : Nat) (v : Site) : (s.setSite x v).routers = s.routers := rfl
@[simp] theorem State.setSite_regions (s : State) (x : Nat) (v : Site) : (s.setSite x v).regions = s.regions := rfl
@[simp] theorem State.setSite_iods (s : State) (x : Nat) (v : Site) : (s.setSite x v).iods = s.iods := rfl
@[simp] theorem State.setSite_ports (s : State) (x : Nat) (v : Site) : (s.setSite x v).ports = s.ports := rfl
@[simp] theorem State.setSite_pages (s : State) (x : Nat) (v : Site) : (s.setSite x v).pages = s.pages := rfl
@[simp] theorem State.setSite_moves (s : State) (x : Nat) (v : Site) : (s.setSite x v).moves = s.moves := rfl
@[simp] theorem State.setSite_hbm (s : State) (x : Nat) (v : Site) : (s.setSite x v).hbm = s.hbm := rfl
@[simp] theorem State.setSite_chans (s : State) (x : Nat) (v : Site) : (s.setSite x v).chans = s.chans := rfl
@[simp] theorem State.setSite_dlog (s : State) (x : Nat) (v : Site) : (s.setSite x v).dlog = s.dlog := rfl
@[simp] theorem State.setSite_parts (s : State) (x : Nat) (v : Site) : (s.setSite x v).parts = s.parts := rfl
@[simp] theorem State.setSite_fns (s : State) (x : Nat) (v : Site) : (s.setSite x v).fns = s.fns := rfl
@[simp] theorem State.setSite_sessions (s : State) (x : Nat) (v : Site) : (s.setSite x v).sessions = s.sessions := rfl
@[simp] theorem State.setSite_host (s : State) (x : Nat) (v : Site) : (s.setSite x v).host = s.host := rfl
@[simp] theorem State.setSite_flight (s : State) (x : Nat) (v : Site) : (s.setSite x v).flight = s.flight := rfl
@[simp] theorem State.setSite_credits (s : State) (x : Nat) (v : Site) : (s.setSite x v).credits = s.credits := rfl
@[simp] theorem State.setSite_ringSent (s : State) (x : Nat) (v : Site) : (s.setSite x v).ringSent = s.ringSent := rfl
@[simp] theorem State.setSite_ringFreed (s : State) (x : Nat) (v : Site) : (s.setSite x v).ringFreed = s.ringFreed := rfl
@[simp] theorem State.setSite_msix (s : State) (x : Nat) (v : Site) : (s.setSite x v).msix = s.msix := rfl
@[simp] theorem State.setSite_free (s : State) (x : Nat) (v : Site) : (s.setSite x v).free = s.free := rfl
@[simp] theorem State.site_setSite (s : State) (x m : Nat) (v : Site) :
    (s.setSite x v).site m = if x = m then v else s.site m := Tab.look_put ..
@[simp] theorem State.setSite_setSite (s : State) (x : Nat) (v : Site) (v2 : Site) :
    (s.setSite x v).setSite x v2 = s.setSite x v2 := by
  simp only [State.setSite, Tab.put_put]
@[simp] theorem State.tile_setSite (s : State) (x m : Nat) (v : Site) :
    (s.setSite x v).tile m = s.tile m := rfl
@[simp] theorem State.router_setSite (s : State) (x m : Nat) (v : Site) :
    (s.setSite x v).router m = s.router m := rfl
@[simp] theorem State.region_setSite (s : State) (x m : Nat) (v : Site) :
    (s.setSite x v).region m = s.region m := rfl
@[simp] theorem State.iod_setSite (s : State) (x m : Nat) (v : Site) :
    (s.setSite x v).iod m = s.iod m := rfl
@[simp] theorem State.port_setSite (s : State) (x m : Nat) (v : Site) :
    (s.setSite x v).port m = s.port m := rfl
@[simp] theorem State.chan_setSite (s : State) (x m : Nat) (v : Site) :
    (s.setSite x v).chan m = s.chan m := rfl
@[simp] theorem State.part_setSite (s : State) (x m : Nat) (v : Site) :
    (s.setSite x v).part m = s.part m := rfl
@[simp] theorem State.fn_setSite (s : State) (x m : Nat) (v : Site) :
    (s.setSite x v).fn m = s.fn m := rfl
@[simp] theorem State.session_setSite (s : State) (x m : Nat) (v : Site) :
    (s.setSite x v).session m = s.session m := rfl

/-! ## setIod -/

@[simp] theorem State.setIod_pending (s : State) (d : Nat) (v : Iod) : (s.setIod d v).pending = s.pending := rfl
@[simp] theorem State.setIod_mgt (s : State) (d : Nat) (v : Iod) : (s.setIod d v).mgt = s.mgt := rfl
@[simp] theorem State.setIod_units (s : State) (d : Nat) (v : Iod) : (s.setIod d v).units = s.units := rfl
@[simp] theorem State.setIod_tiles (s : State) (d : Nat) (v : Iod) : (s.setIod d v).tiles = s.tiles := rfl
@[simp] theorem State.setIod_routers (s : State) (d : Nat) (v : Iod) : (s.setIod d v).routers = s.routers := rfl
@[simp] theorem State.setIod_regions (s : State) (d : Nat) (v : Iod) : (s.setIod d v).regions = s.regions := rfl
@[simp] theorem State.setIod_sites (s : State) (d : Nat) (v : Iod) : (s.setIod d v).sites = s.sites := rfl
@[simp] theorem State.setIod_ports (s : State) (d : Nat) (v : Iod) : (s.setIod d v).ports = s.ports := rfl
@[simp] theorem State.setIod_pages (s : State) (d : Nat) (v : Iod) : (s.setIod d v).pages = s.pages := rfl
@[simp] theorem State.setIod_moves (s : State) (d : Nat) (v : Iod) : (s.setIod d v).moves = s.moves := rfl
@[simp] theorem State.setIod_hbm (s : State) (d : Nat) (v : Iod) : (s.setIod d v).hbm = s.hbm := rfl
@[simp] theorem State.setIod_chans (s : State) (d : Nat) (v : Iod) : (s.setIod d v).chans = s.chans := rfl
@[simp] theorem State.setIod_dlog (s : State) (d : Nat) (v : Iod) : (s.setIod d v).dlog = s.dlog := rfl
@[simp] theorem State.setIod_parts (s : State) (d : Nat) (v : Iod) : (s.setIod d v).parts = s.parts := rfl
@[simp] theorem State.setIod_fns (s : State) (d : Nat) (v : Iod) : (s.setIod d v).fns = s.fns := rfl
@[simp] theorem State.setIod_sessions (s : State) (d : Nat) (v : Iod) : (s.setIod d v).sessions = s.sessions := rfl
@[simp] theorem State.setIod_host (s : State) (d : Nat) (v : Iod) : (s.setIod d v).host = s.host := rfl
@[simp] theorem State.setIod_flight (s : State) (d : Nat) (v : Iod) : (s.setIod d v).flight = s.flight := rfl
@[simp] theorem State.setIod_credits (s : State) (d : Nat) (v : Iod) : (s.setIod d v).credits = s.credits := rfl
@[simp] theorem State.setIod_ringSent (s : State) (d : Nat) (v : Iod) : (s.setIod d v).ringSent = s.ringSent := rfl
@[simp] theorem State.setIod_ringFreed (s : State) (d : Nat) (v : Iod) : (s.setIod d v).ringFreed = s.ringFreed := rfl
@[simp] theorem State.setIod_msix (s : State) (d : Nat) (v : Iod) : (s.setIod d v).msix = s.msix := rfl
@[simp] theorem State.setIod_free (s : State) (d : Nat) (v : Iod) : (s.setIod d v).free = s.free := rfl
@[simp] theorem State.iod_setIod (s : State) (d m : Nat) (v : Iod) :
    (s.setIod d v).iod m = if d = m then v else s.iod m := Tab.look_put ..
@[simp] theorem State.setIod_setIod (s : State) (d : Nat) (v : Iod) (v2 : Iod) :
    (s.setIod d v).setIod d v2 = s.setIod d v2 := by
  simp only [State.setIod, Tab.put_put]
@[simp] theorem State.tile_setIod (s : State) (d m : Nat) (v : Iod) :
    (s.setIod d v).tile m = s.tile m := rfl
@[simp] theorem State.router_setIod (s : State) (d m : Nat) (v : Iod) :
    (s.setIod d v).router m = s.router m := rfl
@[simp] theorem State.region_setIod (s : State) (d m : Nat) (v : Iod) :
    (s.setIod d v).region m = s.region m := rfl
@[simp] theorem State.site_setIod (s : State) (d m : Nat) (v : Iod) :
    (s.setIod d v).site m = s.site m := rfl
@[simp] theorem State.port_setIod (s : State) (d m : Nat) (v : Iod) :
    (s.setIod d v).port m = s.port m := rfl
@[simp] theorem State.chan_setIod (s : State) (d m : Nat) (v : Iod) :
    (s.setIod d v).chan m = s.chan m := rfl
@[simp] theorem State.part_setIod (s : State) (d m : Nat) (v : Iod) :
    (s.setIod d v).part m = s.part m := rfl
@[simp] theorem State.fn_setIod (s : State) (d m : Nat) (v : Iod) :
    (s.setIod d v).fn m = s.fn m := rfl
@[simp] theorem State.session_setIod (s : State) (d m : Nat) (v : Iod) :
    (s.setIod d v).session m = s.session m := rfl

/-! ## setPort -/

@[simp] theorem State.setPort_pending (s : State) (p : Nat) (v : Port) : (s.setPort p v).pending = s.pending := rfl
@[simp] theorem State.setPort_mgt (s : State) (p : Nat) (v : Port) : (s.setPort p v).mgt = s.mgt := rfl
@[simp] theorem State.setPort_units (s : State) (p : Nat) (v : Port) : (s.setPort p v).units = s.units := rfl
@[simp] theorem State.setPort_tiles (s : State) (p : Nat) (v : Port) : (s.setPort p v).tiles = s.tiles := rfl
@[simp] theorem State.setPort_routers (s : State) (p : Nat) (v : Port) : (s.setPort p v).routers = s.routers := rfl
@[simp] theorem State.setPort_regions (s : State) (p : Nat) (v : Port) : (s.setPort p v).regions = s.regions := rfl
@[simp] theorem State.setPort_sites (s : State) (p : Nat) (v : Port) : (s.setPort p v).sites = s.sites := rfl
@[simp] theorem State.setPort_iods (s : State) (p : Nat) (v : Port) : (s.setPort p v).iods = s.iods := rfl
@[simp] theorem State.setPort_pages (s : State) (p : Nat) (v : Port) : (s.setPort p v).pages = s.pages := rfl
@[simp] theorem State.setPort_moves (s : State) (p : Nat) (v : Port) : (s.setPort p v).moves = s.moves := rfl
@[simp] theorem State.setPort_hbm (s : State) (p : Nat) (v : Port) : (s.setPort p v).hbm = s.hbm := rfl
@[simp] theorem State.setPort_chans (s : State) (p : Nat) (v : Port) : (s.setPort p v).chans = s.chans := rfl
@[simp] theorem State.setPort_dlog (s : State) (p : Nat) (v : Port) : (s.setPort p v).dlog = s.dlog := rfl
@[simp] theorem State.setPort_parts (s : State) (p : Nat) (v : Port) : (s.setPort p v).parts = s.parts := rfl
@[simp] theorem State.setPort_fns (s : State) (p : Nat) (v : Port) : (s.setPort p v).fns = s.fns := rfl
@[simp] theorem State.setPort_sessions (s : State) (p : Nat) (v : Port) : (s.setPort p v).sessions = s.sessions := rfl
@[simp] theorem State.setPort_host (s : State) (p : Nat) (v : Port) : (s.setPort p v).host = s.host := rfl
@[simp] theorem State.setPort_flight (s : State) (p : Nat) (v : Port) : (s.setPort p v).flight = s.flight := rfl
@[simp] theorem State.setPort_credits (s : State) (p : Nat) (v : Port) : (s.setPort p v).credits = s.credits := rfl
@[simp] theorem State.setPort_ringSent (s : State) (p : Nat) (v : Port) : (s.setPort p v).ringSent = s.ringSent := rfl
@[simp] theorem State.setPort_ringFreed (s : State) (p : Nat) (v : Port) : (s.setPort p v).ringFreed = s.ringFreed := rfl
@[simp] theorem State.setPort_msix (s : State) (p : Nat) (v : Port) : (s.setPort p v).msix = s.msix := rfl
@[simp] theorem State.setPort_free (s : State) (p : Nat) (v : Port) : (s.setPort p v).free = s.free := rfl
@[simp] theorem State.port_setPort (s : State) (p m : Nat) (v : Port) :
    (s.setPort p v).port m = if p = m then v else s.port m := Tab.look_put ..
@[simp] theorem State.setPort_setPort (s : State) (p : Nat) (v : Port) (v2 : Port) :
    (s.setPort p v).setPort p v2 = s.setPort p v2 := by
  simp only [State.setPort, Tab.put_put]
@[simp] theorem State.tile_setPort (s : State) (p m : Nat) (v : Port) :
    (s.setPort p v).tile m = s.tile m := rfl
@[simp] theorem State.router_setPort (s : State) (p m : Nat) (v : Port) :
    (s.setPort p v).router m = s.router m := rfl
@[simp] theorem State.region_setPort (s : State) (p m : Nat) (v : Port) :
    (s.setPort p v).region m = s.region m := rfl
@[simp] theorem State.site_setPort (s : State) (p m : Nat) (v : Port) :
    (s.setPort p v).site m = s.site m := rfl
@[simp] theorem State.iod_setPort (s : State) (p m : Nat) (v : Port) :
    (s.setPort p v).iod m = s.iod m := rfl
@[simp] theorem State.chan_setPort (s : State) (p m : Nat) (v : Port) :
    (s.setPort p v).chan m = s.chan m := rfl
@[simp] theorem State.part_setPort (s : State) (p m : Nat) (v : Port) :
    (s.setPort p v).part m = s.part m := rfl
@[simp] theorem State.fn_setPort (s : State) (p m : Nat) (v : Port) :
    (s.setPort p v).fn m = s.fn m := rfl
@[simp] theorem State.session_setPort (s : State) (p m : Nat) (v : Port) :
    (s.setPort p v).session m = s.session m := rfl

/-! ## setChan -/

@[simp] theorem State.setChan_pending (s : State) (c : Nat) (v : Chan) : (s.setChan c v).pending = s.pending := rfl
@[simp] theorem State.setChan_mgt (s : State) (c : Nat) (v : Chan) : (s.setChan c v).mgt = s.mgt := rfl
@[simp] theorem State.setChan_units (s : State) (c : Nat) (v : Chan) : (s.setChan c v).units = s.units := rfl
@[simp] theorem State.setChan_tiles (s : State) (c : Nat) (v : Chan) : (s.setChan c v).tiles = s.tiles := rfl
@[simp] theorem State.setChan_routers (s : State) (c : Nat) (v : Chan) : (s.setChan c v).routers = s.routers := rfl
@[simp] theorem State.setChan_regions (s : State) (c : Nat) (v : Chan) : (s.setChan c v).regions = s.regions := rfl
@[simp] theorem State.setChan_sites (s : State) (c : Nat) (v : Chan) : (s.setChan c v).sites = s.sites := rfl
@[simp] theorem State.setChan_iods (s : State) (c : Nat) (v : Chan) : (s.setChan c v).iods = s.iods := rfl
@[simp] theorem State.setChan_ports (s : State) (c : Nat) (v : Chan) : (s.setChan c v).ports = s.ports := rfl
@[simp] theorem State.setChan_pages (s : State) (c : Nat) (v : Chan) : (s.setChan c v).pages = s.pages := rfl
@[simp] theorem State.setChan_moves (s : State) (c : Nat) (v : Chan) : (s.setChan c v).moves = s.moves := rfl
@[simp] theorem State.setChan_hbm (s : State) (c : Nat) (v : Chan) : (s.setChan c v).hbm = s.hbm := rfl
@[simp] theorem State.setChan_dlog (s : State) (c : Nat) (v : Chan) : (s.setChan c v).dlog = s.dlog := rfl
@[simp] theorem State.setChan_parts (s : State) (c : Nat) (v : Chan) : (s.setChan c v).parts = s.parts := rfl
@[simp] theorem State.setChan_fns (s : State) (c : Nat) (v : Chan) : (s.setChan c v).fns = s.fns := rfl
@[simp] theorem State.setChan_sessions (s : State) (c : Nat) (v : Chan) : (s.setChan c v).sessions = s.sessions := rfl
@[simp] theorem State.setChan_host (s : State) (c : Nat) (v : Chan) : (s.setChan c v).host = s.host := rfl
@[simp] theorem State.setChan_flight (s : State) (c : Nat) (v : Chan) : (s.setChan c v).flight = s.flight := rfl
@[simp] theorem State.setChan_credits (s : State) (c : Nat) (v : Chan) : (s.setChan c v).credits = s.credits := rfl
@[simp] theorem State.setChan_ringSent (s : State) (c : Nat) (v : Chan) : (s.setChan c v).ringSent = s.ringSent := rfl
@[simp] theorem State.setChan_ringFreed (s : State) (c : Nat) (v : Chan) : (s.setChan c v).ringFreed = s.ringFreed := rfl
@[simp] theorem State.setChan_msix (s : State) (c : Nat) (v : Chan) : (s.setChan c v).msix = s.msix := rfl
@[simp] theorem State.setChan_free (s : State) (c : Nat) (v : Chan) : (s.setChan c v).free = s.free := rfl
@[simp] theorem State.chan_setChan (s : State) (c m : Nat) (v : Chan) :
    (s.setChan c v).chan m = if c = m then v else s.chan m := Tab.look_put ..
@[simp] theorem State.setChan_setChan (s : State) (c : Nat) (v : Chan) (v2 : Chan) :
    (s.setChan c v).setChan c v2 = s.setChan c v2 := by
  simp only [State.setChan, Tab.put_put]
@[simp] theorem State.tile_setChan (s : State) (c m : Nat) (v : Chan) :
    (s.setChan c v).tile m = s.tile m := rfl
@[simp] theorem State.router_setChan (s : State) (c m : Nat) (v : Chan) :
    (s.setChan c v).router m = s.router m := rfl
@[simp] theorem State.region_setChan (s : State) (c m : Nat) (v : Chan) :
    (s.setChan c v).region m = s.region m := rfl
@[simp] theorem State.site_setChan (s : State) (c m : Nat) (v : Chan) :
    (s.setChan c v).site m = s.site m := rfl
@[simp] theorem State.iod_setChan (s : State) (c m : Nat) (v : Chan) :
    (s.setChan c v).iod m = s.iod m := rfl
@[simp] theorem State.port_setChan (s : State) (c m : Nat) (v : Chan) :
    (s.setChan c v).port m = s.port m := rfl
@[simp] theorem State.part_setChan (s : State) (c m : Nat) (v : Chan) :
    (s.setChan c v).part m = s.part m := rfl
@[simp] theorem State.fn_setChan (s : State) (c m : Nat) (v : Chan) :
    (s.setChan c v).fn m = s.fn m := rfl
@[simp] theorem State.session_setChan (s : State) (c m : Nat) (v : Chan) :
    (s.setChan c v).session m = s.session m := rfl

/-! ## setPart -/

@[simp] theorem State.setPart_pending (s : State) (p : Nat) (v : Part) : (s.setPart p v).pending = s.pending := rfl
@[simp] theorem State.setPart_mgt (s : State) (p : Nat) (v : Part) : (s.setPart p v).mgt = s.mgt := rfl
@[simp] theorem State.setPart_units (s : State) (p : Nat) (v : Part) : (s.setPart p v).units = s.units := rfl
@[simp] theorem State.setPart_tiles (s : State) (p : Nat) (v : Part) : (s.setPart p v).tiles = s.tiles := rfl
@[simp] theorem State.setPart_routers (s : State) (p : Nat) (v : Part) : (s.setPart p v).routers = s.routers := rfl
@[simp] theorem State.setPart_regions (s : State) (p : Nat) (v : Part) : (s.setPart p v).regions = s.regions := rfl
@[simp] theorem State.setPart_sites (s : State) (p : Nat) (v : Part) : (s.setPart p v).sites = s.sites := rfl
@[simp] theorem State.setPart_iods (s : State) (p : Nat) (v : Part) : (s.setPart p v).iods = s.iods := rfl
@[simp] theorem State.setPart_ports (s : State) (p : Nat) (v : Part) : (s.setPart p v).ports = s.ports := rfl
@[simp] theorem State.setPart_pages (s : State) (p : Nat) (v : Part) : (s.setPart p v).pages = s.pages := rfl
@[simp] theorem State.setPart_moves (s : State) (p : Nat) (v : Part) : (s.setPart p v).moves = s.moves := rfl
@[simp] theorem State.setPart_hbm (s : State) (p : Nat) (v : Part) : (s.setPart p v).hbm = s.hbm := rfl
@[simp] theorem State.setPart_chans (s : State) (p : Nat) (v : Part) : (s.setPart p v).chans = s.chans := rfl
@[simp] theorem State.setPart_dlog (s : State) (p : Nat) (v : Part) : (s.setPart p v).dlog = s.dlog := rfl
@[simp] theorem State.setPart_fns (s : State) (p : Nat) (v : Part) : (s.setPart p v).fns = s.fns := rfl
@[simp] theorem State.setPart_sessions (s : State) (p : Nat) (v : Part) : (s.setPart p v).sessions = s.sessions := rfl
@[simp] theorem State.setPart_host (s : State) (p : Nat) (v : Part) : (s.setPart p v).host = s.host := rfl
@[simp] theorem State.setPart_flight (s : State) (p : Nat) (v : Part) : (s.setPart p v).flight = s.flight := rfl
@[simp] theorem State.setPart_credits (s : State) (p : Nat) (v : Part) : (s.setPart p v).credits = s.credits := rfl
@[simp] theorem State.setPart_ringSent (s : State) (p : Nat) (v : Part) : (s.setPart p v).ringSent = s.ringSent := rfl
@[simp] theorem State.setPart_ringFreed (s : State) (p : Nat) (v : Part) : (s.setPart p v).ringFreed = s.ringFreed := rfl
@[simp] theorem State.setPart_msix (s : State) (p : Nat) (v : Part) : (s.setPart p v).msix = s.msix := rfl
@[simp] theorem State.setPart_free (s : State) (p : Nat) (v : Part) : (s.setPart p v).free = s.free := rfl
@[simp] theorem State.part_setPart (s : State) (p m : Nat) (v : Part) :
    (s.setPart p v).part m = if p = m then v else s.part m := Tab.look_put ..
@[simp] theorem State.setPart_setPart (s : State) (p : Nat) (v : Part) (v2 : Part) :
    (s.setPart p v).setPart p v2 = s.setPart p v2 := by
  simp only [State.setPart, Tab.put_put]
@[simp] theorem State.tile_setPart (s : State) (p m : Nat) (v : Part) :
    (s.setPart p v).tile m = s.tile m := rfl
@[simp] theorem State.router_setPart (s : State) (p m : Nat) (v : Part) :
    (s.setPart p v).router m = s.router m := rfl
@[simp] theorem State.region_setPart (s : State) (p m : Nat) (v : Part) :
    (s.setPart p v).region m = s.region m := rfl
@[simp] theorem State.site_setPart (s : State) (p m : Nat) (v : Part) :
    (s.setPart p v).site m = s.site m := rfl
@[simp] theorem State.iod_setPart (s : State) (p m : Nat) (v : Part) :
    (s.setPart p v).iod m = s.iod m := rfl
@[simp] theorem State.port_setPart (s : State) (p m : Nat) (v : Part) :
    (s.setPart p v).port m = s.port m := rfl
@[simp] theorem State.chan_setPart (s : State) (p m : Nat) (v : Part) :
    (s.setPart p v).chan m = s.chan m := rfl
@[simp] theorem State.fn_setPart (s : State) (p m : Nat) (v : Part) :
    (s.setPart p v).fn m = s.fn m := rfl
@[simp] theorem State.session_setPart (s : State) (p m : Nat) (v : Part) :
    (s.setPart p v).session m = s.session m := rfl

/-! ## setFn -/

@[simp] theorem State.setFn_pending (s : State) (f : Nat) (v : Fn) : (s.setFn f v).pending = s.pending := rfl
@[simp] theorem State.setFn_mgt (s : State) (f : Nat) (v : Fn) : (s.setFn f v).mgt = s.mgt := rfl
@[simp] theorem State.setFn_units (s : State) (f : Nat) (v : Fn) : (s.setFn f v).units = s.units := rfl
@[simp] theorem State.setFn_tiles (s : State) (f : Nat) (v : Fn) : (s.setFn f v).tiles = s.tiles := rfl
@[simp] theorem State.setFn_routers (s : State) (f : Nat) (v : Fn) : (s.setFn f v).routers = s.routers := rfl
@[simp] theorem State.setFn_regions (s : State) (f : Nat) (v : Fn) : (s.setFn f v).regions = s.regions := rfl
@[simp] theorem State.setFn_sites (s : State) (f : Nat) (v : Fn) : (s.setFn f v).sites = s.sites := rfl
@[simp] theorem State.setFn_iods (s : State) (f : Nat) (v : Fn) : (s.setFn f v).iods = s.iods := rfl
@[simp] theorem State.setFn_ports (s : State) (f : Nat) (v : Fn) : (s.setFn f v).ports = s.ports := rfl
@[simp] theorem State.setFn_pages (s : State) (f : Nat) (v : Fn) : (s.setFn f v).pages = s.pages := rfl
@[simp] theorem State.setFn_moves (s : State) (f : Nat) (v : Fn) : (s.setFn f v).moves = s.moves := rfl
@[simp] theorem State.setFn_hbm (s : State) (f : Nat) (v : Fn) : (s.setFn f v).hbm = s.hbm := rfl
@[simp] theorem State.setFn_chans (s : State) (f : Nat) (v : Fn) : (s.setFn f v).chans = s.chans := rfl
@[simp] theorem State.setFn_dlog (s : State) (f : Nat) (v : Fn) : (s.setFn f v).dlog = s.dlog := rfl
@[simp] theorem State.setFn_parts (s : State) (f : Nat) (v : Fn) : (s.setFn f v).parts = s.parts := rfl
@[simp] theorem State.setFn_sessions (s : State) (f : Nat) (v : Fn) : (s.setFn f v).sessions = s.sessions := rfl
@[simp] theorem State.setFn_host (s : State) (f : Nat) (v : Fn) : (s.setFn f v).host = s.host := rfl
@[simp] theorem State.setFn_flight (s : State) (f : Nat) (v : Fn) : (s.setFn f v).flight = s.flight := rfl
@[simp] theorem State.setFn_credits (s : State) (f : Nat) (v : Fn) : (s.setFn f v).credits = s.credits := rfl
@[simp] theorem State.setFn_ringSent (s : State) (f : Nat) (v : Fn) : (s.setFn f v).ringSent = s.ringSent := rfl
@[simp] theorem State.setFn_ringFreed (s : State) (f : Nat) (v : Fn) : (s.setFn f v).ringFreed = s.ringFreed := rfl
@[simp] theorem State.setFn_msix (s : State) (f : Nat) (v : Fn) : (s.setFn f v).msix = s.msix := rfl
@[simp] theorem State.setFn_free (s : State) (f : Nat) (v : Fn) : (s.setFn f v).free = s.free := rfl
@[simp] theorem State.fn_setFn (s : State) (f m : Nat) (v : Fn) :
    (s.setFn f v).fn m = if f = m then v else s.fn m := Tab.look_put ..
@[simp] theorem State.setFn_setFn (s : State) (f : Nat) (v : Fn) (v2 : Fn) :
    (s.setFn f v).setFn f v2 = s.setFn f v2 := by
  simp only [State.setFn, Tab.put_put]
@[simp] theorem State.tile_setFn (s : State) (f m : Nat) (v : Fn) :
    (s.setFn f v).tile m = s.tile m := rfl
@[simp] theorem State.router_setFn (s : State) (f m : Nat) (v : Fn) :
    (s.setFn f v).router m = s.router m := rfl
@[simp] theorem State.region_setFn (s : State) (f m : Nat) (v : Fn) :
    (s.setFn f v).region m = s.region m := rfl
@[simp] theorem State.site_setFn (s : State) (f m : Nat) (v : Fn) :
    (s.setFn f v).site m = s.site m := rfl
@[simp] theorem State.iod_setFn (s : State) (f m : Nat) (v : Fn) :
    (s.setFn f v).iod m = s.iod m := rfl
@[simp] theorem State.port_setFn (s : State) (f m : Nat) (v : Fn) :
    (s.setFn f v).port m = s.port m := rfl
@[simp] theorem State.chan_setFn (s : State) (f m : Nat) (v : Fn) :
    (s.setFn f v).chan m = s.chan m := rfl
@[simp] theorem State.part_setFn (s : State) (f m : Nat) (v : Fn) :
    (s.setFn f v).part m = s.part m := rfl
@[simp] theorem State.session_setFn (s : State) (f m : Nat) (v : Fn) :
    (s.setFn f v).session m = s.session m := rfl

/-! ## setSession -/

@[simp] theorem State.setSession_pending (s : State) (n : Nat) (v : Option Session) : (s.setSession n v).pending = s.pending := rfl
@[simp] theorem State.setSession_mgt (s : State) (n : Nat) (v : Option Session) : (s.setSession n v).mgt = s.mgt := rfl
@[simp] theorem State.setSession_units (s : State) (n : Nat) (v : Option Session) : (s.setSession n v).units = s.units := rfl
@[simp] theorem State.setSession_tiles (s : State) (n : Nat) (v : Option Session) : (s.setSession n v).tiles = s.tiles := rfl
@[simp] theorem State.setSession_routers (s : State) (n : Nat) (v : Option Session) : (s.setSession n v).routers = s.routers := rfl
@[simp] theorem State.setSession_regions (s : State) (n : Nat) (v : Option Session) : (s.setSession n v).regions = s.regions := rfl
@[simp] theorem State.setSession_sites (s : State) (n : Nat) (v : Option Session) : (s.setSession n v).sites = s.sites := rfl
@[simp] theorem State.setSession_iods (s : State) (n : Nat) (v : Option Session) : (s.setSession n v).iods = s.iods := rfl
@[simp] theorem State.setSession_ports (s : State) (n : Nat) (v : Option Session) : (s.setSession n v).ports = s.ports := rfl
@[simp] theorem State.setSession_pages (s : State) (n : Nat) (v : Option Session) : (s.setSession n v).pages = s.pages := rfl
@[simp] theorem State.setSession_moves (s : State) (n : Nat) (v : Option Session) : (s.setSession n v).moves = s.moves := rfl
@[simp] theorem State.setSession_hbm (s : State) (n : Nat) (v : Option Session) : (s.setSession n v).hbm = s.hbm := rfl
@[simp] theorem State.setSession_chans (s : State) (n : Nat) (v : Option Session) : (s.setSession n v).chans = s.chans := rfl
@[simp] theorem State.setSession_dlog (s : State) (n : Nat) (v : Option Session) : (s.setSession n v).dlog = s.dlog := rfl
@[simp] theorem State.setSession_parts (s : State) (n : Nat) (v : Option Session) : (s.setSession n v).parts = s.parts := rfl
@[simp] theorem State.setSession_fns (s : State) (n : Nat) (v : Option Session) : (s.setSession n v).fns = s.fns := rfl
@[simp] theorem State.setSession_host (s : State) (n : Nat) (v : Option Session) : (s.setSession n v).host = s.host := rfl
@[simp] theorem State.setSession_flight (s : State) (n : Nat) (v : Option Session) : (s.setSession n v).flight = s.flight := rfl
@[simp] theorem State.setSession_credits (s : State) (n : Nat) (v : Option Session) : (s.setSession n v).credits = s.credits := rfl
@[simp] theorem State.setSession_ringSent (s : State) (n : Nat) (v : Option Session) : (s.setSession n v).ringSent = s.ringSent := rfl
@[simp] theorem State.setSession_ringFreed (s : State) (n : Nat) (v : Option Session) : (s.setSession n v).ringFreed = s.ringFreed := rfl
@[simp] theorem State.setSession_msix (s : State) (n : Nat) (v : Option Session) : (s.setSession n v).msix = s.msix := rfl
@[simp] theorem State.setSession_free (s : State) (n : Nat) (v : Option Session) : (s.setSession n v).free = s.free := rfl
@[simp] theorem State.session_setSession (s : State) (n m : Nat) (v : Option Session) :
    (s.setSession n v).session m = if n = m then v else s.session m := Tab.look_put ..
@[simp] theorem State.setSession_setSession (s : State) (n : Nat) (v : Option Session) (v2 : Option Session) :
    (s.setSession n v).setSession n v2 = s.setSession n v2 := by
  simp only [State.setSession, Tab.put_put]
@[simp] theorem State.tile_setSession (s : State) (n m : Nat) (v : Option Session) :
    (s.setSession n v).tile m = s.tile m := rfl
@[simp] theorem State.router_setSession (s : State) (n m : Nat) (v : Option Session) :
    (s.setSession n v).router m = s.router m := rfl
@[simp] theorem State.region_setSession (s : State) (n m : Nat) (v : Option Session) :
    (s.setSession n v).region m = s.region m := rfl
@[simp] theorem State.site_setSession (s : State) (n m : Nat) (v : Option Session) :
    (s.setSession n v).site m = s.site m := rfl
@[simp] theorem State.iod_setSession (s : State) (n m : Nat) (v : Option Session) :
    (s.setSession n v).iod m = s.iod m := rfl
@[simp] theorem State.port_setSession (s : State) (n m : Nat) (v : Option Session) :
    (s.setSession n v).port m = s.port m := rfl
@[simp] theorem State.chan_setSession (s : State) (n m : Nat) (v : Option Session) :
    (s.setSession n v).chan m = s.chan m := rfl
@[simp] theorem State.part_setSession (s : State) (n m : Nat) (v : Option Session) :
    (s.setSession n v).part m = s.part m := rfl
@[simp] theorem State.fn_setSession (s : State) (n m : Nat) (v : Option Session) :
    (s.setSession n v).fn m = s.fn m := rfl

/-! ## modMgt -/

@[simp] theorem State.modMgt_pending (s : State) (f : Mgt → Mgt) : (s.modMgt f).pending = s.pending := rfl
@[simp] theorem State.modMgt_mgt (s : State) (f : Mgt → Mgt) : (s.modMgt f).mgt = f s.mgt := rfl
@[simp] theorem State.modMgt_units (s : State) (f : Mgt → Mgt) : (s.modMgt f).units = s.units := rfl
@[simp] theorem State.modMgt_tiles (s : State) (f : Mgt → Mgt) : (s.modMgt f).tiles = s.tiles := rfl
@[simp] theorem State.modMgt_routers (s : State) (f : Mgt → Mgt) : (s.modMgt f).routers = s.routers := rfl
@[simp] theorem State.modMgt_regions (s : State) (f : Mgt → Mgt) : (s.modMgt f).regions = s.regions := rfl
@[simp] theorem State.modMgt_sites (s : State) (f : Mgt → Mgt) : (s.modMgt f).sites = s.sites := rfl
@[simp] theorem State.modMgt_iods (s : State) (f : Mgt → Mgt) : (s.modMgt f).iods = s.iods := rfl
@[simp] theorem State.modMgt_ports (s : State) (f : Mgt → Mgt) : (s.modMgt f).ports = s.ports := rfl
@[simp] theorem State.modMgt_pages (s : State) (f : Mgt → Mgt) : (s.modMgt f).pages = s.pages := rfl
@[simp] theorem State.modMgt_moves (s : State) (f : Mgt → Mgt) : (s.modMgt f).moves = s.moves := rfl
@[simp] theorem State.modMgt_hbm (s : State) (f : Mgt → Mgt) : (s.modMgt f).hbm = s.hbm := rfl
@[simp] theorem State.modMgt_chans (s : State) (f : Mgt → Mgt) : (s.modMgt f).chans = s.chans := rfl
@[simp] theorem State.modMgt_dlog (s : State) (f : Mgt → Mgt) : (s.modMgt f).dlog = s.dlog := rfl
@[simp] theorem State.modMgt_parts (s : State) (f : Mgt → Mgt) : (s.modMgt f).parts = s.parts := rfl
@[simp] theorem State.modMgt_fns (s : State) (f : Mgt → Mgt) : (s.modMgt f).fns = s.fns := rfl
@[simp] theorem State.modMgt_sessions (s : State) (f : Mgt → Mgt) : (s.modMgt f).sessions = s.sessions := rfl
@[simp] theorem State.modMgt_host (s : State) (f : Mgt → Mgt) : (s.modMgt f).host = s.host := rfl
@[simp] theorem State.modMgt_flight (s : State) (f : Mgt → Mgt) : (s.modMgt f).flight = s.flight := rfl
@[simp] theorem State.modMgt_credits (s : State) (f : Mgt → Mgt) : (s.modMgt f).credits = s.credits := rfl
@[simp] theorem State.modMgt_ringSent (s : State) (f : Mgt → Mgt) : (s.modMgt f).ringSent = s.ringSent := rfl
@[simp] theorem State.modMgt_ringFreed (s : State) (f : Mgt → Mgt) : (s.modMgt f).ringFreed = s.ringFreed := rfl
@[simp] theorem State.modMgt_msix (s : State) (f : Mgt → Mgt) : (s.modMgt f).msix = s.msix := rfl
@[simp] theorem State.modMgt_free (s : State) (f : Mgt → Mgt) : (s.modMgt f).free = s.free := rfl
@[simp] theorem State.tile_modMgt (s : State) (f : Mgt → Mgt) (m : Nat) : (s.modMgt f).tile m = s.tile m := rfl
@[simp] theorem State.router_modMgt (s : State) (f : Mgt → Mgt) (m : Nat) : (s.modMgt f).router m = s.router m := rfl
@[simp] theorem State.region_modMgt (s : State) (f : Mgt → Mgt) (m : Nat) : (s.modMgt f).region m = s.region m := rfl
@[simp] theorem State.site_modMgt (s : State) (f : Mgt → Mgt) (m : Nat) : (s.modMgt f).site m = s.site m := rfl
@[simp] theorem State.iod_modMgt (s : State) (f : Mgt → Mgt) (m : Nat) : (s.modMgt f).iod m = s.iod m := rfl
@[simp] theorem State.port_modMgt (s : State) (f : Mgt → Mgt) (m : Nat) : (s.modMgt f).port m = s.port m := rfl
@[simp] theorem State.chan_modMgt (s : State) (f : Mgt → Mgt) (m : Nat) : (s.modMgt f).chan m = s.chan m := rfl
@[simp] theorem State.part_modMgt (s : State) (f : Mgt → Mgt) (m : Nat) : (s.modMgt f).part m = s.part m := rfl
@[simp] theorem State.fn_modMgt (s : State) (f : Mgt → Mgt) (m : Nat) : (s.modMgt f).fn m = s.fn m := rfl
@[simp] theorem State.session_modMgt (s : State) (f : Mgt → Mgt) (m : Nat) : (s.modMgt f).session m = s.session m := rfl

/-! ## modUnits -/

@[simp] theorem State.modUnits_pending (s : State) (f : Units → Units) : (s.modUnits f).pending = s.pending := rfl
@[simp] theorem State.modUnits_mgt (s : State) (f : Units → Units) : (s.modUnits f).mgt = s.mgt := rfl
@[simp] theorem State.modUnits_units (s : State) (f : Units → Units) : (s.modUnits f).units = f s.units := rfl
@[simp] theorem State.modUnits_tiles (s : State) (f : Units → Units) : (s.modUnits f).tiles = s.tiles := rfl
@[simp] theorem State.modUnits_routers (s : State) (f : Units → Units) : (s.modUnits f).routers = s.routers := rfl
@[simp] theorem State.modUnits_regions (s : State) (f : Units → Units) : (s.modUnits f).regions = s.regions := rfl
@[simp] theorem State.modUnits_sites (s : State) (f : Units → Units) : (s.modUnits f).sites = s.sites := rfl
@[simp] theorem State.modUnits_iods (s : State) (f : Units → Units) : (s.modUnits f).iods = s.iods := rfl
@[simp] theorem State.modUnits_ports (s : State) (f : Units → Units) : (s.modUnits f).ports = s.ports := rfl
@[simp] theorem State.modUnits_pages (s : State) (f : Units → Units) : (s.modUnits f).pages = s.pages := rfl
@[simp] theorem State.modUnits_moves (s : State) (f : Units → Units) : (s.modUnits f).moves = s.moves := rfl
@[simp] theorem State.modUnits_hbm (s : State) (f : Units → Units) : (s.modUnits f).hbm = s.hbm := rfl
@[simp] theorem State.modUnits_chans (s : State) (f : Units → Units) : (s.modUnits f).chans = s.chans := rfl
@[simp] theorem State.modUnits_dlog (s : State) (f : Units → Units) : (s.modUnits f).dlog = s.dlog := rfl
@[simp] theorem State.modUnits_parts (s : State) (f : Units → Units) : (s.modUnits f).parts = s.parts := rfl
@[simp] theorem State.modUnits_fns (s : State) (f : Units → Units) : (s.modUnits f).fns = s.fns := rfl
@[simp] theorem State.modUnits_sessions (s : State) (f : Units → Units) : (s.modUnits f).sessions = s.sessions := rfl
@[simp] theorem State.modUnits_host (s : State) (f : Units → Units) : (s.modUnits f).host = s.host := rfl
@[simp] theorem State.modUnits_flight (s : State) (f : Units → Units) : (s.modUnits f).flight = s.flight := rfl
@[simp] theorem State.modUnits_credits (s : State) (f : Units → Units) : (s.modUnits f).credits = s.credits := rfl
@[simp] theorem State.modUnits_ringSent (s : State) (f : Units → Units) : (s.modUnits f).ringSent = s.ringSent := rfl
@[simp] theorem State.modUnits_ringFreed (s : State) (f : Units → Units) : (s.modUnits f).ringFreed = s.ringFreed := rfl
@[simp] theorem State.modUnits_msix (s : State) (f : Units → Units) : (s.modUnits f).msix = s.msix := rfl
@[simp] theorem State.modUnits_free (s : State) (f : Units → Units) : (s.modUnits f).free = s.free := rfl
@[simp] theorem State.tile_modUnits (s : State) (f : Units → Units) (m : Nat) : (s.modUnits f).tile m = s.tile m := rfl
@[simp] theorem State.router_modUnits (s : State) (f : Units → Units) (m : Nat) : (s.modUnits f).router m = s.router m := rfl
@[simp] theorem State.region_modUnits (s : State) (f : Units → Units) (m : Nat) : (s.modUnits f).region m = s.region m := rfl
@[simp] theorem State.site_modUnits (s : State) (f : Units → Units) (m : Nat) : (s.modUnits f).site m = s.site m := rfl
@[simp] theorem State.iod_modUnits (s : State) (f : Units → Units) (m : Nat) : (s.modUnits f).iod m = s.iod m := rfl
@[simp] theorem State.port_modUnits (s : State) (f : Units → Units) (m : Nat) : (s.modUnits f).port m = s.port m := rfl
@[simp] theorem State.chan_modUnits (s : State) (f : Units → Units) (m : Nat) : (s.modUnits f).chan m = s.chan m := rfl
@[simp] theorem State.part_modUnits (s : State) (f : Units → Units) (m : Nat) : (s.modUnits f).part m = s.part m := rfl
@[simp] theorem State.fn_modUnits (s : State) (f : Units → Units) (m : Nat) : (s.modUnits f).fn m = s.fn m := rfl
@[simp] theorem State.session_modUnits (s : State) (f : Units → Units) (m : Nat) : (s.modUnits f).session m = s.session m := rfl

/-! ## withQueue -/

@[simp] theorem State.withQueue_pending (s : State) (q : List Instr) : (s.withQueue q).pending = q := rfl
@[simp] theorem State.withQueue_mgt (s : State) (q : List Instr) : (s.withQueue q).mgt = s.mgt := rfl
@[simp] theorem State.withQueue_units (s : State) (q : List Instr) : (s.withQueue q).units = s.units := rfl
@[simp] theorem State.withQueue_tiles (s : State) (q : List Instr) : (s.withQueue q).tiles = s.tiles := rfl
@[simp] theorem State.withQueue_routers (s : State) (q : List Instr) : (s.withQueue q).routers = s.routers := rfl
@[simp] theorem State.withQueue_regions (s : State) (q : List Instr) : (s.withQueue q).regions = s.regions := rfl
@[simp] theorem State.withQueue_sites (s : State) (q : List Instr) : (s.withQueue q).sites = s.sites := rfl
@[simp] theorem State.withQueue_iods (s : State) (q : List Instr) : (s.withQueue q).iods = s.iods := rfl
@[simp] theorem State.withQueue_ports (s : State) (q : List Instr) : (s.withQueue q).ports = s.ports := rfl
@[simp] theorem State.withQueue_pages (s : State) (q : List Instr) : (s.withQueue q).pages = s.pages := rfl
@[simp] theorem State.withQueue_moves (s : State) (q : List Instr) : (s.withQueue q).moves = s.moves := rfl
@[simp] theorem State.withQueue_hbm (s : State) (q : List Instr) : (s.withQueue q).hbm = s.hbm := rfl
@[simp] theorem State.withQueue_chans (s : State) (q : List Instr) : (s.withQueue q).chans = s.chans := rfl
@[simp] theorem State.withQueue_dlog (s : State) (q : List Instr) : (s.withQueue q).dlog = s.dlog := rfl
@[simp] theorem State.withQueue_parts (s : State) (q : List Instr) : (s.withQueue q).parts = s.parts := rfl
@[simp] theorem State.withQueue_fns (s : State) (q : List Instr) : (s.withQueue q).fns = s.fns := rfl
@[simp] theorem State.withQueue_sessions (s : State) (q : List Instr) : (s.withQueue q).sessions = s.sessions := rfl
@[simp] theorem State.withQueue_host (s : State) (q : List Instr) : (s.withQueue q).host = s.host := rfl
@[simp] theorem State.withQueue_flight (s : State) (q : List Instr) : (s.withQueue q).flight = s.flight := rfl
@[simp] theorem State.withQueue_credits (s : State) (q : List Instr) : (s.withQueue q).credits = s.credits := rfl
@[simp] theorem State.withQueue_ringSent (s : State) (q : List Instr) : (s.withQueue q).ringSent = s.ringSent := rfl
@[simp] theorem State.withQueue_ringFreed (s : State) (q : List Instr) : (s.withQueue q).ringFreed = s.ringFreed := rfl
@[simp] theorem State.withQueue_msix (s : State) (q : List Instr) : (s.withQueue q).msix = s.msix := rfl
@[simp] theorem State.withQueue_free (s : State) (q : List Instr) : (s.withQueue q).free = s.free := rfl
@[simp] theorem State.tile_withQueue (s : State) (q : List Instr) (m : Nat) : (s.withQueue q).tile m = s.tile m := rfl
@[simp] theorem State.router_withQueue (s : State) (q : List Instr) (m : Nat) : (s.withQueue q).router m = s.router m := rfl
@[simp] theorem State.region_withQueue (s : State) (q : List Instr) (m : Nat) : (s.withQueue q).region m = s.region m := rfl
@[simp] theorem State.site_withQueue (s : State) (q : List Instr) (m : Nat) : (s.withQueue q).site m = s.site m := rfl
@[simp] theorem State.iod_withQueue (s : State) (q : List Instr) (m : Nat) : (s.withQueue q).iod m = s.iod m := rfl
@[simp] theorem State.port_withQueue (s : State) (q : List Instr) (m : Nat) : (s.withQueue q).port m = s.port m := rfl
@[simp] theorem State.chan_withQueue (s : State) (q : List Instr) (m : Nat) : (s.withQueue q).chan m = s.chan m := rfl
@[simp] theorem State.part_withQueue (s : State) (q : List Instr) (m : Nat) : (s.withQueue q).part m = s.part m := rfl
@[simp] theorem State.fn_withQueue (s : State) (q : List Instr) (m : Nat) : (s.withQueue q).fn m = s.fn m := rfl
@[simp] theorem State.session_withQueue (s : State) (q : List Instr) (m : Nat) : (s.withQueue q).session m = s.session m := rfl

/-! ## fly -/

@[simp] theorem State.fly_pending (s : State) (n : NodeId) (k : Token) : (s.fly n k).pending = s.pending := rfl
@[simp] theorem State.fly_mgt (s : State) (n : NodeId) (k : Token) : (s.fly n k).mgt = s.mgt := rfl
@[simp] theorem State.fly_units (s : State) (n : NodeId) (k : Token) : (s.fly n k).units = s.units := rfl
@[simp] theorem State.fly_tiles (s : State) (n : NodeId) (k : Token) : (s.fly n k).tiles = s.tiles := rfl
@[simp] theorem State.fly_routers (s : State) (n : NodeId) (k : Token) : (s.fly n k).routers = s.routers := rfl
@[simp] theorem State.fly_regions (s : State) (n : NodeId) (k : Token) : (s.fly n k).regions = s.regions := rfl
@[simp] theorem State.fly_sites (s : State) (n : NodeId) (k : Token) : (s.fly n k).sites = s.sites := rfl
@[simp] theorem State.fly_iods (s : State) (n : NodeId) (k : Token) : (s.fly n k).iods = s.iods := rfl
@[simp] theorem State.fly_ports (s : State) (n : NodeId) (k : Token) : (s.fly n k).ports = s.ports := rfl
@[simp] theorem State.fly_pages (s : State) (n : NodeId) (k : Token) : (s.fly n k).pages = s.pages := rfl
@[simp] theorem State.fly_moves (s : State) (n : NodeId) (k : Token) : (s.fly n k).moves = s.moves := rfl
@[simp] theorem State.fly_hbm (s : State) (n : NodeId) (k : Token) : (s.fly n k).hbm = s.hbm := rfl
@[simp] theorem State.fly_chans (s : State) (n : NodeId) (k : Token) : (s.fly n k).chans = s.chans := rfl
@[simp] theorem State.fly_dlog (s : State) (n : NodeId) (k : Token) : (s.fly n k).dlog = s.dlog := rfl
@[simp] theorem State.fly_parts (s : State) (n : NodeId) (k : Token) : (s.fly n k).parts = s.parts := rfl
@[simp] theorem State.fly_fns (s : State) (n : NodeId) (k : Token) : (s.fly n k).fns = s.fns := rfl
@[simp] theorem State.fly_sessions (s : State) (n : NodeId) (k : Token) : (s.fly n k).sessions = s.sessions := rfl
@[simp] theorem State.fly_host (s : State) (n : NodeId) (k : Token) : (s.fly n k).host = s.host := rfl
@[simp] theorem State.fly_flight (s : State) (n : NodeId) (k : Token) : (s.fly n k).flight = s.flight ++ [(n, k)] := rfl
@[simp] theorem State.fly_credits (s : State) (n : NodeId) (k : Token) : (s.fly n k).credits = s.credits := rfl
@[simp] theorem State.fly_ringSent (s : State) (n : NodeId) (k : Token) : (s.fly n k).ringSent = s.ringSent := rfl
@[simp] theorem State.fly_ringFreed (s : State) (n : NodeId) (k : Token) : (s.fly n k).ringFreed = s.ringFreed := rfl
@[simp] theorem State.fly_msix (s : State) (n : NodeId) (k : Token) : (s.fly n k).msix = s.msix := rfl
@[simp] theorem State.fly_free (s : State) (n : NodeId) (k : Token) : (s.fly n k).free = s.free := rfl
@[simp] theorem State.tile_fly (s : State) (n : NodeId) (k : Token) (m : Nat) : (s.fly n k).tile m = s.tile m := rfl
@[simp] theorem State.router_fly (s : State) (n : NodeId) (k : Token) (m : Nat) : (s.fly n k).router m = s.router m := rfl
@[simp] theorem State.region_fly (s : State) (n : NodeId) (k : Token) (m : Nat) : (s.fly n k).region m = s.region m := rfl
@[simp] theorem State.site_fly (s : State) (n : NodeId) (k : Token) (m : Nat) : (s.fly n k).site m = s.site m := rfl
@[simp] theorem State.iod_fly (s : State) (n : NodeId) (k : Token) (m : Nat) : (s.fly n k).iod m = s.iod m := rfl
@[simp] theorem State.port_fly (s : State) (n : NodeId) (k : Token) (m : Nat) : (s.fly n k).port m = s.port m := rfl
@[simp] theorem State.chan_fly (s : State) (n : NodeId) (k : Token) (m : Nat) : (s.fly n k).chan m = s.chan m := rfl
@[simp] theorem State.part_fly (s : State) (n : NodeId) (k : Token) (m : Nat) : (s.fly n k).part m = s.part m := rfl
@[simp] theorem State.fn_fly (s : State) (n : NodeId) (k : Token) (m : Nat) : (s.fly n k).fn m = s.fn m := rfl
@[simp] theorem State.session_fly (s : State) (n : NodeId) (k : Token) (m : Nat) : (s.fly n k).session m = s.session m := rfl

/-! ## landed -/

@[simp] theorem State.landed_pending (s : State) (n : NodeId) (k : Token) : (s.landed n k).pending = s.pending := rfl
@[simp] theorem State.landed_mgt (s : State) (n : NodeId) (k : Token) : (s.landed n k).mgt = s.mgt := rfl
@[simp] theorem State.landed_units (s : State) (n : NodeId) (k : Token) : (s.landed n k).units = s.units := rfl
@[simp] theorem State.landed_tiles (s : State) (n : NodeId) (k : Token) : (s.landed n k).tiles = s.tiles := rfl
@[simp] theorem State.landed_routers (s : State) (n : NodeId) (k : Token) : (s.landed n k).routers = s.routers := rfl
@[simp] theorem State.landed_regions (s : State) (n : NodeId) (k : Token) : (s.landed n k).regions = s.regions := rfl
@[simp] theorem State.landed_sites (s : State) (n : NodeId) (k : Token) : (s.landed n k).sites = s.sites := rfl
@[simp] theorem State.landed_iods (s : State) (n : NodeId) (k : Token) : (s.landed n k).iods = s.iods := rfl
@[simp] theorem State.landed_ports (s : State) (n : NodeId) (k : Token) : (s.landed n k).ports = s.ports := rfl
@[simp] theorem State.landed_pages (s : State) (n : NodeId) (k : Token) : (s.landed n k).pages = s.pages := rfl
@[simp] theorem State.landed_moves (s : State) (n : NodeId) (k : Token) : (s.landed n k).moves = s.moves := rfl
@[simp] theorem State.landed_hbm (s : State) (n : NodeId) (k : Token) : (s.landed n k).hbm = s.hbm := rfl
@[simp] theorem State.landed_chans (s : State) (n : NodeId) (k : Token) : (s.landed n k).chans = s.chans := rfl
@[simp] theorem State.landed_dlog (s : State) (n : NodeId) (k : Token) : (s.landed n k).dlog = s.dlog := rfl
@[simp] theorem State.landed_parts (s : State) (n : NodeId) (k : Token) : (s.landed n k).parts = s.parts := rfl
@[simp] theorem State.landed_fns (s : State) (n : NodeId) (k : Token) : (s.landed n k).fns = s.fns := rfl
@[simp] theorem State.landed_sessions (s : State) (n : NodeId) (k : Token) : (s.landed n k).sessions = s.sessions := rfl
@[simp] theorem State.landed_host (s : State) (n : NodeId) (k : Token) : (s.landed n k).host = s.host := rfl
@[simp] theorem State.landed_flight (s : State) (n : NodeId) (k : Token) : (s.landed n k).flight = s.flight.erase (n, k) := rfl
@[simp] theorem State.landed_credits (s : State) (n : NodeId) (k : Token) : (s.landed n k).credits = s.credits := rfl
@[simp] theorem State.landed_ringSent (s : State) (n : NodeId) (k : Token) : (s.landed n k).ringSent = s.ringSent := rfl
@[simp] theorem State.landed_ringFreed (s : State) (n : NodeId) (k : Token) : (s.landed n k).ringFreed = s.ringFreed := rfl
@[simp] theorem State.landed_msix (s : State) (n : NodeId) (k : Token) : (s.landed n k).msix = s.msix := rfl
@[simp] theorem State.landed_free (s : State) (n : NodeId) (k : Token) : (s.landed n k).free = s.free := rfl
@[simp] theorem State.tile_landed (s : State) (n : NodeId) (k : Token) (m : Nat) : (s.landed n k).tile m = s.tile m := rfl
@[simp] theorem State.router_landed (s : State) (n : NodeId) (k : Token) (m : Nat) : (s.landed n k).router m = s.router m := rfl
@[simp] theorem State.region_landed (s : State) (n : NodeId) (k : Token) (m : Nat) : (s.landed n k).region m = s.region m := rfl
@[simp] theorem State.site_landed (s : State) (n : NodeId) (k : Token) (m : Nat) : (s.landed n k).site m = s.site m := rfl
@[simp] theorem State.iod_landed (s : State) (n : NodeId) (k : Token) (m : Nat) : (s.landed n k).iod m = s.iod m := rfl
@[simp] theorem State.port_landed (s : State) (n : NodeId) (k : Token) (m : Nat) : (s.landed n k).port m = s.port m := rfl
@[simp] theorem State.chan_landed (s : State) (n : NodeId) (k : Token) (m : Nat) : (s.landed n k).chan m = s.chan m := rfl
@[simp] theorem State.part_landed (s : State) (n : NodeId) (k : Token) (m : Nat) : (s.landed n k).part m = s.part m := rfl
@[simp] theorem State.fn_landed (s : State) (n : NodeId) (k : Token) (m : Nat) : (s.landed n k).fn m = s.fn m := rfl
@[simp] theorem State.session_landed (s : State) (n : NodeId) (k : Token) (m : Nat) : (s.landed n k).session m = s.session m := rfl

/-! ## A `mod` is a `set` of the changed unit -/

@[simp] theorem State.modTile_eq (s : State) (t : Nat) (f : Tile → Tile) : s.modTile t f = s.setTile t (f (s.tile t)) := rfl
@[simp] theorem State.modRouter_eq (s : State) (t : Nat) (f : Router → Router) : s.modRouter t f = s.setRouter t (f (s.router t)) := rfl
@[simp] theorem State.modRegion_eq (s : State) (r : Nat) (f : Region → Region) : s.modRegion r f = s.setRegion r (f (s.region r)) := rfl
@[simp] theorem State.modSite_eq (s : State) (x : Nat) (f : Site → Site) : s.modSite x f = s.setSite x (f (s.site x)) := rfl
@[simp] theorem State.modIod_eq (s : State) (d : Nat) (f : Iod → Iod) : s.modIod d f = s.setIod d (f (s.iod d)) := rfl
@[simp] theorem State.modPort_eq (s : State) (p : Nat) (f : Port → Port) : s.modPort p f = s.setPort p (f (s.port p)) := rfl
@[simp] theorem State.modChan_eq (s : State) (c : Nat) (f : Chan → Chan) : s.modChan c f = s.setChan c (f (s.chan c)) := rfl
@[simp] theorem State.modPart_eq (s : State) (p : Nat) (f : Part → Part) : s.modPart p f = s.setPart p (f (s.part p)) := rfl
@[simp] theorem State.modFn_eq (s : State) (n : Nat) (f : Fn → Fn) : s.modFn n f = s.setFn n (f (s.fn n)) := rfl
@[simp] theorem State.modCtl_eq (s : State) (r : Nat) (f : HenCtl → HenCtl) :
    s.modCtl r f = s.setRegion r (let x := s.region r; { x with ctl := f x.ctl }) := rfl
@[simp] theorem State.modClk_eq (s : State) (r : Nat) (f : HenClk → HenClk) :
    s.modClk r f = s.setRegion r (let x := s.region r; { x with clk := f x.clk }) := rfl
@[simp] theorem State.modPwr_eq (s : State) (r : Nat) (f : HenPwr → HenPwr) :
    s.modPwr r f = s.setRegion r (let x := s.region r; { x with pwr := f x.pwr }) := rfl
@[simp] theorem State.modTest_eq (s : State) (r : Nat) (f : HenTest → HenTest) :
    s.modTest r f = s.setRegion r (let x := s.region r; { x with test := f x.test }) := rfl

end Machine
end Sys2Proof
end

