-- ==== Sys2Proof/Laws/Issue.lean ====
section
/-!
SUPPORT. What the shared forms of a command answer: one lemma for each form, under its conditions.
-/
namespace Sys2Proof.Machine

@[simp] theorem onUnit_true (s : State) (f : State → State) : onUnit true s f = .next (f s) := rfl

theorem onUnit_of {ok : Bool} (h : ok = true) (s : State) (f : State → State) : onUnit ok s f = .next (f s) := by
  rw [h]; rfl

@[simp] theorem due_true (s : State) (f : State → State) : due true s f = f s := rfl
@[simp] theorem due_false (s : State) (f : State → State) : due false s f = s := rfl

theorem due_of {c : Bool} (h : c = true) (s : State) (f : State → State) : due c s f = f s := by rw [h]; rfl

/-- An issued word of a row acts on the fetched state. -/
theorem issueWord_run {s u : State} {n cls op : Nat} {w : Dword} {body : Dword → State → State} (h : Issuing s n w u)
    (hr : isRow cls op = true) (hc : wCls w = cls) (ho : wOp w = op) : issueWord cls op n body s = .next (body w u) := by
  subst hc ho
  have h3 := h.inStore
  simp only [issueWord, onUnit, h.tile, h.due, due, decide_true, if_true, h.word, hr]
  rw [if_neg (by omega)]
  simp

/-- An issued word whose checks all pass changes its tile. -/
theorem issueTile_run {s u : State} {n cls op : Nat} {w : Dword} {c : Bool → Dword → Tile → List (Bool × Nat)}
    {f : Bool → Dword → Tile → Tile} (h : Issuing s n w u) (hr : isRow cls op = true) (hc : wCls w = cls) (ho : wOp w = op)
    (hk : firstFault (c (u.sela (regionOf n)) w (u.tile n)) = none) :
    issueTile cls op n c f s = .next (u.setTile n (f (u.sela (regionOf n)) w (u.tile n))) := by
  unfold issueTile
  rw [issueWord_run h hr hc ho]
  simp [hk]

/-- An issued word whose first failing check names a cause faults with it. -/
theorem issueTile_fault {s u : State} {n cls op k : Nat} {w : Dword} {c : Bool → Dword → Tile → List (Bool × Nat)}
    {f : Bool → Dword → Tile → Tile} (h : Issuing s n w u) (hr : isRow cls op = true) (hc : wCls w = cls) (ho : wOp w = op)
    (hk : firstFault (c (u.sela (regionOf n)) w (u.tile n)) = some k) :
    issueTile cls op n c f s = .next (u.tileFault n k 0) := by
  unfold issueTile
  rw [issueWord_run h hr hc ho]
  simp [hk]

end Sys2Proof.Machine
end

