-- ==== Sys2Proof/Laws/Access.lean ====
section
/-!
SUPPORT. A command that is a write of one register answers the effect of the write, where the write is carried out.
-/
namespace Sys2Proof.Machine

theorem accMask_eight (a : Nat) : accMask a 8 = BitVec.allOnes 64 := rfl
theorem accShift_eight (a : Nat) : accShift a 8 = 0 := rfl

theorem ctlStore_run {s t : State} {w : Party} {b : Block} {off : Nat} {v : Dword} (h : Permitted s w b off v)
    (ht : s.writeReg w b off (BitVec.allOnes 64) v = some t) : s.ctlStore w (addrOf b off) 8 v = (0, t) := by
  unfold State.ctlStore
  rw [h.reach]
  simp only [accMask_eight, accShift_eight, BitVec.shiftLeft_zero, h.read, h.fields, ht]
  rfl

theorem write_run {s t : State} {w : Party} {b : Block} {off : Nat} {v : Dword} (h : Permitted s w b off v)
    (ht : s.writeReg w b off (BitVec.allOnes 64) v = some t) : s.write w (addrOf b off) 8 v = t := by
  unfold State.write
  rw [ctlStore_run h ht]
  rfl

theorem regRow_run {s t : State} {ok : Bool} {w : Party} {b : Block} {off : Nat} {v : State → Dword} (ho : ok = true)
    (h : Permitted s w b off (v s)) (ht : s.writeReg w b off (BitVec.allOnes 64) (v s) = some t) :
    regRow ok w b off v s = .next t := by
  unfold regRow
  rw [onUnit_of (by simp [ho, h.party]), write_run h ht]

/-- The bits in question when a whole register is written. -/
theorem whole_bits (s : State) (w : Party) (b : Block) (off : Nat) (v : Dword) :
    BitVec.allOnes 64 &&& s.writable w b off (· = .rw) = s.rwBits w b off ∧ v &&& BitVec.allOnes 64 = v :=
  ⟨BitVec.allOnes_and, BitVec.and_allOnes⟩

/-- What a permitted write of a whole register of MGT does, in the terms of R366. -/
theorem writeReg_mgt (s : State) (w : Party) (off : Nat) (v : Dword) :
    s.writeReg w .mgt off (BitVec.allOnes 64) v =
      some (s.writeMgt off (s.rwBits w .mgt off) (s.taken w .mgt off v) (v &&& s.oneBits w .mgt off)) := by
  unfold State.writeReg
  rw [(whole_bits s w .mgt off v).1, (whole_bits s w .mgt off v).2]
  rfl

/-- What a permitted write of a whole register of PAGE does, in the terms of R366. -/
theorem writeReg_page (s : State) (w : Party) (f : Nat) (off : Nat) (v : Dword) :
    s.writeReg w (.page f) off (BitVec.allOnes 64) v =
      s.writePage f off (s.rwBits w (.page f) off) (s.taken w (.page f) off v) (v &&& s.oneBits w (.page f) off) := by
  unfold State.writeReg
  rw [(whole_bits s w (.page f) off v).1, (whole_bits s w (.page f) off v).2]
  rfl

/-- What a permitted write of a whole register of DIE does, in the terms of R366. -/
theorem writeReg_die (s : State) (w : Party) (d : Nat) (off : Nat) (v : Dword) :
    s.writeReg w (.die d) off (BitVec.allOnes 64) v =
      some (s.writeDie d off (s.rwBits w (.die d) off) (s.taken w (.die d) off v) (v &&& s.oneBits w (.die d) off)) := by
  unfold State.writeReg
  rw [(whole_bits s w (.die d) off v).1, (whole_bits s w (.die d) off v).2]
  rfl

/-- What a permitted write of a whole register of RGN does, in the terms of R366. -/
theorem writeReg_rgn (s : State) (w : Party) (r : Nat) (off : Nat) (v : Dword) :
    s.writeReg w (.rgn r) off (BitVec.allOnes 64) v =
      some (s.writeRgn r off (s.rwBits w (.rgn r) off) (s.taken w (.rgn r) off v) (v &&& s.oneBits w (.rgn r) off)) := by
  unfold State.writeReg
  rw [(whole_bits s w (.rgn r) off v).1, (whole_bits s w (.rgn r) off v).2]
  rfl

/-- What a permitted write of a whole register of EDG does, in the terms of R366. -/
theorem writeReg_edg (s : State) (w : Party) (x : Nat) (off : Nat) (v : Dword) :
    s.writeReg w (.edg x) off (BitVec.allOnes 64) v =
      some (s.writeEdg x off (s.rwBits w (.edg x) off) (s.taken w (.edg x) off v) (v &&& s.oneBits w (.edg x) off)) := by
  unfold State.writeReg
  rw [(whole_bits s w (.edg x) off v).1, (whole_bits s w (.edg x) off v).2]
  rfl

/-- What a permitted write of a whole register of TILE does, in the terms of R366. -/
theorem writeReg_tile (s : State) (w : Party) (t : Nat) (off : Nat) (v : Dword) :
    s.writeReg w (.tile t) off (BitVec.allOnes 64) v =
      some (s.writeTile t off (s.mayOwn w (.tile t)) (s.mayFm w) (s.rwBits w (.tile t) off) (s.taken w (.tile t) off v) (v &&& s.oneBits w (.tile t) off)) := by
  unfold State.writeReg
  rw [(whole_bits s w (.tile t) off v).1, (whole_bits s w (.tile t) off v).2]
  rfl

/-- A bit written as one where the party may write it acts. -/
theorem ones_bit {v o : Dword} {i : Nat} (hv : v.getLsbD i = true) (ho : o.getLsbD i = true) :
    (v &&& o).getLsbD i = true := by rw [BitVec.getLsbD_and, hv, ho]; rfl

theorem ones_bit_not {v : Dword} (o : Dword) {i : Nat} (hv : v.getLsbD i = false) : (v &&& o).getLsbD i = false := by
  rw [BitVec.getLsbD_and, hv]; rfl

/-- A bit of what a register takes. -/
theorem taken_bit (s : State) (w : Party) (b : Block) (off : Nat) (v : Dword) (i : Nat) (hi : i < 64) :
    (s.taken w b off v).getLsbD i =
      if (s.rwBits w b off).getLsbD i then v.getLsbD i else (s.readReg b off).getLsbD i := by
  simp only [State.taken, BitVec.getLsbD_or, BitVec.getLsbD_and, BitVec.getLsbD_not, hi, decide_true, Bool.true_and]
  cases (s.rwBits w b off).getLsbD i <;> simp

end Sys2Proof.Machine
end

