-- ==== Sys2Proof/Laws/Codeword.lean ====
section
/-!
SUPPORT. The codewords of R227: what a lane's message carries is what was put into it, and the lanes of a frame hold each flit
of the stream once, in the place its position gives.
-/
namespace Sys2Proof.Machine

theorem message_low (l : List Nat) (fs : List Line) (m : BitVec 5140) (k : Nat) (hk : k < 20) :
    (l.foldl (fun m i => m ||| ((fs.getD i 0).setWidth 5140 <<< (20 + 512 * i))) m).getLsbD k = m.getLsbD k := by
  induction l generalizing m with
  | nil => rfl
  | cons i l ih =>
    rw [List.foldl_cons, ih]
    simp only [BitVec.getLsbD_or, BitVec.getLsbD_shiftLeft, show k < 20 + 512 * i by omega, decide_true, Bool.not_true,
      Bool.and_false, Bool.false_and, Bool.or_false]

theorem message_high (l : List Nat) (fs : List Line) (m : BitVec 5140) (i k : Nat) (hi : i < 10) (hk : k < 512) :
    (l.foldl (fun m i => m ||| ((fs.getD i 0).setWidth 5140 <<< (20 + 512 * i))) m).getLsbD (20 + 512 * i + k) =
      (m.getLsbD (20 + 512 * i + k) || (decide (i ∈ l) && (fs.getD i 0).getLsbD k)) := by
  induction l generalizing m with
  | nil => simp
  | cons j l ih =>
    rw [List.foldl_cons, ih, BitVec.getLsbD_or, BitVec.getLsbD_shiftLeft, BitVec.getLsbD_setWidth]
    rcases Nat.lt_trichotomy j i with h | h | h
    · have : 512 ≤ 20 + 512 * i + k - (20 + 512 * j) := by omega
      rw [BitVec.getLsbD_of_ge _ _ this]
      simp [show ¬i = j by omega]
    · subst h
      have hd : decide (20 + 512 * j + k < 20 + 512 * j) = false := decide_eq_false (by omega)
      rw [hd, show 20 + 512 * j + k - (20 + 512 * j) = k by omega]
      simp only [show 20 + 512 * j + k < 5140 by omega, show k < 5140 by omega, decide_true, Bool.true_and, Bool.not_false,
        List.mem_cons, true_or]
      cases m.getLsbD (20 + 512 * j + k) <;> cases (fs.getD j 0).getLsbD k <;> simp
    · simp [show 20 + 512 * i + k < 20 + 512 * j by omega, show ¬i = j by omega]

theorem bits_congr {w v : Nat} {a : BitVec w} {b : BitVec v} {hi lo : Nat}
    (hl : lo ≤ hi) (h : ∀ k, lo ≤ k → k ≤ hi → a.getLsbD k = b.getLsbD k) : bits a hi lo = bits b hi lo := by
  unfold bits
  refine congrArg BitVec.toNat (BitVec.eq_of_getLsbD_eq fun k hk => ?_)
  simp only [BitVec.getLsbD_extractLsb', hk, decide_true, Bool.true_and]
  exact h _ (by omega) (by omega)

/-- A message names its lane and its frame (R227). -/
theorem codeword_lane (lane frame : Nat) (fs : List Line) : messageLane (codewordMessage lane frame fs) = lane % 16 := by
  unfold messageLane codewordMessage
  rw [bits_congr (b := BitVec.ofNat 5140 (lane % 16 + frame % 65536 * 16)) (by omega) fun k _ h => message_low _ _ _ _ (by omega)]
  simp only [bits, BitVec.extractLsb'_toNat, BitVec.toNat_ofNat, Nat.shiftRight_zero]
  omega

theorem codeword_frame (lane frame : Nat) (fs : List Line) :
    messageFrame (codewordMessage lane frame fs) = frame % 65536 := by
  unfold messageFrame codewordMessage
  rw [bits_congr (b := BitVec.ofNat 5140 (lane % 16 + frame % 65536 * 16)) (by omega) fun k _ h => message_low _ _ _ _ (by omega)]
  simp only [bits, BitVec.extractLsb'_toNat, BitVec.toNat_ofNat, Nat.shiftRight_eq_div_pow]
  rw [Nat.mod_eq_of_lt (Nat.lt_of_lt_of_le (show lane % 16 + frame % 65536 * 16 < 2 ^ 20 by omega)
    (Nat.pow_le_pow_right (by omega) (by omega)))]
  omega

/-- Its ten flits are those put in (R227). -/
theorem codeword_flits (lane frame : Nat) (fs : List Line) :
    messageFlits (codewordMessage lane frame fs) = (List.range 10).map fun i => fs.getD i 0 := by
  unfold messageFlits
  refine List.map_congr_left fun i hi => ?_
  have hi := List.mem_range.1 hi
  refine BitVec.eq_of_getLsbD_eq fun k hk => ?_
  unfold codewordMessage
  rw [BitVec.getLsbD_extractLsb', message_high _ _ _ _ _ hi hk]
  have : (BitVec.ofNat 5140 (lane % 16 + frame % 65536 * 16)).getLsbD (20 + 512 * i + k) = false := by
    rw [BitVec.getLsbD_ofNat, Nat.testBit_lt_two_pow, Bool.and_false]
    exact Nat.lt_of_lt_of_le (show _ < 2 ^ 20 by omega) (Nat.pow_le_pow_right (by omega) (by omega))
  simp [this, hk, hi]

/-- Flit `f` of a frame of `w` lanes is the (f / w)-th of the (f mod w)-th lane in service (R227). -/
theorem laneFlits_get (w f : Nat) (fs : List Line) (hf : f < 10 * w) :
    (laneFlits w (f % w) fs).getD (f / w) 0 = fs.getD f 0 := by
  have : f / w < 10 := Nat.div_lt_of_lt_mul (by omega)
  have e : f / w * w + f % w = f := by rw [Nat.mul_comm]; exact Nat.div_add_mod f w
  simp [laneFlits, this, e]

end Sys2Proof.Machine
end

