-- ==== Sys2Proof/Laws/Fold.lean ====
section
/-!
SUPPORT. Folding a step over numbers: what no step touches stays, and what one step does to its own unit.
-/
namespace Sys2Proof.Machine

@[simp] theorem forAll_nil (s : State) (f : Nat → State → State) : forAll [] s f = s := rfl
@[simp] theorem forAll_cons (n : Nat) (l : List Nat) (s : State) (f : Nat → State → State) :
    forAll (n :: l) s f = forAll l (f n s) f := rfl

/-- What no step of the fold changes is as before. -/
theorem forAll_same {α : Type} {f : Nat → State → State} (g : State → α) (hf : ∀ n u, g (f n u) = g u) (l : List Nat)
    (s : State) : g (forAll l s f) = g s := by
  induction l generalizing s with
  | nil => rfl
  | cons n l ih => rw [forAll_cons, ih, hf]

/-- What every step of the fold keeps holds after it. -/
theorem forAll_keep {f : Nat → State → State} (P : State → Prop) (l : List Nat) (s : State)
    (hf : ∀ n ∈ l, ∀ u, P u → P (f n u)) (h : P s) : P (forAll l s f) := by
  induction l generalizing s with
  | nil => exact h
  | cons n l ih =>
    exact ih (f n s) (fun m hm u hu => hf m (List.mem_cons_of_mem _ hm) u hu) (hf n (List.mem_cons_self ..) s h)

/-- A change made once to each of some tiles, twice being the same as once. -/
theorem forAll_modTile {f : Tile → Tile} (hf : ∀ x, f (f x) = f x) (l : List Nat) (s : State) (m : Nat) :
    (forAll l s fun t s => s.modTile t f).tile m = if m ∈ l then f (s.tile m) else s.tile m := by
  induction l generalizing s with
  | nil => simp
  | cons n l ih =>
    rw [forAll_cons, ih]
    by_cases h : n = m
    · subst h; by_cases h2 : n ∈ l <;> simp [h2, hf, State.modTile]
    · simp [State.modTile, h, Ne.symm h]

end Sys2Proof.Machine
end

