-- ==== Sys2Proof/Laws/Memory.lean ====
section
/-!
SUPPORT. The canonical form of a sparse table and of a memory, kept by every operation, and what a memory reads after it
is written.
-/
namespace Sys2Proof

theorem Tab.mem_ins {α : Type} (t : Tab α) (n : Nat) (v : α) (p : Nat × α) :
    p ∈ t.ins n v ↔ p = (n, v) ∨ p ∈ t := by
  induction t with
  | nil => simp [Tab.ins]
  | cons q t ih =>
    unfold Tab.ins
    split
    · simp
    · simp only [List.mem_cons, ih]; constructor <;> (rintro (h | h | h) <;> simp [h])

theorem Tab.ins_rising {α : Type} (t : Tab α) (n : Nat) (v : α) (h : t.Pairwise (fun a b => a.1 < b.1))
    (hn : ∀ p ∈ t, p.1 ≠ n) : (t.ins n v).Pairwise (fun a b => a.1 < b.1) := by
  induction t with
  | nil => simp [Tab.ins]
  | cons q t ih =>
    obtain ⟨hq, ht⟩ := List.pairwise_cons.1 h
    have hne := hn q (List.mem_cons_self ..)
    unfold Tab.ins
    split
    · next hlt =>
      refine List.pairwise_cons.2 ⟨?_, h⟩
      intro p hp
      rcases List.mem_cons.1 hp with rfl | hp
      · exact hlt
      · exact Nat.lt_trans hlt (hq p hp)
    · next hlt =>
      refine List.pairwise_cons.2 ⟨?_, ih ht fun p hp => hn p (List.mem_cons_of_mem _ hp)⟩
      intro p hp
      rcases (Tab.mem_ins t n v p).1 hp with rfl | hp
      · exact Nat.lt_of_le_of_ne (Nat.le_of_not_lt hlt) hne
      · exact hq p hp

theorem Tab.drop_canonical {α : Type} [DecidableEq α] {d : α} {t : Tab α} (h : Tab.Canonical d t) (n : Nat) :
    Tab.Canonical d (t.drop n) :=
  ⟨h.1.filter _, fun p hp => h.2 p (List.mem_filter.1 hp).1⟩

theorem Tab.clear_canonical {α : Type} [DecidableEq α] {d : α} {t : Tab α} (h : Tab.Canonical d t) (lo hi : Nat) :
    Tab.Canonical d (t.clear lo hi) :=
  ⟨h.1.filter _, fun p hp => h.2 p (List.mem_filter.1 hp).1⟩

theorem Tab.put_canonical {α : Type} [DecidableEq α] {d : α} {t : Tab α} (h : Tab.Canonical d t) (n : Nat) (v : α) :
    Tab.Canonical d (t.put d n v) := by
  unfold Tab.put
  split
  · exact Tab.drop_canonical h n
  · next hv =>
    have hd := Tab.drop_canonical h n
    refine ⟨Tab.ins_rising _ n v hd.1 (Tab.drop_ne t n), fun p hp => ?_⟩
    rcases (Tab.mem_ins _ n v p).1 hp with rfl | hp
    · exact hv
    · exact hd.2 p hp

theorem Tab.putAll_canonical {α : Type} [DecidableEq α] {d : α} {t : Tab α} (h : Tab.Canonical d t) (base : Nat)
    (l : List α) : Tab.Canonical d (t.putAll d base l) := by
  induction l generalizing t base with
  | nil => exact h
  | cons v l ih => exact ih (Tab.put_canonical h base v) (base + 1)

/-- What a table reads after a run of members is set: the run inside it, and as before elsewhere. -/
theorem Tab.look_putAll {α : Type} [DecidableEq α] (d : α) (t : Tab α) (base : Nat) (l : List α) (m : Nat) :
    (t.putAll d base l).look d m =
      if base ≤ m ∧ m < base + l.length then l.getD (m - base) d else t.look d m := by
  induction l generalizing t base with
  | nil => simp only [Tab.putAll, List.length_nil, Nat.add_zero]; rw [if_neg (by omega)]
  | cons v l ih =>
    simp only [Tab.putAll, ih, Tab.look_put, List.length_cons]
    by_cases h1 : base = m
    · subst h1
      rw [if_neg (by omega), if_pos rfl, if_pos (by omega)]; simp
    · by_cases h2 : base + 1 ≤ m ∧ m < base + 1 + l.length
      · rw [if_pos h2, if_pos (by omega)]
        have : m - base = (m - (base + 1)) + 1 := by omega
        rw [this, List.getD_cons_succ]
      · rw [if_neg h2, if_neg h1, if_neg (by omega)]

namespace Machine

/-- Every write of bytes keeps the canonical form. -/
theorem writeBytes_wf {m : List Host.Cell} (h : Memory.wf m) (a : Nat) (bs : List Byte) :
    Memory.wf (writeBytes m a bs) := Tab.putAll_canonical h a bs

/-- Dropping a range of bytes keeps the canonical form. -/
theorem clear_wf {m : List Host.Cell} (h : Memory.wf m) (lo hi : Nat) :
    Memory.wf (Tab.clear m lo hi) := Tab.clear_canonical (d := (0 : Byte)) h lo hi

theorem readBytes_length (m : List Host.Cell) (a n : Nat) : (readBytes m a n).length = n := by
  induction n generalizing a with
  | zero => rfl
  | succ n ih => simp [readBytes, ih]

/-- A read gives byte `a + i` at place `i`. -/
theorem readBytes_getD (m : List Host.Cell) (a n i : Nat) (h : i < n) :
    (readBytes m a n).getD i 0 = Tab.look (0 : Byte) m (a + i) := by
  induction n generalizing a i with
  | zero => omega
  | succ n ih =>
    cases i with
    | zero => rfl
    | succ i =>
      rw [readBytes, List.getD_cons_succ, ih (a + 1) i (by omega)]
      congr 1; omega

end Machine
end Sys2Proof
end

