-- ==== Sys2Proof/Laws/Keeps.lean ====
section
/-!
SUPPORT. What no operation does (`Keeps`): one lemma per shared operation, in the form that carries the promise of the
state it starts from to the state it ends in.
-/
namespace Sys2Proof.Machine

/-! ## The promise itself and the combinators -/

theorem Keeps.refl (s : State) : Keeps s s := ⟨List.prefix_refl _, rfl, rfl, id, id⟩

theorem Keeps.trans {s t u : State} (h : Keeps s t) (k : Keeps t u) : Keeps s u :=
  ⟨h.log.trans k.log, k.fuses.trans h.fuses, k.queue.trans h.queue, fun w => k.hbm (h.hbm w),
    fun w => k.host (h.host w)⟩

/-- A well-formed command answers the state its effect gives, and nothing else. -/
theorem onUnit_next {ok : Bool} {s t : State} {f : State → State} (e : onUnit ok s f = .next t) :
    ok = true ∧ t = f s := by
  unfold onUnit at e
  split at e
  · next h => exact ⟨h, by injection e with e; exact e.symm⟩
  · exact nomatch e

theorem Keeps.onUnit {ok : Bool} {s t : State} {f : State → State} (h : Keeps s (f s))
    (e : onUnit ok s f = .next t) : Keeps s t := (onUnit_next e).2 ▸ h

theorem Keeps.due {s x : State} {c : Bool} {f : State → State} (h : Keeps s x)
    (hf : ∀ u, Keeps s u → Keeps s (f u)) : Keeps s (due c x f) := by
  unfold Machine.due
  split
  · exact hf x h
  · exact h

theorem Keeps.foldl {β : Type} {s x : State} {l : List β} {f : State → β → State} (h : Keeps s x)
    (hf : ∀ u b, Keeps s u → Keeps s (f u b)) : Keeps s (l.foldl f x) := by
  induction l generalizing x with
  | nil => exact h
  | cons b l ih => exact ih (hf x b h)

theorem Keeps.forAll {s x : State} {l : List Nat} {f : Nat → State → State} (h : Keeps s x)
    (hf : ∀ n u, Keeps s u → Keeps s (f n u)) : Keeps s (forAll l x f) :=
  Keeps.foldl h fun u n => hf n u

theorem Keeps.ite {s x y : State} {c : Prop} [Decidable c] (h : Keeps s x) (k : Keeps s y) :
    Keeps s (if c then x else y) := by
  split
  · exact h
  · exact k

/-- A change of anything but the controller, the queue and the byte memories keeps the promise. -/
theorem Keeps.upd {s x : State} {units tiles routers regions sites iods ports pages moves chans dlog parts fns sessions
    flight credits ringSent ringFreed msix free} (h : Keeps s x) :
    Keeps s (State.mk x.pending x.mgt units tiles routers regions sites iods ports pages moves x.hbm chans dlog parts fns
      sessions x.host flight credits ringSent ringFreed msix free) := ⟨h.1, h.2, h.3, h.4, h.5⟩

/-- A change of the host's memory, and of the interrupts sent with it. -/
theorem Keeps.toHost {s x : State} {m : List Host.Cell} {msix} (h : Keeps s x)
    (hw : Memory.wf x.host → Memory.wf m) : Keeps s { x with host := m, msix := msix } :=
  ⟨h.1, h.2, h.3, h.4, fun w => hw (h.5 w)⟩

/-- A change of the stacks' memory. -/
theorem Keeps.toHbm {s x : State} {m : List Host.Cell} (h : Keeps s x)
    (hw : Memory.wf x.hbm → Memory.wf m) : Keeps s { x with hbm := m } :=
  ⟨h.1, h.2, h.3, fun w => hw (h.4 w), h.5⟩

theorem Keeps.modMgt {s x : State} {f : Mgt → Mgt} (h : Keeps s x) (hl : (f x.mgt).fdl = x.mgt.fdl)
    (hf : (f x.mgt).fuses = x.mgt.fuses) : Keeps s (x.modMgt f) :=
  ⟨by rw [State.modMgt_mgt, hl]; exact h.1, by rw [State.modMgt_mgt, hf]; exact h.2, h.3, h.4, h.5⟩

theorem Keeps.modUnits {s x : State} {f : Units → Units} (h : Keeps s x) : Keeps s (x.modUnits f) := h.upd
theorem Keeps.setTile {s x : State} {n : Nat} {v : Tile} (h : Keeps s x) : Keeps s (x.setTile n v) := h.upd
theorem Keeps.setRouter {s x : State} {n : Nat} {v : Router} (h : Keeps s x) : Keeps s (x.setRouter n v) := h.upd
theorem Keeps.setRegion {s x : State} {n : Nat} {v : Region} (h : Keeps s x) : Keeps s (x.setRegion n v) := h.upd
theorem Keeps.setSite {s x : State} {n : Nat} {v : Site} (h : Keeps s x) : Keeps s (x.setSite n v) := h.upd
theorem Keeps.setIod {s x : State} {n : Nat} {v : Iod} (h : Keeps s x) : Keeps s (x.setIod n v) := h.upd
theorem Keeps.setPort {s x : State} {n : Nat} {v : Port} (h : Keeps s x) : Keeps s (x.setPort n v) := h.upd
theorem Keeps.setChan {s x : State} {n : Nat} {v : Chan} (h : Keeps s x) : Keeps s (x.setChan n v) := h.upd
theorem Keeps.setPart {s x : State} {n : Nat} {v : Part} (h : Keeps s x) : Keeps s (x.setPart n v) := h.upd
theorem Keeps.setFn {s x : State} {n : Nat} {v : Fn} (h : Keeps s x) : Keeps s (x.setFn n v) := h.upd
theorem Keeps.setSession {s x : State} {n : Nat} {v : Option Session} (h : Keeps s x) : Keeps s (x.setSession n v) := h.upd
theorem Keeps.modTile {s x : State} {n : Nat} {f : Tile → Tile} (h : Keeps s x) : Keeps s (x.modTile n f) := h.upd
theorem Keeps.modRouter {s x : State} {n : Nat} {f : Router → Router} (h : Keeps s x) : Keeps s (x.modRouter n f) := h.upd
theorem Keeps.modRegion {s x : State} {n : Nat} {f : Region → Region} (h : Keeps s x) : Keeps s (x.modRegion n f) := h.upd
theorem Keeps.modCtl {s x : State} {n : Nat} {f : HenCtl → HenCtl} (h : Keeps s x) : Keeps s (x.modCtl n f) := h.upd
theorem Keeps.modClk {s x : State} {n : Nat} {f : HenClk → HenClk} (h : Keeps s x) : Keeps s (x.modClk n f) := h.upd
theorem Keeps.modPwr {s x : State} {n : Nat} {f : HenPwr → HenPwr} (h : Keeps s x) : Keeps s (x.modPwr n f) := h.upd
theorem Keeps.modTest {s x : State} {n : Nat} {f : HenTest → HenTest} (h : Keeps s x) : Keeps s (x.modTest n f) := h.upd
theorem Keeps.modSite {s x : State} {n : Nat} {f : Site → Site} (h : Keeps s x) : Keeps s (x.modSite n f) := h.upd
theorem Keeps.modIod {s x : State} {n : Nat} {f : Iod → Iod} (h : Keeps s x) : Keeps s (x.modIod n f) := h.upd
theorem Keeps.modPort {s x : State} {n : Nat} {f : Port → Port} (h : Keeps s x) : Keeps s (x.modPort n f) := h.upd
theorem Keeps.modChan {s x : State} {n : Nat} {f : Chan → Chan} (h : Keeps s x) : Keeps s (x.modChan n f) := h.upd
theorem Keeps.modPart {s x : State} {n : Nat} {f : Part → Part} (h : Keeps s x) : Keeps s (x.modPart n f) := h.upd
theorem Keeps.modFn {s x : State} {n : Nat} {f : Fn → Fn} (h : Keeps s x) : Keeps s (x.modFn n f) := h.upd
theorem Keeps.fly {s x : State} {n : NodeId} {k : Token} (h : Keeps s x) : Keeps s (x.fly n k) := h.upd
theorem Keeps.landed {s x : State} {n : NodeId} {k : Token} (h : Keeps s x) : Keeps s (x.landed n k) := h.upd
theorem Keeps.draw {s x : State} (h : Keeps s x) : Keeps s x.draw.2 := h.upd
theorem Keeps.of_draw {s x u : State} {v : BitVec 64} (h : Keeps s x) (e : x.draw = (v, u)) : Keeps s u := by
  have := h.draw; rw [e] at this; exact this

theorem Keeps.setEdge {s x : State} {e : EdgeId} {v : Edge} (h : Keeps s x) : Keeps s (x.setEdge e v) := by
  unfold State.setEdge
  split
  · exact h.modSite
  · exact h.modIod
theorem Keeps.modEdge {s x : State} {e : EdgeId} {f : Edge → Edge} (h : Keeps s x) : Keeps s (x.modEdge e f) :=
  h.setEdge

theorem Keeps.fetch {s x : State} (t : Nat) (h : Keeps s x) : Keeps s (x.fetch t).2.2 := by
  unfold State.fetch
  dsimp only
  split
  · exact h
  · exact h.modTile (f := fun x => { x with psCorr := sat16 (x.psCorr + 1) })
  · exact h
  · split
    · exact h.draw
    · split
      · exact h.draw.draw.modTile (f := fun x => { x with psCorr := sat16 (x.psCorr + 1) })
      · exact h.draw

theorem Keeps.of_fetch {s x u : State} {t : Nat} {w : Dword} {b : Bool} (h : Keeps s x) (e : x.fetch t = (w, b, u)) :
    Keeps s u := by
  have := h.fetch t; rw [e] at this; exact this

/-- An instruction word's effect, where the word is the row's. -/
theorem Keeps.issueWord {cls op t : Nat} {body : Dword → State → State} {s x : State}
    (hb : ∀ w u, Keeps s u → Keeps s (body w u)) (ht : ∀ u c, Keeps s u → Keeps s (u.tileFault t c 0))
    (e : issueWord cls op t body s = .next x) : Keeps s x := by
  unfold Machine.issueWord at e
  refine Keeps.onUnit ?_ e
  have h := Keeps.refl s
  refine Keeps.due h fun u hu => ?_
  split
  · exact ht _ _ hu
  · split
    next w b u' eq =>
    have hu' : Keeps s u' := hu.of_fetch eq
    split
    · exact ht _ _ hu'
    · split
      · exact ht _ _ hu'
      · split
        · exact hb _ _ hu'
        · exact hu

/-! ## What no change of the controller's registers touches -/

theorem Mgt.setSlot_keeps (m : Mgt) (b : Bool) (x : FwSlot) :
    (m.setSlot b x).fdl = m.fdl ∧ (m.setSlot b x).fuses = m.fuses := by
  unfold Mgt.setSlot; split <;> exact ⟨rfl, rfl⟩

theorem Mgt.dropSlot_keeps (m : Mgt) : m.dropSlot.fdl = m.fdl ∧ m.dropSlot.fuses = m.fuses := by
  unfold Mgt.dropSlot; dsimp only
  have k := Mgt.setSlot_keeps m m.slot { m.slotOf m.slot with failed := true }
  split <;> exact k

theorem Mgt.restart_keeps (m : Mgt) : m.restart.fdl = m.fdl ∧ m.restart.fuses = m.fuses := by
  unfold Mgt.restart; dsimp only
  split
  · exact Mgt.dropSlot_keeps _
  · exact ⟨rfl, rfl⟩

theorem Mgt.halt_keeps (m : Mgt) (c : Nat) : (m.halt c).fdl = m.fdl ∧ (m.halt c).fuses = m.fuses := ⟨rfl, rfl⟩

theorem Mgt.retry_keeps (m : Mgt) : m.retry.fdl = m.fdl ∧ m.retry.fuses = m.fuses := by
  unfold Mgt.retry; split <;> exact ⟨rfl, rfl⟩

theorem Mgt.perstHeard_keeps (m : Mgt) : m.perstHeard.fdl = m.fdl ∧ m.perstHeard.fuses = m.fuses := by
  unfold Mgt.perstHeard; split <;> exact ⟨rfl, rfl⟩

theorem Mgt.save_keeps (m : Mgt) (l : Nat × Nat) (p : Dword × Nat) :
    (m.save l p).fdl = m.fdl ∧ (m.save l p).fuses = m.fuses := ⟨rfl, rfl⟩

theorem Mgt.recover_keeps (m : Mgt) (bs : List Host.Cell) :
    (m.recover bs).fdl = m.fdl ∧ (m.recover bs).fuses = m.fuses := Mgt.setSlot_keeps m _ _

theorem Mgt.activate_keeps (m : Mgt) (n : Nat) : (m.activate n).fdl = m.fdl ∧ (m.activate n).fuses = m.fuses := by
  unfold Mgt.activate; dsimp only; repeat' split
  all_goals exact ⟨rfl, rfl⟩

theorem Mgt.tickOn_keeps (m : Mgt) : m.tickOn.fdl = m.fdl ∧ m.tickOn.fuses = m.fuses := by
  unfold Mgt.tickOn; split <;> exact ⟨rfl, rfl⟩

theorem Mgt.takeOffset_keeps (m : Mgt) (o d : Int) :
    (m.takeOffset o d).fdl = m.fdl ∧ (m.takeOffset o d).fuses = m.fuses := by
  unfold Mgt.takeOffset; dsimp only; repeat' split
  all_goals exact ⟨rfl, rfl⟩

theorem Mgt.writeCap_keeps (m : Mgt) (b : Bool) (w : Nat) :
    (m.writeCap b w).fdl = m.fdl ∧ (m.writeCap b w).fuses = m.fuses := by
  unfold Mgt.writeCap; dsimp only; split <;> exact ⟨rfl, rfl⟩

theorem Mgt.respond_keeps (m : Mgt) (st : Nat) (p : List Byte) :
    (m.respond st p).fdl = m.fdl ∧ (m.respond st p).fuses = m.fuses := by
  unfold Mgt.respond; dsimp only; split <;> exact ⟨rfl, rfl⟩

theorem Mgt.doorbell_keeps (m : Mgt) : m.doorbell.fdl = m.fdl ∧ m.doorbell.fuses = m.fuses := by
  unfold Mgt.doorbell; dsimp only; split
  · exact ⟨rfl, rfl⟩
  · split
    · exact Mgt.respond_keeps _ _ _
    · exact ⟨rfl, rfl⟩

/-- A change of the controller's registers that leaves the log and the fuses. -/
theorem Keeps.ofMgt {s x : State} {f : Mgt → Mgt} (h : Keeps s x)
    (hf : (f x.mgt).fdl = x.mgt.fdl ∧ (f x.mgt).fuses = x.mgt.fuses) : Keeps s (x.modMgt f) := h.modMgt hf.1 hf.2

/-! ## The operations -/

theorem Keeps.raise {s x : State} {r : Nat} {kind : Nat} {cause : Nat} {unit : Nat} {beat : Nat} {region : Bool}
    (h : Keeps s x) : Keeps s (Machine.State.raise x r kind cause unit beat region) := by
  unfold Machine.State.raise
  repeat' first
    | with_reducible assumption
    | with_reducible refine Keeps.fly ?_
    | split
    | dsimp only

theorem Keeps.raiseEdge {s x : State} {e : EdgeId} {part : Nat} {runGen : BitVec 8} {kind : Nat} {cause : Nat} {beat : Nat} {region : Bool}
    (h : Keeps s x) : Keeps s (Machine.State.raiseEdge x e part runGen kind cause beat region) := by
  unfold Machine.State.raiseEdge
  repeat' first
    | with_reducible assumption
    | with_reducible refine Keeps.fly ?_
    | split
    | dsimp only

theorem Keeps.henError {s x : State} {r : Nat} {bit : Nat} {unit : Nat} {beat : Nat} {region : Bool}
    (h : Keeps s x) : Keeps s (Machine.State.henError x r bit unit beat region) := by
  unfold Machine.State.henError
  repeat' first
    | with_reducible assumption
    | with_reducible refine Keeps.raise ?_
    | with_reducible refine Keeps.modCtl ?_
    | with_reducible refine Keeps.ite ?_ ?_
    | split
    | dsimp only

theorem Keeps.stale {s x : State} {r : Nat}
    (h : Keeps s x) : Keeps s (Machine.State.stale x r) := by
  unfold Machine.State.stale
  repeat' first
    | with_reducible assumption
    | with_reducible refine Keeps.modCtl ?_
    | split
    | dsimp only

theorem Keeps.henQueue {s x : State} {r : Nat} {k : Token}
    (h : Keeps s x) : Keeps s (Machine.State.henQueue x r k) := by
  unfold Machine.State.henQueue
  repeat' first
    | with_reducible assumption
    | with_reducible refine Keeps.henError ?_
    | with_reducible refine Keeps.modCtl ?_
    | with_reducible refine Keeps.ite ?_ ?_
    | split
    | dsimp only

theorem Keeps.mcQueue {s x : State} {k : Token}
    (h : Keeps s x) : Keeps s (Machine.State.mcQueue x k) := by
  unfold Machine.State.mcQueue
  repeat' first
    | with_reducible assumption
    | with_reducible refine Keeps.fly ?_
    | with_reducible refine Keeps.modMgt ?_ (by first | rfl | (split <;> rfl)) (by first | rfl | (split <;> rfl))
    | with_reducible refine Keeps.ite ?_ ?_
    | split
    | dsimp only

theorem Keeps.henSend {s x : State} {r : Nat} {n : NodeId} {k : Token}
    (h : Keeps s x) : Keeps s (Machine.State.henSend x r n k) := by
  unfold Machine.State.henSend
  repeat' first
    | with_reducible assumption
    | with_reducible refine Keeps.henQueue ?_
    | with_reducible refine Keeps.fly ?_
    | with_reducible refine Keeps.ite ?_ ?_
    | split
    | dsimp only

theorem Keeps.tileFault {s x : State} {t_ : Nat} {cause : Nat} {code : BitVec 16}
    (h : Keeps s x) : Keeps s (Machine.State.tileFault x t_ cause code) := by
  unfold Machine.State.tileFault
  repeat' first
    | with_reducible assumption
    | with_reducible refine Keeps.raise ?_
    | with_reducible refine Keeps.modTile ?_
    | split
    | dsimp only

theorem Keeps.receive {s x : State} {r : Nat} {n : NodeId} {k : Token} {f : State → State}
    (h : Keeps s x) (hf : ∀ u, Keeps s u → Keeps s (f u)) : Keeps s (x.receive r n k f) := by
  unfold State.receive
  dsimp only
  have h := h.landed (n := n) (k := k)
  split
  · exact h
  · split
    · exact Keeps.henError h
    · split
      · exact Keeps.stale h
      · exact hf _ h


theorem Keeps.issueTile {cls op t : Nat} {c : Bool → Dword → Tile → List (Bool × Nat)} {f : Bool → Dword → Tile → Tile} {s x : State}
    (e : issueTile cls op t c f s = .next x) : Keeps s x := by
  unfold Machine.issueTile at e
  refine Keeps.issueWord (fun w u h => ?_) (fun u c h => Keeps.tileFault h) e
  dsimp only
  split
  · exact Keeps.tileFault h
  · exact h.setTile


theorem Keeps.aluWord {s t : State} {op : Nat} {lat : Nat} {f : Word → Word → Word} {t_ : Nat}
    
    (e : Machine.aluWord op lat f t_ s = .next t) : Keeps s t :=
  Keeps.issueTile e

theorem Keeps.vecWord {s t : State} {op : Nat} {lat : Nat} {f : Dword → Tile → VReg} {t_ : Nat}
    
    (e : Machine.vecWord op lat f t_ s = .next t) : Keeps s t :=
  Keeps.issueTile e

theorem Keeps.tileSend {s x : State} {t_ : Nat} {cls : BitVec 4} {kind : BitVec 4} {group : Nat} {pay : BitVec 96}
    (h : Keeps s x) : Keeps s (Machine.State.tileSend x t_ cls kind group pay) := by
  unfold Machine.State.tileSend
  repeat' first
    | with_reducible assumption
    | with_reducible refine Keeps.fly ?_
    | split
    | dsimp only

theorem Keeps.arriveAt {s x : State} {t_ : Nat} {g : Nat}
    (h : Keeps s x) : Keeps s (Machine.State.arriveAt x t_ g) := by
  unfold Machine.State.arriveAt
  repeat' first
    | with_reducible assumption
    | with_reducible refine Keeps.henError ?_
    | with_reducible refine Keeps.tileSend ?_
    | with_reducible refine Keeps.modTile ?_
    | with_reducible refine Keeps.ite ?_ ?_
    | split
    | dsimp only

theorem Keeps.tokenFault {s x : State} {w : Dword} {t_ : Nat} {f : State → State}
    (h : Keeps s x) (hf : ∀ u, Keeps s u → Keeps s (f u)) : Keeps s (Machine.tokenFault w t_ x f) := by
  unfold Machine.tokenFault
  repeat' first
    | with_reducible assumption
    | with_reducible refine Keeps.tileFault ?_
    | with_reducible refine hf _ ?_
    | with_reducible refine Keeps.ite ?_ ?_
    | split
    | dsimp only

theorem Keeps.normReport {s x : State} {t_ : Nat} {phase : Nat} {index : Nat}
    (h : Keeps s x) : Keeps s (Machine.State.normReport x t_ phase index) := by
  unfold Machine.State.normReport
  repeat' first
    | with_reducible assumption
    | with_reducible refine Keeps.tileSend ?_
    | with_reducible refine Keeps.modTile ?_
    | with_reducible refine Keeps.forAll ?_ fun _ _ _ => ?_
    | split
    | dsimp only

theorem Keeps.lateWord {s x : State} {t_ : Nat} {i : Nat} {transit : Bool} {beat : Nat}
    (h : Keeps s x) : Keeps s (Machine.State.lateWord x t_ i transit beat) := by
  unfold Machine.State.lateWord
  repeat' first
    | with_reducible assumption
    | with_reducible refine Keeps.raise ?_
    | with_reducible refine Keeps.setRouter ?_
    | with_reducible refine Keeps.ite ?_ ?_
    | split
    | dsimp only

theorem Keeps.lateWords {s x : State} {t_ : Nat} {fs : List (Nat × Nat)}
    (h : Keeps s x) : Keeps s (Machine.State.lateWords x t_ fs) := by
  unfold Machine.State.lateWords
  repeat' first
    | with_reducible assumption
    | with_reducible refine Keeps.lateWord ?_
    | with_reducible refine Keeps.forAll ?_ fun _ _ _ => ?_
    | with_reducible refine Keeps.ite ?_ ?_
    | split
    | dsimp only

theorem Keeps.sendWord {s x : State} {t_ : Nat} {o : Nat} {transit : Bool} {w : NWord}
    (h : Keeps s x) : Keeps s (Machine.State.sendWord x t_ o transit w) := by
  unfold Machine.State.sendWord
  repeat' first
    | with_reducible assumption
    | with_reducible refine Keeps.modRouter ?_
    | with_reducible refine Keeps.modEdge ?_
    | with_reducible refine Keeps.ite ?_ ?_
    | split
    | dsimp only

theorem Keeps.actField {s x : State} {t_ : Nat} {ins : List (NWord × Bool)} {p : Nat × Nat}
    (h : Keeps s x) : Keeps s (Machine.State.actField x t_ ins p) := by
  unfold Machine.State.actField
  repeat' first
    | with_reducible assumption
    | with_reducible refine Keeps.sendWord ?_
    | with_reducible refine Keeps.modRouter ?_
    | with_reducible refine Keeps.ite ?_ ?_
    | split
    | dsimp only

theorem Keeps.pruneInputs {s x : State} {t_ : Nat} {sched : Bool}
    (h : Keeps s x) : Keeps s (Machine.State.pruneInputs x t_ sched) := by
  unfold Machine.State.pruneInputs
  repeat' first
    | with_reducible assumption
    | with_reducible refine Keeps.modRouter ?_
    | with_reducible refine Keeps.foldl ?_ fun _ _ _ => ?_
    | with_reducible refine Keeps.ite ?_ ?_
    | split
    | dsimp only

theorem Keeps.routerBeat {s x : State} {t_ : Nat}
    (h : Keeps s x) : Keeps s (Machine.State.routerBeat t_ x) := by
  unfold Machine.State.routerBeat
  repeat' first
    | with_reducible assumption
    | with_reducible refine Keeps.lateWords ?_
    | with_reducible refine Keeps.actField ?_
    | with_reducible refine Keeps.pruneInputs ?_
    | with_reducible refine Keeps.foldl ?_ fun _ _ _ => ?_
    | split
    | dsimp only

theorem Keeps.arriveRouter {s x : State} {t_ : Nat} {side : Dir} {transit : Bool}
    (h : Keeps s x) : Keeps s (Machine.State.arriveRouter x t_ side transit) := by
  unfold Machine.State.arriveRouter
  repeat' first
    | with_reducible assumption
    | with_reducible refine Keeps.raise ?_
    | with_reducible refine Keeps.modRouter ?_
    | with_reducible refine Keeps.due ?_ fun _ _ => ?_
    | with_reducible refine Keeps.ite ?_ ?_
    | split
    | dsimp only

theorem Keeps.arriveEdge {s x : State} {t_ : Nat} {side : Dir}
    (h : Keeps s x) : Keeps s (Machine.State.arriveEdge x t_ side) := by
  unfold Machine.State.arriveEdge
  repeat' first
    | with_reducible assumption
    | with_reducible refine Keeps.raiseEdge ?_
    | with_reducible refine Keeps.modEdge ?_
    | with_reducible refine Keeps.due ?_ fun _ _ => ?_
    | split
    | dsimp only

theorem Keeps.lateEdge {s x : State} {e : EdgeId} {p : Nat}
    (h : Keeps s x) : Keeps s (Machine.State.lateEdge x e p) := by
  unfold Machine.State.lateEdge
  repeat' first
    | with_reducible assumption
    | with_reducible refine Keeps.raiseEdge ?_
    | with_reducible refine Keeps.modEdge ?_
    | with_reducible refine Keeps.ite ?_ ?_
    | split
    | dsimp only

theorem Keeps.stagingMissAt {s x : State} {e : EdgeId} {p : Nat} {i : Nat}
    (h : Keeps s x) : Keeps s (Machine.State.stagingMissAt x e p i) := by
  unfold Machine.State.stagingMissAt
  repeat' first
    | with_reducible assumption
    | with_reducible refine Keeps.raiseEdge ?_
    | with_reducible refine Keeps.modEdge ?_
    | with_reducible refine Keeps.ite ?_ ?_
    | split
    | dsimp only

theorem Keeps.edgePortBeat {s x : State} {e : EdgeId} {p : Nat}
    (h : Keeps s x) : Keeps s (Machine.State.edgePortBeat x e p) := by
  unfold Machine.State.edgePortBeat
  repeat' first
    | with_reducible assumption
    | with_reducible refine Keeps.lateEdge ?_
    | with_reducible refine Keeps.stagingMissAt ?_
    | with_reducible refine Keeps.modRouter ?_
    | with_reducible refine Keeps.modEdge ?_
    | with_reducible refine Keeps.ite ?_ ?_
    | split
    | dsimp only

theorem Keeps.onPorts {s x : State} {r : Nat} {f : Share → EPort → EPort}
    (h : Keeps s x) : Keeps s (Machine.State.onPorts x r f) := by
  unfold Machine.State.onPorts
  repeat' first
    | with_reducible assumption
    | with_reducible refine Keeps.modEdge ?_
    | with_reducible refine Keeps.foldl ?_ fun _ _ _ => ?_
    | split
    | dsimp only

theorem Keeps.edgesBeat {s x : State} {r : Nat}
    (h : Keeps s x) : Keeps s (Machine.State.edgesBeat x r) := by
  unfold Machine.State.edgesBeat
  repeat' first
    | with_reducible assumption
    | with_reducible refine Keeps.edgePortBeat ?_
    | with_reducible refine Keeps.foldl ?_ fun _ _ _ => ?_
    | with_reducible refine Keeps.ite ?_ ?_
    | split
    | dsimp only

theorem Keeps.tileBeat {s x : State} {s0 : State} {r : Nat} {t_ : Nat}
    (h : Keeps s x) : Keeps s (Machine.State.tileBeat s0 r t_ x) := by
  unfold Machine.State.tileBeat
  repeat' first
    | with_reducible assumption
    | with_reducible refine Keeps.raise ?_
    | with_reducible refine Keeps.setTile ?_
    | with_reducible refine Keeps.forAll ?_ fun _ _ _ => ?_
    | with_reducible refine Keeps.ite ?_ ?_
    | split
    | dsimp only
    | with_reducible refine Keeps.upd ?_

theorem Keeps.dropLocal {s x : State} {s0 : State} {t_ : Nat}
    (h : Keeps s x) : Keeps s (Machine.State.dropLocal s0 t_ x) := by
  unfold Machine.State.dropLocal
  repeat' first
    | with_reducible assumption
    | with_reducible refine Keeps.modTile ?_
    | with_reducible refine Keeps.ite ?_ ?_
    | split
    | dsimp only

theorem Keeps.beatOf {s x : State} {r : Nat}
    (h : Keeps s x) : Keeps s (Machine.State.beatOf x r) := by
  unfold Machine.State.beatOf
  repeat' first
    | with_reducible assumption
    | with_reducible refine Keeps.routerBeat ?_
    | with_reducible refine Keeps.edgesBeat ?_
    | with_reducible refine Keeps.tileBeat ?_
    | with_reducible refine Keeps.dropLocal ?_
    | with_reducible refine Keeps.modRegion ?_
    | with_reducible refine Keeps.forAll ?_ fun _ _ _ => ?_
    | with_reducible refine Keeps.ite ?_ ?_
    | split
    | dsimp only

theorem Keeps.countWaits {s x : State} {r : Nat}
    (h : Keeps s x) : Keeps s (Machine.State.countWaits x r) := by
  unfold Machine.State.countWaits
  repeat' first
    | with_reducible assumption
    | with_reducible refine Keeps.modTile ?_
    | with_reducible refine Keeps.forAll ?_ fun _ _ _ => ?_
    | with_reducible refine Keeps.ite ?_ ?_
    | split
    | dsimp only

theorem Keeps.realTick {s x : State} {dead : List (Nat × Nat)} {amps : List (Nat × Nat)} {r : Nat}
    (h : Keeps s x) : Keeps s (Machine.State.realTick x dead amps r) := by
  unfold Machine.State.realTick
  repeat' first
    | with_reducible assumption
    | with_reducible refine Keeps.raise ?_
    | with_reducible refine Keeps.countWaits ?_
    | with_reducible refine Keeps.modClk ?_
    | with_reducible refine Keeps.modPwr ?_
    | with_reducible refine Keeps.ite ?_ ?_
    | split
    | dsimp only

theorem Keeps.askLead {s x : State} {r : Nat} {kind : Nat} {beat : Nat} {reasons : Nat}
    (h : Keeps s x) : Keeps s (Machine.State.askLead x r kind beat reasons) := by
  unfold Machine.State.askLead
  repeat' first
    | with_reducible assumption
    | with_reducible refine Keeps.henSend ?_
    | split
    | dsimp only

theorem Keeps.flushBorders {s x : State} {r : Nat} {delta : Int} {sched : Nat → Nat} {count : Nat → Nat}
    (h : Keeps s x) : Keeps s (Machine.State.flushBorders x r delta sched count) := by
  unfold Machine.State.flushBorders
  repeat' first
    | with_reducible assumption
    | with_reducible refine Keeps.modRouter ?_
    | with_reducible refine Keeps.modEdge ?_
    | with_reducible refine Keeps.forAll ?_ fun _ _ _ => ?_
    | with_reducible refine Keeps.foldl ?_ fun _ _ _ => ?_
    | with_reducible refine Keeps.ite ?_ ?_
    | split
    | dsimp only

theorem Keeps.jumpPorts {s x : State} {r : Nat} {delta : Int}
    (h : Keeps s x) : Keeps s (Machine.State.jumpPorts x r delta) := by
  unfold Machine.State.jumpPorts
  repeat' first
    | with_reducible assumption
    | with_reducible refine Keeps.onPorts ?_
    | split
    | dsimp only

theorem Keeps.passedOver {s x : State} {r : Nat} {a : Nat} {b : Nat} {region : Bool} {at_ : Option Nat} {f : HenCtl → HenCtl}
    (h : Keeps s x) : Keeps s (Machine.State.passedOver x r a b region at_ f) := by
  unfold Machine.State.passedOver
  repeat' first
    | with_reducible assumption
    | with_reducible refine Keeps.henError ?_
    | with_reducible refine Keeps.modCtl ?_
    | with_reducible refine Keeps.ite ?_ ?_
    | split
    | dsimp only

theorem Keeps.passedLatches {s x : State} {r : Nat} {a : Nat} {b : Nat} {t_ : Nat}
    (h : Keeps s x) : Keeps s (Machine.State.passedLatches x r a b t_) := by
  unfold Machine.State.passedLatches
  repeat' first
    | with_reducible assumption
    | with_reducible refine Keeps.henError ?_
    | with_reducible refine Keeps.modTile ?_
    | with_reducible refine Keeps.foldl ?_ fun _ _ _ => ?_
    | with_reducible refine Keeps.ite ?_ ?_
    | split
    | dsimp only

theorem Keeps.passedAll {s x : State} {r : Nat} {n : Nat} {m : Nat} {a : Nat} {b : Nat}
    (h : Keeps s x) : Keeps s (Machine.State.passedAll x r n m a b) := by
  unfold Machine.State.passedAll
  repeat' first
    | with_reducible assumption
    | with_reducible refine Keeps.passedOver ?_
    | with_reducible refine Keeps.passedLatches ?_
    | with_reducible refine Keeps.forAll ?_ fun _ _ _ => ?_
    | split
    | dsimp only

theorem Keeps.event {s x : State} {f : Nat} {bit : Nat}
    (h : Keeps s x) : Keeps s (Machine.State.event x f bit) := by
  unfold Machine.State.event
  repeat' first
    | with_reducible assumption
    | with_reducible refine Keeps.modFn ?_
    | with_reducible refine Keeps.ite ?_ ?_
    | exact Keeps.upd (by with_reducible assumption)
    | split
    | dsimp only
    | with_reducible refine Keeps.upd ?_

theorem Keeps.complete {s x : State} {f : Nat} {e : CqEntry}
    (h : Keeps s x) : Keeps s (Machine.State.complete x f e) := by
  unfold Machine.State.complete
  repeat' first
    | refine Keeps.toHost ?_ fun w => writeBytes_wf w _ _
    | with_reducible assumption
    | with_reducible refine Keeps.modFn ?_
    | with_reducible refine Keeps.ite ?_ ?_
    | exact Keeps.upd (by with_reducible assumption)
    | split
    | dsimp only

theorem Keeps.drainCq {s x : State} {f : Nat} {a0 : Nat}
    (h : Keeps s x) : Keeps s (Machine.State.drainCq x f a0) := by
  induction a0 generalizing x f with
  | zero => simpa [State.drainCq] using h
  | succ n ih =>
    unfold Machine.State.drainCq
    repeat' first
      | with_reducible assumption
      | with_reducible refine ih ?_
      | with_reducible refine Keeps.complete ?_
      | with_reducible refine Keeps.modFn ?_
      | with_reducible refine Keeps.ite ?_ ?_
      | split
      | dsimp only

theorem Keeps.unregDone {s x : State} {f : Nat}
    (h : Keeps s x) : Keeps s (Machine.State.unregDone x f) := by
  unfold Machine.State.unregDone
  repeat' first
    | with_reducible assumption
    | with_reducible refine Keeps.complete ?_
    | with_reducible refine Keeps.modFn ?_
    | with_reducible refine Keeps.foldl ?_ fun _ _ _ => ?_
    | with_reducible refine Keeps.ite ?_ ?_
    | split
    | dsimp only

theorem Keeps.rejects {s x : State} {f : Nat} {a0 : Nat}
    (h : Keeps s x) : Keeps s (Machine.State.rejects x f a0) := by
  induction a0 generalizing x f with
  | zero => simpa [State.rejects] using h
  | succ n ih =>
    unfold Machine.State.rejects
    repeat' first
      | with_reducible assumption
      | with_reducible refine ih ?_
      | with_reducible refine Keeps.complete ?_
      | with_reducible refine Keeps.modFn ?_
      | with_reducible refine Keeps.ite ?_ ?_
      | split
      | dsimp only

theorem Keeps.ringOn {s x : State} {f : Nat}
    (h : Keeps s x) : Keeps s (Machine.State.ringOn x f) := by
  unfold Machine.State.ringOn
  repeat' first
    | with_reducible assumption
    | with_reducible refine Keeps.unregDone ?_
    | with_reducible refine Keeps.rejects ?_
    | split
    | dsimp only

theorem Keeps.finish {s x : State} {f : Nat} {e : CqEntry}
    (h : Keeps s x) : Keeps s (Machine.State.finish x f e) := by
  unfold Machine.State.finish
  repeat' first
    | with_reducible assumption
    | with_reducible refine Keeps.complete ?_
    | with_reducible refine Keeps.ringOn ?_
    | with_reducible refine Keeps.modFn ?_
    | split
    | dsimp only

theorem Keeps.addLog {s x : State} {kind finding index : Nat} (h : Keeps s x) :
    Keeps s (x.log kind finding index) := by
  unfold State.log
  dsimp only
  split
  · exact h
  · exact ⟨h.1.trans (List.prefix_append ..), h.2, h.3, h.4, h.5⟩


theorem Keeps.cper {s x : State} {f : Finding}
    (h : Keeps s x) : Keeps s (Machine.State.cper x f) := by
  unfold Machine.State.cper
  repeat' first
    | with_reducible assumption
    | with_reducible refine Keeps.modMgt ?_ (by first | rfl | (split <;> rfl)) (by first | rfl | (split <;> rfl))
    | with_reducible refine Keeps.ite ?_ ?_
    | split
    | dsimp only

theorem Keeps.exportCper {s x : State} {c : Cper}
    (h : Keeps s x) : Keeps s (Machine.State.exportCper x c) := by
  unfold Machine.State.exportCper
  repeat' first
    | with_reducible assumption
    | with_reducible refine Keeps.event ?_
    | with_reducible refine Keeps.modMgt ?_ (by first | rfl | (split <;> rfl)) (by first | rfl | (split <;> rfl))
    | with_reducible refine Keeps.ite ?_ ?_
    | split
    | dsimp only

theorem Keeps.tileBad {s x : State} {t_ : Nat} {found : Nat} {source : Nat}
    (h : Keeps s x) : Keeps s (Machine.State.tileBad x t_ found source) := by
  unfold Machine.State.tileBad
  repeat' first
    | with_reducible assumption
    | with_reducible refine Keeps.addLog ?_
    | with_reducible refine Keeps.cper ?_
    | with_reducible refine Keeps.modUnits ?_
    | with_reducible refine Keeps.ite ?_ ?_
    | split
    | dsimp only

theorem Keeps.routerBad {s x : State} {t_ : Nat} {found : Nat} {source : Nat}
    (h : Keeps s x) : Keeps s (Machine.State.routerBad x t_ found source) := by
  unfold Machine.State.routerBad
  repeat' first
    | with_reducible assumption
    | with_reducible refine Keeps.addLog ?_
    | with_reducible refine Keeps.cper ?_
    | with_reducible refine Keeps.modUnits ?_
    | with_reducible refine Keeps.ite ?_ ?_
    | split
    | dsimp only

theorem Keeps.linkTo {s x : State} {t_ : Nat} {d : Dir} {st : Nat}
    (h : Keeps s x) : Keeps s (Machine.State.linkTo x t_ d st) := by
  unfold Machine.State.linkTo
  repeat' first
    | with_reducible assumption
    | with_reducible refine Keeps.modUnits ?_
    | split
    | dsimp only

theorem Keeps.henToken {s t : State} {cls : Nat} {kind : Nat} {r : Nat} {k : Token} {f : State → State}
    (hf : ∀ u, Keeps s u → Keeps s (f u))
    (e : Machine.henToken cls kind r k s f = .next t) : Keeps s t := by
  unfold Machine.henToken at e
  refine Keeps.onUnit ?_ e
  have h := Keeps.refl s
  repeat' first
    | with_reducible assumption
    | with_reducible refine Keeps.receive ?_ (fun _ _ => ?_)
    | with_reducible refine hf _ ?_
    | with_reducible refine Keeps.due ?_ fun _ _ => ?_
    | split
    | dsimp only

theorem Keeps.inject {s x : State} {n : NodeId} {k : Token}
    (h : Keeps s x) : Keeps s (Machine.State.inject x n k) := by
  unfold Machine.State.inject
  repeat' first
    | with_reducible assumption
    | with_reducible refine Keeps.fly ?_
    | with_reducible refine Keeps.foldl ?_ fun _ _ _ => ?_
    | split
    | dsimp only

theorem Keeps.edgeInject {s x : State} {e : EdgeId} {n : NodeId}
    (h : Keeps s x) : Keeps s (Machine.State.edgeInject x e n) := by
  unfold Machine.State.edgeInject
  repeat' first
    | with_reducible assumption
    | with_reducible refine Keeps.inject ?_
    | with_reducible refine Keeps.modEdge ?_
    | with_reducible refine Keeps.due ?_ fun _ _ => ?_
    | split
    | dsimp only

theorem Keeps.modBar {s x : State} {r : Nat} {g : Nat} {f : HenBar → HenBar}
    (h : Keeps s x) : Keeps s (Machine.State.modBar x r g f) := by
  unfold Machine.State.modBar
  repeat' first
    | with_reducible assumption
    | with_reducible refine Keeps.modCtl ?_
    | split
    | dsimp only

theorem Keeps.collect {s x : State} {r : Nat} {g : Nat} {from_ : Nat} {beat : Nat}
    (h : Keeps s x) : Keeps s (Machine.State.collect x r g from_ beat) := by
  unfold Machine.State.collect
  repeat' first
    | with_reducible assumption
    | with_reducible refine Keeps.henQueue ?_
    | with_reducible refine Keeps.henToken ?_ (fun _ _ => ?_)
    | with_reducible refine Keeps.modBar ?_
    | with_reducible refine Keeps.fly ?_
    | with_reducible refine Keeps.foldl ?_ fun _ _ _ => ?_
    | with_reducible refine Keeps.ite ?_ ?_
    | split
    | dsimp only

theorem Keeps.sendDone {s x : State} {r : Nat} {g : Nat}
    (h : Keeps s x) : Keeps s (Machine.State.sendDone x r g) := by
  unfold Machine.State.sendDone
  repeat' first
    | with_reducible assumption
    | with_reducible refine Keeps.henQueue ?_
    | with_reducible refine Keeps.henToken ?_ (fun _ _ => ?_)
    | with_reducible refine Keeps.collect ?_
    | with_reducible refine Keeps.ite ?_ ?_
    | split
    | dsimp only

theorem Keeps.announce {s x : State} {r : Nat} {kind : BitVec 4} {beat : Nat} {arg : Nat}
    (h : Keeps s x) : Keeps s (Machine.State.announce x r kind beat arg) := by
  unfold Machine.State.announce
  repeat' first
    | with_reducible assumption
    | with_reducible refine Keeps.henQueue ?_
    | with_reducible refine Keeps.henToken ?_ (fun _ _ => ?_)
    | split
    | dsimp only

theorem Keeps.holdRequest {s x : State} {r : Nat} {h_ : Nat} {reasons : Nat}
    (h : Keeps s x) : Keeps s (Machine.State.holdRequest x r h_ reasons) := by
  unfold Machine.State.holdRequest
  repeat' first
    | with_reducible assumption
    | with_reducible refine Keeps.henError ?_
    | with_reducible refine Keeps.announce ?_
    | with_reducible refine Keeps.modCtl ?_
    | with_reducible refine Keeps.ite ?_ ?_
    | split
    | dsimp only

theorem Keeps.resumeRequest {s x : State} {r : Nat} {reasons : Nat}
    (h : Keeps s x) : Keeps s (Machine.State.resumeRequest x r reasons) := by
  unfold Machine.State.resumeRequest
  repeat' first
    | with_reducible assumption
    | with_reducible refine Keeps.modCtl ?_
    | with_reducible refine Keeps.ite ?_ ?_
    | split
    | dsimp only

theorem Keeps.startTest {s x : State} {t_ : Nat} {u_ : Nat} {w : TestPlace}
    (h : Keeps s x) : Keeps s (Machine.State.startTest x t_ u_ w) := by
  unfold Machine.State.startTest
  repeat' first
    | with_reducible assumption
    | with_reducible refine Keeps.modTile ?_
    | split
    | dsimp only

theorem Keeps.startTests {s x : State} {l : List Nat} {w : TestPlace}
    (h : Keeps s x) : Keeps s (Machine.State.startTests x l w) := by
  unfold Machine.State.startTests
  repeat' first
    | with_reducible assumption
    | with_reducible refine Keeps.startTest ?_
    | with_reducible refine Keeps.forAll ?_ fun _ _ _ => ?_
    | with_reducible refine Keeps.ite ?_ ?_
    | split
    | dsimp only

theorem Keeps.pauseDone {s x : State} {r : Nat} {n : Nat} {failed : Bool}
    (h : Keeps s x) : Keeps s (Machine.State.pauseDone x r n failed) := by
  unfold Machine.State.pauseDone
  repeat' first
    | with_reducible assumption
    | with_reducible refine Keeps.henSend ?_
    | with_reducible refine Keeps.askLead ?_
    | with_reducible refine Keeps.henToken ?_ (fun _ _ => ?_)
    | with_reducible refine Keeps.modTest ?_
    | with_reducible refine Keeps.forAll ?_ fun _ _ _ => ?_
    | with_reducible refine Keeps.ite ?_ ?_
    | split
    | dsimp only

theorem Keeps.abandonTests {s x : State} {r : Nat}
    (h : Keeps s x) : Keeps s (Machine.State.abandonTests x r) := by
  unfold Machine.State.abandonTests
  repeat' first
    | with_reducible assumption
    | with_reducible refine Keeps.pauseDone ?_
    | with_reducible refine Keeps.modTile ?_
    | with_reducible refine Keeps.modTest ?_
    | with_reducible refine Keeps.forAll ?_ fun _ _ _ => ?_
    | with_reducible refine Keeps.ite ?_ ?_
    | split
    | dsimp only

theorem Keeps.announceStart {s x : State} {p : Nat}
    (h : Keeps s x) : Keeps s (Machine.State.announceStart x p) := by
  unfold Machine.State.announceStart
  repeat' first
    | with_reducible assumption
    | with_reducible refine Keeps.mcQueue ?_
    | split
    | dsimp only

theorem Keeps.announceStop {s x : State} {p : Nat} {reason : Nat}
    (h : Keeps s x) : Keeps s (Machine.State.announceStop x p reason) := by
  unfold Machine.State.announceStop
  repeat' first
    | with_reducible assumption
    | with_reducible refine Keeps.mcQueue ?_
    | with_reducible refine Keeps.modPart ?_
    | split
    | dsimp only

theorem Keeps.announcePSwap {s x : State} {l : Nat} {w : Nat}
    (h : Keeps s x) : Keeps s (Machine.State.announcePSwap x l w) := by
  unfold Machine.State.announcePSwap
  repeat' first
    | with_reducible assumption
    | with_reducible refine Keeps.announce ?_
    | with_reducible refine Keeps.modCtl ?_
    | split
    | dsimp only

theorem Keeps.reservedAtMc {s x : State} 
    (h : Keeps s x) : Keeps s (Machine.State.reservedAtMc x) := by
  unfold Machine.State.reservedAtMc
  repeat' first
    | with_reducible assumption
    | with_reducible refine Keeps.fly ?_
    | split
    | dsimp only

theorem Keeps.modNorm {s x : State} {p : Nat} {ph : Nat} {f : NormOcc → NormOcc}
    (h : Keeps s x) : Keeps s (Machine.State.modNorm x p ph f) := by
  unfold Machine.State.modNorm
  repeat' first
    | with_reducible assumption
    | with_reducible refine Keeps.modPart ?_
    | split
    | dsimp only

theorem Keeps.normToken {s t : State} {kind : Nat} {r : Nat} {k : Token} {f : Nat → State → State}
    (hf : ∀ v0 u, Keeps s u → Keeps s (f v0 u))
    (e : Machine.normToken kind r k s f = .next t) : Keeps s t := by
  unfold Machine.normToken at e
  refine Keeps.henToken (fun _ _ => ?_) e
  repeat' first
    | with_reducible assumption
    | with_reducible refine Keeps.henQueue ?_
    | with_reducible refine Keeps.henToken ?_ (fun _ _ => ?_)
    | with_reducible apply hf
    | with_reducible refine Keeps.ite ?_ ?_
    | split
    | dsimp only

theorem Keeps.emitNorm {s x : State} {p : Nat} {ph : Nat} {occ : Nat} {incomplete : Bool} {pairs : List (Nat × Nat × Nat × Word × Word)} {tag : Nat}
    (h : Keeps s x) : Keeps s (Machine.State.emitNorm x p ph occ incomplete pairs tag) := by
  unfold Machine.State.emitNorm
  repeat' first
    | with_reducible assumption
    | with_reducible refine Keeps.event ?_
    | with_reducible refine Keeps.modPart ?_
    | with_reducible refine Keeps.foldl ?_ fun _ _ _ => ?_
    | with_reducible refine Keeps.ite ?_ ?_
    | split
    | dsimp only

theorem Keeps.reportTests {s x : State} {r : Nat} {kind : Nat} {f : TestSt → Bool}
    (h : Keeps s x) : Keeps s (Machine.State.reportTests x r kind f) := by
  unfold Machine.State.reportTests
  repeat' first
    | with_reducible assumption
    | with_reducible refine Keeps.henSend ?_
    | with_reducible refine Keeps.henToken ?_ (fun _ _ => ?_)
    | split
    | dsimp only

theorem Keeps.moveTest {s x : State} {t_ : Nat} {st : TestSt}
    (h : Keeps s x) : Keeps s (Machine.State.moveTest x t_ st) := by
  unfold Machine.State.moveTest
  repeat' first
    | with_reducible assumption
    | with_reducible refine Keeps.reportTests ?_
    | with_reducible refine Keeps.modTile ?_
    | with_reducible refine Keeps.modTest ?_
    | split
    | dsimp only

theorem Keeps.markTest {s x : State} {t_ : Nat}
    (h : Keeps s x) : Keeps s (Machine.State.markTest x t_) := by
  unfold Machine.State.markTest
  repeat' first
    | with_reducible assumption
    | with_reducible refine Keeps.moveTest ?_
    | with_reducible refine Keeps.due ?_ fun _ _ => ?_
    | split
    | dsimp only

theorem Keeps.testAge {s t : State} {t_ : Nat} {hours : Nat} {f : TestSt → Bool} {g : State → State}
    (hg : ∀ u, Keeps s u → Keeps s (g u))
    (e : Machine.testAge t_ hours f s g = .next t) : Keeps s t := by
  unfold Machine.testAge at e
  refine Keeps.onUnit ?_ e
  have h := Keeps.refl s
  repeat' first
    | with_reducible assumption
    | with_reducible refine hg _ ?_
    | with_reducible refine Keeps.due ?_ fun _ _ => ?_
    | split
    | dsimp only

theorem Keeps.mcTest {s t : State} {kind : Nat} {k : Token}
    
    (e : Machine.mcTest kind k s = .next t) : Keeps s t := by
  unfold Machine.mcTest at e
  refine Keeps.onUnit ?_ e
  have h := Keeps.refl s
  repeat' first
    | with_reducible assumption
    | with_reducible refine Keeps.event ?_
    | with_reducible refine Keeps.cper ?_
    | with_reducible refine Keeps.reservedAtMc ?_
    | with_reducible refine Keeps.landed ?_
    | with_reducible refine Keeps.due ?_ fun _ _ => ?_
    | with_reducible refine Keeps.ite ?_ ?_
    | split
    | dsimp only

theorem Keeps.faultUnits {s x : State} {k : Token}
    (h : Keeps s x) : Keeps s (Machine.State.faultUnits x k) := by
  unfold Machine.State.faultUnits
  repeat' first
    | with_reducible assumption
    | with_reducible refine Keeps.tileBad ?_
    | with_reducible refine Keeps.routerBad ?_
    | with_reducible refine Keeps.markTest ?_
    | with_reducible refine Keeps.modTile ?_
    | with_reducible refine Keeps.ite ?_ ?_
    | split
    | dsimp only

theorem Keeps.takeFault {s x : State} {q : Option Nat} {k : Token}
    (h : Keeps s x) : Keeps s (Machine.State.takeFault x q k) := by
  unfold Machine.State.takeFault
  repeat' first
    | with_reducible assumption
    | with_reducible refine Keeps.cper ?_
    | with_reducible refine Keeps.announceStop ?_
    | with_reducible refine Keeps.faultUnits ?_
    | with_reducible refine Keeps.modRegion ?_
    | with_reducible refine Keeps.ite ?_ ?_
    | split
    | dsimp only

theorem Keeps.endTest {s x : State} {t_ : Nat} {res : Nat}
    (h : Keeps s x) : Keeps s (Machine.State.endTest x t_ res) := by
  unfold Machine.State.endTest
  repeat' first
    | with_reducible assumption
    | with_reducible refine Keeps.raise ?_
    | with_reducible refine Keeps.tileBad ?_
    | with_reducible refine Keeps.modTile ?_
    | with_reducible refine Keeps.modTest ?_
    | with_reducible refine Keeps.ite ?_ ?_
    | exact Keeps.upd (by with_reducible assumption)
    | split
    | dsimp only

theorem Keeps.grant {s x : State} {r : Nat}
    (h : Keeps s x) : Keeps s (Machine.State.grant x r) := by
  unfold Machine.State.grant
  repeat' first
    | with_reducible assumption
    | with_reducible refine Keeps.henQueue ?_
    | with_reducible refine Keeps.askLead ?_
    | with_reducible refine Keeps.henToken ?_ (fun _ _ => ?_)
    | with_reducible refine Keeps.modTest ?_
    | with_reducible refine Keeps.ite ?_ ?_
    | split
    | dsimp only

theorem Keeps.sendBudget {s x : State} {m : PowerMeas} {f : Nat} {n : Nat} {r : Nat}
    (h : Keeps s x) : Keeps s (Machine.State.sendBudget x m f n r) := by
  unfold Machine.State.sendBudget
  repeat' first
    | with_reducible assumption
    | with_reducible refine Keeps.mcQueue ?_
    | with_reducible refine Keeps.draw ?_
    | with_reducible refine Keeps.modMgt ?_ (by first | rfl | (split <;> rfl)) (by first | rfl | (split <;> rfl))
    | split
    | dsimp only
    | exact Keeps.of_draw (by with_reducible assumption) (by assumption)

theorem Keeps.budgeter {s x : State} {m : PowerMeas} {k : Nat}
    (h : Keeps s x) : Keeps s (Machine.State.budgeter x m k) := by
  unfold Machine.State.budgeter
  repeat' first
    | with_reducible assumption
    | with_reducible refine Keeps.sendBudget ?_
    | with_reducible refine Keeps.modMgt ?_ (by first | rfl | (split <;> rfl)) (by first | rfl | (split <;> rfl))
    | with_reducible refine Keeps.forAll ?_ fun _ _ _ => ?_
    | with_reducible refine Keeps.ite ?_ ?_
    | split
    | dsimp only

theorem Keeps.excess {s x : State} {m : PowerMeas}
    (h : Keeps s x) : Keeps s (Machine.State.excess x m) := by
  unfold Machine.State.excess
  repeat' first
    | with_reducible assumption
    | with_reducible refine Keeps.fly ?_
    | with_reducible refine Keeps.modMgt ?_ (by first | rfl | (split <;> rfl)) (by first | rfl | (split <;> rfl))
    | with_reducible refine Keeps.ite ?_ ?_
    | split
    | dsimp only

theorem Keeps.pwrNote {s x : State} {r : Nat} {bit : Nat}
    (h : Keeps s x) : Keeps s (Machine.State.pwrNote x r bit) := by
  unfold Machine.State.pwrNote
  repeat' first
    | with_reducible assumption
    | with_reducible refine Keeps.modPwr ?_
    | with_reducible refine Keeps.ite ?_ ?_
    | split
    | dsimp only

theorem Keeps.pwrError {s x : State} {r : Nat} {bit : Nat} {cause : Nat}
    (h : Keeps s x) : Keeps s (Machine.State.pwrError x r bit cause) := by
  unfold Machine.State.pwrError
  repeat' first
    | with_reducible assumption
    | with_reducible refine Keeps.raise ?_
    | with_reducible refine Keeps.pwrNote ?_
    | split
    | dsimp only

theorem Keeps.report {s x : State} {r : Nat} {avg : Nat} {req : Nat}
    (h : Keeps s x) : Keeps s (Machine.State.report x r avg req) := by
  unfold Machine.State.report
  repeat' first
    | with_reducible assumption
    | with_reducible refine Keeps.henQueue ?_
    | with_reducible refine Keeps.henToken ?_ (fun _ _ => ?_)
    | with_reducible refine Keeps.modPwr ?_
    | with_reducible refine Keeps.ite ?_ ?_
    | split
    | dsimp only

theorem Keeps.leadReport {s x : State} {l : Nat} {req : Nat}
    (h : Keeps s x) : Keeps s (Machine.State.leadReport x l req) := by
  unfold Machine.State.leadReport
  repeat' first
    | with_reducible assumption
    | with_reducible refine Keeps.holdRequest ?_
    | with_reducible refine Keeps.resumeRequest ?_
    | with_reducible refine Keeps.ite ?_ ?_
    | split
    | dsimp only

theorem Keeps.requestDark {s x : State} {r : Nat} {c : DarkCause}
    (h : Keeps s x) : Keeps s (Machine.State.requestDark x r c) := by
  unfold Machine.State.requestDark
  repeat' first
    | with_reducible assumption
    | with_reducible refine Keeps.report ?_
    | with_reducible refine Keeps.modPwr ?_
    | with_reducible refine Keeps.ite ?_ ?_
    | split
    | dsimp only

theorem Keeps.requestRamp {s x : State} {r : Nat}
    (h : Keeps s x) : Keeps s (Machine.State.requestRamp x r) := by
  unfold Machine.State.requestRamp
  repeat' first
    | with_reducible assumption
    | with_reducible refine Keeps.modPwr ?_
    | with_reducible refine Keeps.ite ?_ ?_
    | split
    | dsimp only

theorem Keeps.reasonGone {s x : State} {r : Nat}
    (h : Keeps s x) : Keeps s (Machine.State.reasonGone x r) := by
  unfold Machine.State.reasonGone
  repeat' first
    | with_reducible assumption
    | with_reducible refine Keeps.report ?_
    | with_reducible refine Keeps.requestRamp ?_
    | with_reducible refine Keeps.modPwr ?_
    | with_reducible refine Keeps.ite ?_ ?_
    | split
    | dsimp only

theorem Keeps.railsOff {s x : State} {r : Nat}
    (h : Keeps s x) : Keeps s (Machine.State.railsOff x r) := by
  unfold Machine.State.railsOff
  repeat' first
    | with_reducible assumption
    | with_reducible refine Keeps.abandonTests ?_
    | with_reducible refine Keeps.modTile ?_
    | with_reducible refine Keeps.modPwr ?_
    | with_reducible refine Keeps.forAll ?_ fun _ _ _ => ?_
    | split
    | dsimp only

theorem Keeps.planeOff {s x : State} {r : Nat}
    (h : Keeps s x) : Keeps s (Machine.State.planeOff x r) := by
  unfold Machine.State.planeOff
  repeat' first
    | with_reducible assumption
    | with_reducible refine Keeps.modRegion ?_
    | with_reducible refine Keeps.modUnits ?_
    | with_reducible refine Keeps.ite ?_ ?_
    | split
    | dsimp only

theorem Keeps.feedCheck {s x : State} {r : Nat}
    (h : Keeps s x) : Keeps s (Machine.State.feedCheck x r) := by
  unfold Machine.State.feedCheck
  repeat' first
    | with_reducible assumption
    | with_reducible refine Keeps.planeOff ?_
    | with_reducible refine Keeps.modClk ?_
    | with_reducible refine Keeps.ite ?_ ?_
    | split
    | dsimp only

theorem Keeps.feedLost {s x : State} {r : Nat}
    (h : Keeps s x) : Keeps s (Machine.State.feedLost x r) := by
  unfold Machine.State.feedLost
  repeat' first
    | with_reducible assumption
    | with_reducible refine Keeps.planeOff ?_
    | with_reducible refine Keeps.modPwr ?_
    | with_reducible refine Keeps.ite ?_ ?_
    | split
    | dsimp only

theorem Keeps.isolate {s x : State} {r : Nat} {final : Bool}
    (h : Keeps s x) : Keeps s (Machine.State.isolate x r final) := by
  unfold Machine.State.isolate
  repeat' first
    | with_reducible assumption
    | with_reducible refine Keeps.report ?_
    | with_reducible refine Keeps.railsOff ?_
    | with_reducible refine Keeps.feedLost ?_
    | with_reducible refine Keeps.modPwr ?_
    | with_reducible refine Keeps.ite ?_ ?_
    | split
    | dsimp only

theorem Keeps.sendLink {s x : State} {p : Nat} {op : Nat} {a : Nat} {b : Nat} {c : Nat} {d : Nat}
    (h : Keeps s x) : Keeps s (Machine.State.sendLink x p op a b c d) := by
  unfold Machine.State.sendLink
  repeat' first
    | with_reducible assumption
    | with_reducible refine Keeps.modPort ?_
    | split
    | dsimp only

theorem Keeps.sendCredit {s x : State} {p : Nat}
    (h : Keeps s x) : Keeps s (Machine.State.sendCredit x p) := by
  unfold Machine.State.sendCredit
  repeat' first
    | with_reducible assumption
    | with_reducible refine Keeps.sendLink ?_
    | with_reducible refine Keeps.modPort ?_
    | split
    | dsimp only

theorem Keeps.freeCredit {s x : State} {p : Nat} {pool : Nat} {n : Nat}
    (h : Keeps s x) : Keeps s (Machine.State.freeCredit x p pool n) := by
  unfold Machine.State.freeCredit
  repeat' first
    | with_reducible assumption
    | with_reducible refine Keeps.sendCredit ?_
    | with_reducible refine Keeps.modPort ?_
    | with_reducible refine Keeps.ite ?_ ?_
    | split
    | dsimp only

theorem Keeps.pump {s x : State} {p : Nat} {a0 : Nat}
    (h : Keeps s x) : Keeps s (Machine.State.pump x p a0) := by
  induction a0 generalizing x p with
  | zero => simpa [State.pump] using h
  | succ n ih =>
    unfold Machine.State.pump
    repeat' first
      | with_reducible assumption
      | with_reducible refine ih ?_
      | with_reducible refine Keeps.freeCredit ?_
      | with_reducible refine Keeps.setPort ?_
      | with_reducible refine Keeps.ite ?_ ?_
      | split
      | dsimp only

theorem Keeps.queueAt {s x : State} {p : Nat} {input : Nat} {pkt : List Line}
    (h : Keeps s x) : Keeps s (Machine.State.queueAt x p input pkt) := by
  unfold Machine.State.queueAt
  repeat' first
    | with_reducible assumption
    | with_reducible refine Keeps.pump ?_
    | with_reducible refine Keeps.modPort ?_
    | split
    | dsimp only

theorem Keeps.sendRsp {s x : State} {d : Nat} {pkt : List Line}
    (h : Keeps s x) : Keeps s (Machine.State.sendRsp x d pkt) := by
  unfold Machine.State.sendRsp
  repeat' first
    | with_reducible assumption
    | with_reducible refine Keeps.queueAt ?_
    | with_reducible refine Keeps.modIod ?_
    | split
    | dsimp only

theorem Keeps.noRoute {s x : State} {d : Nat} {input : Nat} {pkt : List Line}
    (h : Keeps s x) : Keeps s (Machine.State.noRoute x d input pkt) := by
  unfold Machine.State.noRoute
  repeat' first
    | with_reducible assumption
    | with_reducible refine Keeps.freeCredit ?_
    | with_reducible refine Keeps.sendRsp ?_
    | with_reducible refine Keeps.modIod ?_
    | with_reducible refine Keeps.ite ?_ ?_
    | split
    | dsimp only

theorem Keeps.sendOn {s x : State} {d : Nat} {input : Nat} {pkt : List Line}
    (h : Keeps s x) : Keeps s (Machine.State.sendOn x d input pkt) := by
  unfold Machine.State.sendOn
  repeat' first
    | with_reducible assumption
    | with_reducible refine Keeps.queueAt ?_
    | with_reducible refine Keeps.noRoute ?_
    | split
    | dsimp only

theorem Keeps.becomeUp {s x : State} {p : Nat}
    (h : Keeps s x) : Keeps s (Machine.State.becomeUp x p) := by
  unfold Machine.State.becomeUp
  repeat' first
    | with_reducible assumption
    | with_reducible refine Keeps.modPort ?_
    | split
    | dsimp only

theorem Keeps.tryAdmit {s x : State} {p : Nat}
    (h : Keeps s x) : Keeps s (Machine.State.tryAdmit x p) := by
  unfold Machine.State.tryAdmit
  repeat' first
    | with_reducible assumption
    | with_reducible refine Keeps.sendLink ?_
    | with_reducible refine Keeps.becomeUp ?_
    | with_reducible refine Keeps.modPort ?_
    | with_reducible refine Keeps.ite ?_ ?_
    | split
    | dsimp only

theorem Keeps.admitAll {s x : State} 
    (h : Keeps s x) : Keeps s (Machine.State.admitAll x) := by
  unfold Machine.State.admitAll
  repeat' first
    | with_reducible assumption
    | with_reducible refine Keeps.tryAdmit ?_
    | with_reducible refine Keeps.forAll ?_ fun _ _ _ => ?_
    | split
    | dsimp only

theorem Keeps.sendNak {s x : State} {p : Nat}
    (h : Keeps s x) : Keeps s (Machine.State.sendNak x p) := by
  unfold Machine.State.sendNak
  repeat' first
    | with_reducible assumption
    | with_reducible refine Keeps.sendLink ?_
    | with_reducible refine Keeps.modPort ?_
    | with_reducible refine Keeps.ite ?_ ?_
    | split
    | dsimp only

theorem Keeps.acceptPacket {s x : State} {p : Nat} {pkt : List Line}
    (h : Keeps s x) : Keeps s (Machine.State.acceptPacket x p pkt) := by
  unfold Machine.State.acceptPacket
  repeat' first
    | with_reducible assumption
    | with_reducible refine Keeps.freeCredit ?_
    | with_reducible refine Keeps.sendRsp ?_
    | with_reducible refine Keeps.modIod ?_
    | with_reducible refine Keeps.modPort ?_
    | with_reducible refine Keeps.ite ?_ ?_
    | split
    | dsimp only

theorem Keeps.takePacket {s x : State} {p : Nat} {pkt : List Line}
    (h : Keeps s x) : Keeps s (Machine.State.takePacket x p pkt) := by
  unfold Machine.State.takePacket
  repeat' first
    | with_reducible assumption
    | with_reducible refine Keeps.sendNak ?_
    | with_reducible refine Keeps.acceptPacket ?_
    | with_reducible refine Keeps.modPort ?_
    | with_reducible refine Keeps.ite ?_ ?_
    | split
    | dsimp only

theorem Keeps.takeFlit {s x : State} {p : Nat} {f : Option Line}
    (h : Keeps s x) : Keeps s (Machine.State.takeFlit x p f) := by
  unfold Machine.State.takeFlit
  repeat' first
    | with_reducible assumption
    | with_reducible refine Keeps.sendNak ?_
    | with_reducible refine Keeps.takePacket ?_
    | with_reducible refine Keeps.modPort ?_
    | with_reducible refine Keeps.ite ?_ ?_
    | split
    | dsimp only

theorem Keeps.repeatMap {s x : State} {p : Nat}
    (h : Keeps s x) : Keeps s (Machine.State.repeatMap x p) := by
  unfold Machine.State.repeatMap
  repeat' first
    | with_reducible assumption
    | with_reducible refine Keeps.sendLink ?_
    | with_reducible refine Keeps.ite ?_ ?_
    | split
    | dsimp only

theorem Keeps.takeRx {s x u : State} {p : Nat} {f : Line → Bool} {c : Dword} {k : List Line} (h : Keeps s x)
    (e : x.takeRx p f = some (c, k, u)) : Keeps s u := by
  unfold State.takeRx at e
  split at e
  · injection e with e
    injection e with _ e
    injection e with _ e
    exact e ▸ h.modPort
  · exact nomatch e


theorem Keeps.linkRow {s t : State} {op : Nat} {port : Nat} {f : Line → State → State}
    (hf : ∀ v0 u, Keeps s u → Keeps s (f v0 u))
    (e : Machine.linkRow op port s f = .next t) : Keeps s t := by
  unfold Machine.linkRow at e
  refine Keeps.onUnit ?_ e
  have h := Keeps.refl s
  repeat' first
    | with_reducible assumption
    | with_reducible refine Keeps.takeRx ?_
    | with_reducible apply hf
    | split
    | dsimp only
    | (rename_i e _; exact Keeps.takeRx (by with_reducible assumption) e)
    | exact Keeps.takeRx (by with_reducible assumption) (by assumption)

theorem Keeps.chooseParent {s x : State} 
    (h : Keeps s x) : Keeps s (Machine.State.chooseParent x) := by
  unfold Machine.State.chooseParent
  repeat' first
    | with_reducible assumption
    | with_reducible refine Keeps.modMgt ?_ (by first | rfl | (split <;> rfl)) (by first | rfl | (split <;> rfl))
    | with_reducible refine Keeps.ite ?_ ?_
    | split
    | dsimp only

theorem Keeps.noteGm {s x : State} {p : Nat} {f : Nat}
    (h : Keeps s x) : Keeps s (Machine.State.noteGm x p f) := by
  unfold Machine.State.noteGm
  repeat' first
    | with_reducible assumption
    | with_reducible refine Keeps.chooseParent ?_
    | with_reducible refine Keeps.modPort ?_
    | split
    | dsimp only

theorem Keeps.takeOffset {s x : State} {o : Int} {delay : Int}
    (h : Keeps s x) : Keeps s (Machine.State.takeOffset x o delay) := by
  unfold Machine.State.takeOffset
  repeat' first
    | with_reducible assumption
    | with_reducible refine Keeps.modMgt ?_ (by first | rfl | (split <;> rfl)) (by first | rfl | (split <;> rfl))
    | split
    | dsimp only
    | exact Keeps.ofMgt (by with_reducible assumption) (Mgt.takeOffset_keeps _ _ _)

theorem Keeps.qualified {s x : State} {p : Nat} {bad : List Nat}
    (h : Keeps s x) : Keeps s (Machine.State.qualified x p bad) := by
  unfold Machine.State.qualified
  repeat' first
    | with_reducible assumption
    | with_reducible refine Keeps.tryAdmit ?_
    | with_reducible refine Keeps.modPort ?_
    | with_reducible refine Keeps.modMgt ?_ (by first | rfl | (split <;> rfl)) (by first | rfl | (split <;> rfl))
    | with_reducible refine Keeps.ite ?_ ?_
    | split
    | dsimp only
    | exact Keeps.ofMgt (by with_reducible assumption) (Mgt.save_keeps _ _ _)
    | refine Keeps.ofMgt ?_ (Mgt.save_keeps _ _ _)

theorem Keeps.writeMem {s x : State} {a : Nat} {a0 : List Byte}
    (h : Keeps s x) : Keeps s (Machine.State.writeMem x a a0) := by
  induction a0 generalizing x a with
  | nil => simpa [State.writeMem] using h
  | cons b l ih =>
    unfold Machine.State.writeMem
    repeat' first
      | with_reducible assumption
      | with_reducible refine ih ?_
      | exact Keeps.upd (by with_reducible assumption)
      | split
      | dsimp only
      | (refine Keeps.toHbm ?_ fun w => Tab.put_canonical w _ _)

theorem Keeps.writeLines {s x : State} {a : Nat} {l : List Line} (h : Keeps s x) : Keeps s (x.writeLines a l) := by
  induction l generalizing x a with
  | nil => exact h
  | cons b l ih =>
    unfold State.writeLines
    exact ih (Keeps.writeMem h)


theorem Keeps.freeLine {s x : State} (h : Keeps s x) : Keeps s x.freeLine.2 := by
  show Keeps s { x with free := x.free + 8 }
  exact h.upd


theorem Keeps.freeLines {s x : State} {n : Nat} (h : Keeps s x) : Keeps s (x.freeLines n).2 := by
  induction n generalizing x with
  | zero => exact h
  | succ n ih => exact ih h.freeLine


theorem Keeps.setPage {s x : State} {p : Nat} {r : BitVec 32}
    (h : Keeps s x) : Keeps s (Machine.State.setPage x p r) := by
  unfold Machine.State.setPage
  repeat' first
    | with_reducible assumption
    | exact Keeps.upd (by with_reducible assumption)
    | split
    | dsimp only

theorem Keeps.stage {s x : State} {e : EdgeId} {at_ : Nat} {ls : List Line}
    (h : Keeps s x) : Keeps s (Machine.State.stage x e at_ ls) := by
  unfold Machine.State.stage
  repeat' first
    | with_reducible assumption
    | with_reducible refine Keeps.modEdge ?_
    | split
    | dsimp only

theorem Keeps.oxFault {s x : State} {e : EdgeId} {sh : Nat} {cause : Nat}
    (h : Keeps s x) : Keeps s (Machine.State.oxFault x e sh cause) := by
  unfold Machine.State.oxFault
  repeat' first
    | with_reducible assumption
    | with_reducible refine Keeps.raiseEdge ?_
    | split
    | dsimp only

theorem Keeps.oxRefused {s x : State} {e : EdgeId} {sh : Nat}
    (h : Keeps s x) : Keeps s (Machine.State.oxRefused x e sh) := by
  unfold Machine.State.oxRefused
  repeat' first
    | with_reducible assumption
    | with_reducible refine Keeps.event ?_
    | with_reducible refine Keeps.oxFault ?_
    | with_reducible refine Keeps.modEdge ?_
    | split
    | dsimp only

theorem Keeps.edgeAsk {s x : State} {e : EdgeId} {p : Nat} {kind : Nat} {beat : Nat}
    (h : Keeps s x) : Keeps s (Machine.State.edgeAsk x e p kind beat) := by
  unfold Machine.State.edgeAsk
  repeat' first
    | with_reducible assumption
    | with_reducible refine Keeps.raiseEdge ?_
    | with_reducible refine Keeps.modEdge ?_
    | with_reducible refine Keeps.ite ?_ ?_
    | split
    | dsimp only

theorem Keeps.markPending {s x : State} 
    (h : Keeps s x) : Keeps s (Machine.State.markPending x) := by
  unfold Machine.State.markPending
  repeat' first
    | with_reducible assumption
    | with_reducible refine Keeps.setPage ?_
    | with_reducible refine Keeps.foldl ?_ fun _ _ _ => ?_
    | with_reducible refine Keeps.ite ?_ ?_
    | split
    | dsimp only

theorem Keeps.passDone {s x : State} {e : EdgeId} {sh : Nat} {i : Nat}
    (h : Keeps s x) : Keeps s (Machine.State.passDone x e sh i) := by
  unfold Machine.State.passDone
  repeat' first
    | with_reducible assumption
    | with_reducible refine Keeps.edgeAsk ?_
    | with_reducible refine Keeps.markPending ?_
    | with_reducible refine Keeps.modEdge ?_
    | with_reducible refine Keeps.ite ?_ ?_
    | split
    | dsimp only

theorem Keeps.passAnswer {s x : State} {e : EdgeId} {sh : Nat} {i : Nat} {line : Nat} {n : Nat} {status : Nat} {data : List Line}
    (h : Keeps s x) : Keeps s (Machine.State.passAnswer x e sh i line n status data) := by
  unfold Machine.State.passAnswer
  repeat' first
    | with_reducible assumption
    | with_reducible refine Keeps.stage ?_
    | with_reducible refine Keeps.oxFault ?_
    | with_reducible refine Keeps.oxRefused ?_
    | with_reducible refine Keeps.ite ?_ ?_
    | split
    | dsimp only

theorem Keeps.remoteAnswer {s x : State} {q : OutReq} {status : Nat} {data : List Line}
    (h : Keeps s x) : Keeps s (Machine.State.remoteAnswer x q status data) := by
  unfold Machine.State.remoteAnswer
  repeat' first
    | with_reducible assumption
    | with_reducible refine Keeps.passAnswer ?_
    | split
    | dsimp only

theorem Keeps.remoteRequest {s x : State} {e : EdgeId} {sh : Nat} {i : Nat} {l : Nat} {n : Nat}
    (h : Keeps s x) : Keeps s (Machine.State.remoteRequest x e sh i l n) := by
  unfold Machine.State.remoteRequest
  repeat' first
    | with_reducible assumption
    | with_reducible refine Keeps.queueAt ?_
    | with_reducible refine Keeps.noRoute ?_
    | with_reducible refine Keeps.remoteAnswer ?_
    | with_reducible refine Keeps.modIod ?_
    | with_reducible refine Keeps.ite ?_ ?_
    | split
    | dsimp only

theorem Keeps.askOn {s x : State} {e : EdgeId} {sh : Nat} {i : Nat} {a0 : Nat}
    (h : Keeps s x) : Keeps s (Machine.State.askOn x e sh i a0) := by
  induction a0 generalizing x e sh i with
  | zero => simpa [State.askOn] using h
  | succ n ih =>
    unfold Machine.State.askOn
    repeat' first
      | with_reducible assumption
      | with_reducible refine ih ?_
      | with_reducible refine Keeps.remoteRequest ?_
      | with_reducible refine Keeps.modEdge ?_
      | with_reducible refine Keeps.ite ?_ ?_
      | split
      | dsimp only

theorem Keeps.askAll {s x : State} {e : EdgeId} {sh : Nat} {i : Nat}
    (h : Keeps s x) : Keeps s (Machine.State.askAll x e sh i) := by
  unfold Machine.State.askAll
  repeat' first
    | with_reducible assumption
    | with_reducible refine Keeps.askOn ?_
    | split
    | dsimp only

theorem Keeps.answered {s x : State} {d : Nat} {q : OutReq} {status : Nat} {data : List Line}
    (h : Keeps s x) : Keeps s (Machine.State.answered x d q status data) := by
  unfold Machine.State.answered
  repeat' first
    | with_reducible assumption
    | with_reducible refine Keeps.remoteAnswer ?_
    | with_reducible refine Keeps.askAll ?_
    | with_reducible refine Keeps.modIod ?_
    | with_reducible refine Keeps.ite ?_ ?_
    | split
    | dsimp only

theorem Keeps.takeRsp {s x : State} {at_ : Nat} {d : Nat} {k : List Line}
    (h : Keeps s x) : Keeps s (Machine.State.takeRsp x at_ d k) := by
  unfold Machine.State.takeRsp
  repeat' first
    | with_reducible assumption
    | with_reducible refine Keeps.answered ?_
    | with_reducible refine Keeps.modIod ?_
    | split
    | dsimp only

theorem Keeps.ringPush {s x : State} {y : Nat} {k : List Line} (h : Keeps s x) : Keeps s (x.ringPush y k) :=
  h.modSite.upd


theorem Keeps.siteAsk {s x : State} {e : EdgeId} {sh : Nat} {i : Nat} {a0 : Nat}
    (h : Keeps s x) : Keeps s (Machine.State.siteAsk x e sh i a0) := by
  induction a0 generalizing x e sh i with
  | zero => simpa [State.siteAsk] using h
  | succ n ih =>
    unfold Machine.State.siteAsk
    repeat' first
      | with_reducible assumption
      | with_reducible refine ih ?_
      | with_reducible refine Keeps.ringPush ?_
      | with_reducible refine Keeps.modEdge ?_
      | with_reducible refine Keeps.ite ?_ ?_
      | split
      | dsimp only

theorem Keeps.passAsk {s x : State} {e : EdgeId} {sh : Nat} {i : Nat}
    (h : Keeps s x) : Keeps s (Machine.State.passAsk x e sh i) := by
  unfold Machine.State.passAsk
  repeat' first
    | with_reducible assumption
    | with_reducible refine Keeps.askAll ?_
    | with_reducible refine Keeps.siteAsk ?_
    | with_reducible refine Keeps.ite ?_ ?_
    | split
    | dsimp only

theorem Keeps.siteAnswer {s x : State} {e : EdgeId} {tag : Nat} {status : Nat} {data : List Line}
    (h : Keeps s x) : Keeps s (Machine.State.siteAnswer x e tag status data) := by
  unfold Machine.State.siteAnswer
  repeat' first
    | with_reducible assumption
    | with_reducible refine Keeps.passAnswer ?_
    | with_reducible refine Keeps.passAsk ?_
    | with_reducible refine Keeps.modEdge ?_
    | with_reducible refine Keeps.ite ?_ ?_
    | split
    | dsimp only

theorem Keeps.dmaAsk {s x : State} {f : Nat} {head : Nat}
    (h : Keeps s x) : Keeps s (Machine.State.dmaAsk x f head) := by
  unfold Machine.State.dmaAsk
  repeat' first
    | with_reducible assumption
    | with_reducible refine Keeps.ringPush ?_
    | with_reducible refine Keeps.modFn ?_
    | with_reducible refine Keeps.ite ?_ ?_
    | split
    | dsimp only

theorem Keeps.dmaAnswer {s x : State} {f : Nat} {head : Nat} {status : Nat} {data : List Line}
    (h : Keeps s x) : Keeps s (Machine.State.dmaAnswer x f head status data) := by
  unfold Machine.State.dmaAnswer
  repeat' first
    | refine Keeps.toHost ?_ fun w => writeBytes_wf w _ _
    | with_reducible assumption
    | with_reducible refine Keeps.dmaAsk ?_
    | with_reducible refine Keeps.modFn ?_
    | with_reducible refine Keeps.ite ?_ ?_
    | exact Keeps.upd (by with_reducible assumption)
    | split
    | dsimp only

theorem Keeps.ringResume {s x : State} 
    (h : Keeps s x) : Keeps s (Machine.State.ringResume x) := by
  unfold Machine.State.ringResume
  repeat' first
    | with_reducible assumption
    | with_reducible refine Keeps.passAsk ?_
    | with_reducible refine Keeps.dmaAsk ?_
    | with_reducible refine Keeps.forAll ?_ fun _ _ _ => ?_
    | with_reducible refine Keeps.foldl ?_ fun _ _ _ => ?_
    | split
    | dsimp only

theorem Keeps.askAgain {s x : State} {h_ : Line}
    (h : Keeps s x) : Keeps s (Machine.State.askAgain x h_) := by
  unfold Machine.State.askAgain
  repeat' first
    | with_reducible assumption
    | with_reducible refine Keeps.passAsk ?_
    | with_reducible refine Keeps.dmaAsk ?_
    | with_reducible refine Keeps.modFn ?_
    | with_reducible refine Keeps.modEdge ?_
    | with_reducible refine Keeps.foldl ?_ fun _ _ _ => ?_
    | with_reducible refine Keeps.ite ?_ ?_
    | split
    | dsimp only

theorem Keeps.uncorrectable {s x : State} {x_ : Nat}
    (h : Keeps s x) : Keeps s (Machine.State.uncorrectable x x_) := by
  unfold Machine.State.uncorrectable
  repeat' first
    | with_reducible assumption
    | with_reducible refine Keeps.modSite ?_
    | split
    | dsimp only

theorem Keeps.moveLine {s x : State} {e : EdgeId} {sh : Nat} {i : Nat} {bad : Bool} {l : Nat}
    (h : Keeps s x) : Keeps s (Machine.State.moveLine x e sh i bad l) := by
  unfold Machine.State.moveLine
  repeat' first
    | with_reducible assumption
    | with_reducible refine Keeps.writeLines ?_
    | with_reducible refine Keeps.freeLine ?_
    | with_reducible refine Keeps.stage ?_
    | with_reducible refine Keeps.passAnswer ?_
    | with_reducible refine Keeps.uncorrectable ?_
    | with_reducible refine Keeps.ite ?_ ?_
    | split
    | dsimp only

theorem Keeps.failChannel {s x : State} {x_ : Nat} {c : Nat}
    (h : Keeps s x) : Keeps s (Machine.State.failChannel x x_ c) := by
  unfold Machine.State.failChannel
  repeat' first
    | with_reducible assumption
    | with_reducible refine Keeps.addLog ?_
    | with_reducible refine Keeps.cper ?_
    | with_reducible refine Keeps.modSite ?_
    | with_reducible refine Keeps.ite ?_ ?_
    | split
    | dsimp only
    | with_reducible refine Keeps.upd ?_

theorem Keeps.repairRow {s x : State} {x_ : Nat} {c : Nat} {bank : Nat} {row : Nat}
    (h : Keeps s x) : Keeps s (Machine.State.repairRow x x_ c bank row) := by
  unfold Machine.State.repairRow
  repeat' first
    | with_reducible assumption
    | with_reducible refine Keeps.failChannel ?_
    | with_reducible refine Keeps.modSite ?_
    | with_reducible refine Keeps.ite ?_ ?_
    | split
    | dsimp only

theorem Keeps.eccReport {s x : State} {x_ : Nat} {r : EccReport}
    (h : Keeps s x) : Keeps s (Machine.State.eccReport x_ x r) := by
  unfold Machine.State.eccReport
  repeat' first
    | with_reducible assumption
    | with_reducible refine Keeps.cper ?_
    | with_reducible refine Keeps.repairRow ?_
    | with_reducible refine Keeps.modSite ?_
    | with_reducible refine Keeps.ite ?_ ?_
    | split
    | dsimp only

theorem Keeps.beginMove {s x : State} {m : HandOver}
    (h : Keeps s x) : Keeps s (Machine.State.beginMove x m) := by
  unfold Machine.State.beginMove
  repeat' first
    | with_reducible assumption
    | with_reducible refine Keeps.markPending ?_
    | exact Keeps.upd (by with_reducible assumption)
    | split
    | dsimp only

theorem Keeps.freePage {s x : State} {p : Nat}
    (h : Keeps s x) : Keeps s (Machine.State.freePage x p) := by
  unfold Machine.State.freePage
  repeat' first
    | with_reducible assumption
    | with_reducible refine Keeps.setPage ?_
    | with_reducible refine Keeps.ite ?_ ?_
    | exact Keeps.upd (by with_reducible assumption)
    | split
    | dsimp only

theorem Keeps.answer {s x : State} {p : Nat} {req : Line} {status : Nat} {op0 : Nat} {data : List Line}
    (h : Keeps s x) : Keeps s (Machine.State.answer x p req status op0 data) := by
  unfold Machine.State.answer
  repeat' first
    | with_reducible assumption
    | with_reducible refine Keeps.sendRsp ?_
    | with_reducible refine Keeps.modIod ?_
    | with_reducible refine Keeps.modPort ?_
    | split
    | dsimp only

theorem Keeps.endMove {s x : State} {m : HandOver} {r : BitVec 32}
    (h : Keeps s x) : Keeps s (Machine.State.endMove x m r) := by
  unfold Machine.State.endMove
  repeat' first
    | with_reducible assumption
    | with_reducible refine Keeps.finish ?_
    | with_reducible refine Keeps.setPage ?_
    | with_reducible refine Keeps.answer ?_
    | exact Keeps.upd (by with_reducible assumption)
    | split
    | dsimp only

theorem Keeps.completeMove {s x : State} {page : Nat}
    (h : Keeps s x) : Keeps s (Machine.State.completeMove x page) := by
  unfold Machine.State.completeMove
  repeat' first
    | with_reducible assumption
    | with_reducible refine Keeps.endMove ?_
    | with_reducible refine Keeps.due ?_ fun _ _ => ?_
    | with_reducible refine Keeps.ite ?_ ?_
    | exact Keeps.upd (by with_reducible assumption)
    | split
    | dsimp only

theorem Keeps.completeZero {s x : State} {page : Nat}
    (h : Keeps s x) : Keeps s (Machine.State.completeZero x page) := by
  unfold Machine.State.completeZero
  repeat' first
    | with_reducible assumption
    | with_reducible refine Keeps.endMove ?_
    | with_reducible refine Keeps.due ?_ fun _ _ => ?_
    | exact Keeps.upd (by with_reducible assumption)
    | split
    | dsimp only
    | exact Keeps.toHbm (by with_reducible assumption) fun w => ⟨w.1.filter _, fun p hp => w.2 p (List.mem_filter.1 hp).1⟩
    | refine Keeps.endMove ?_

theorem Keeps.freePagesOf {s x : State} {dev : Nat} {part : Nat}
    (h : Keeps s x) : Keeps s (Machine.State.freePagesOf x dev part) := by
  unfold Machine.State.freePagesOf
  repeat' first
    | with_reducible assumption
    | with_reducible refine Keeps.freePage ?_
    | with_reducible refine Keeps.foldl ?_ fun _ _ _ => ?_
    | with_reducible refine Keeps.ite ?_ ?_
    | split
    | dsimp only

theorem Keeps.freed {s x : State} {key : Nat} {n : Nat} {d : Nat}
    (h : Keeps s x) : Keeps s (Machine.State.freed x key n d) := by
  unfold Machine.State.freed
  repeat' first
    | with_reducible assumption
    | with_reducible refine Keeps.fly ?_
    | with_reducible refine Keeps.ite ?_ ?_
    | exact Keeps.upd (by with_reducible assumption)
    | split
    | dsimp only

theorem Keeps.popFq {s x : State} {p : Nat}
    (h : Keeps s x) : Keeps s (Machine.State.popFq x p) := by
  unfold Machine.State.popFq
  repeat' first
    | with_reducible assumption
    | with_reducible refine Keeps.freed ?_
    | with_reducible refine Keeps.modIod ?_
    | split
    | dsimp only

theorem Keeps.serveMemory {s x : State} {p : Nat} {k : List Line}
    (h : Keeps s x) : Keeps s (Machine.State.serveMemory x p k) := by
  unfold Machine.State.serveMemory
  repeat' first
    | with_reducible assumption
    | with_reducible refine Keeps.ringPush ?_
    | with_reducible refine Keeps.answer ?_
    | with_reducible refine Keeps.popFq ?_
    | with_reducible refine Keeps.ite ?_ ?_
    | split
    | dsimp only
    | with_reducible refine Keeps.upd ?_

theorem Keeps.fabricRow {s t : State} {port : Nat} {f : Line → Bool} {g : List Line → State → State}
    (hg : ∀ v0 u, Keeps s u → Keeps s (g v0 u))
    (e : Machine.fabricRow port s f g = .next t) : Keeps s t := by
  unfold Machine.fabricRow at e
  refine Keeps.onUnit ?_ e
  have h := Keeps.refl s
  repeat' first
    | with_reducible assumption
    | with_reducible apply hg
    | with_reducible refine Keeps.due ?_ fun _ _ => ?_
    | split
    | dsimp only

theorem Keeps.memoryRow {s t : State} {op : Nat} {port : Nat}
    
    (e : Machine.memoryRow op port s = .next t) : Keeps s t := by
  unfold Machine.memoryRow at e
  refine Keeps.fabricRow (fun _ _ _ => ?_) e
  repeat' first
    | with_reducible assumption
    | with_reducible refine Keeps.serveMemory ?_
    | with_reducible refine Keeps.fabricRow ?_ (fun _ _ _ => ?_)
    | split
    | dsimp only

theorem Keeps.atomicRow {s t : State} {kind : Nat} {port : Nat}
    
    (e : Machine.atomicRow kind port s = .next t) : Keeps s t := by
  unfold Machine.atomicRow at e
  refine Keeps.fabricRow (fun _ _ _ => ?_) e
  repeat' first
    | with_reducible assumption
    | with_reducible refine Keeps.serveMemory ?_
    | with_reducible refine Keeps.fabricRow ?_ (fun _ _ _ => ?_)
    | split
    | dsimp only

theorem Keeps.popOx {s x : State} {x_ : Nat} {n : Nat} {d : Nat}
    (h : Keeps s x) : Keeps s (Machine.State.popOx x x_ n d) := by
  unfold Machine.State.popOx
  repeat' first
    | with_reducible assumption
    | with_reducible refine Keeps.freed ?_
    | with_reducible refine Keeps.modSite ?_
    | split
    | dsimp only

theorem Keeps.ringRow {s t : State} {op : Nat} {x_ : Nat} {f : List Line → State → State}
    (hf : ∀ v0 u, Keeps s u → Keeps s (f v0 u))
    (e : Machine.ringRow op x_ s f = .next t) : Keeps s t := by
  unfold Machine.ringRow at e
  refine Keeps.onUnit ?_ e
  have h := Keeps.refl s
  repeat' first
    | with_reducible assumption
    | with_reducible apply hf
    | with_reducible refine Keeps.due ?_ fun _ _ => ?_
    | split
    | dsimp only

theorem Keeps.ringAnswer {s x : State} {h_ : Line} {status : Nat} {op0 : Nat} {data : List Line}
    (h : Keeps s x) : Keeps s (Machine.State.ringAnswer x h_ status op0 data) := by
  unfold Machine.State.ringAnswer
  repeat' first
    | with_reducible assumption
    | with_reducible refine Keeps.siteAnswer ?_
    | with_reducible refine Keeps.dmaAnswer ?_
    | with_reducible refine Keeps.answer ?_
    | split
    | dsimp only

theorem Keeps.ringServe {s x : State} {n : Nat} {k : List Line} {w : Bool}
    {f : Line → State → Nat × Nat × List Line × State} (h : Keeps s x)
    (hf : ∀ v u, Keeps s u → Keeps s (f v u).2.2.2) : Keeps s (x.ringServe n k w f) := by
  unfold State.ringServe
  dsimp only
  split
  · exact Keeps.ringAnswer (Keeps.popOx h)
  · exact Keeps.ringAnswer (hf _ _ (Keeps.popOx h))


theorem Keeps.readChecked {s x : State} {y a n : Nat} {bad : List Nat} (h : Keeps s x) :
    Keeps s (x.readChecked y a bad n).2 := by
  induction n with
  | zero => exact h
  | succ n ih =>
    unfold State.readChecked
    dsimp only
    split
    · exact Keeps.uncorrectable (Keeps.freeLine ih)
    · exact ih


theorem Keeps.lookAgain {s x : State} {k : Nat × List Line}
    (h : Keeps s x) : Keeps s (Machine.State.lookAgain x k) := by
  unfold Machine.State.lookAgain
  repeat' first
    | with_reducible assumption
    | with_reducible refine Keeps.noRoute ?_
    | with_reducible refine Keeps.sendOn ?_
    | with_reducible refine Keeps.takeRsp ?_
    | with_reducible refine Keeps.modIod ?_
    | with_reducible refine Keeps.ite ?_ ?_
    | split
    | dsimp only

theorem Keeps.leaveUp {s x : State} {p : Nat} {st : PortSt} {byDepart : Bool}
    (h : Keeps s x) : Keeps s (Machine.State.leaveUp x p st byDepart) := by
  unfold Machine.State.leaveUp
  repeat' first
    | with_reducible assumption
    | with_reducible refine Keeps.lookAgain ?_
    | with_reducible refine Keeps.modPort ?_
    | with_reducible refine Keeps.foldl ?_ fun _ _ _ => ?_
    | split
    | dsimp only

theorem Keeps.startRetrain {s x : State} {p : Nat} {full : Bool}
    (h : Keeps s x) : Keeps s (Machine.State.startRetrain x p full) := by
  unfold Machine.State.startRetrain
  repeat' first
    | with_reducible assumption
    | with_reducible refine Keeps.sendLink ?_
    | with_reducible refine Keeps.chooseParent ?_
    | with_reducible refine Keeps.lookAgain ?_
    | with_reducible refine Keeps.modPort ?_
    | with_reducible refine Keeps.foldl ?_ fun _ _ _ => ?_
    | split
    | dsimp only

theorem Keeps.departDie {s x : State} {d : Nat} {why : Nat} {st : PortSt}
    (h : Keeps s x) : Keeps s (Machine.State.departDie x d why st) := by
  unfold Machine.State.departDie
  repeat' first
    | with_reducible assumption
    | with_reducible refine Keeps.sendLink ?_
    | with_reducible refine Keeps.chooseParent ?_
    | with_reducible refine Keeps.leaveUp ?_
    | with_reducible refine Keeps.modPort ?_
    | with_reducible refine Keeps.forAll ?_ fun _ _ _ => ?_
    | with_reducible refine Keeps.ite ?_ ?_
    | split
    | dsimp only

theorem Keeps.modOp {s x : State} {c : Nat} {seq : Nat} {f : ColOp → ColOp}
    (h : Keeps s x) : Keeps s (Machine.State.modOp x c seq f) := by
  unfold Machine.State.modOp
  repeat' first
    | with_reducible assumption
    | with_reducible refine Keeps.modChan ?_
    | with_reducible refine Keeps.ite ?_ ?_
    | split
    | dsimp only

theorem Keeps.openOp {s x : State} {c : Nat} {seq : Nat}
    (h : Keeps s x) : Keeps s (Machine.State.openOp x c seq) := by
  unfold Machine.State.openOp
  repeat' first
    | with_reducible assumption
    | with_reducible refine Keeps.modChan ?_
    | split
    | dsimp only

theorem Keeps.colSend {s x : State} {c : Nat} {k : List Line}
    (h : Keeps s x) : Keeps s (Machine.State.colSend x c k) := by
  unfold Machine.State.colSend
  repeat' first
    | with_reducible assumption
    | with_reducible refine Keeps.sendOn ?_
    | split
    | dsimp only

theorem Keeps.writeRecord {s x : State} {c : Nat} {o : ColOp} {aborted : Bool}
    (h : Keeps s x) : Keeps s (Machine.State.writeRecord x c o aborted) := by
  unfold Machine.State.writeRecord
  repeat' first
    | with_reducible assumption
    | with_reducible refine Keeps.raiseEdge ?_
    | with_reducible refine Keeps.writeMem ?_
    | with_reducible refine Keeps.modChan ?_
    | with_reducible refine Keeps.modMgt ?_ (by first | rfl | (split <;> rfl)) (by first | rfl | (split <;> rfl))
    | with_reducible refine Keeps.foldl ?_ fun _ _ _ => ?_
    | with_reducible refine Keeps.ite ?_ ?_
    | exact Keeps.upd (by with_reducible assumption)
    | split
    | dsimp only
    | with_reducible refine Keeps.upd ?_

theorem Keeps.putChunk {s x : State} {c : Nat} {seq : Nat} {d : ColDesc} {key : Nat} {bs : List Byte}
    (h : Keeps s x) : Keeps s (Machine.State.putChunk x c seq d key bs) := by
  unfold Machine.State.putChunk
  repeat' first
    | with_reducible assumption
    | with_reducible refine Keeps.writeMem ?_
    | with_reducible refine Keeps.modOp ?_
    | with_reducible refine Keeps.ite ?_ ?_
    | split
    | dsimp only

theorem Keeps.settle {s x : State} {c : Nat} {seq : Nat} {key : Nat}
    (h : Keeps s x) : Keeps s (Machine.State.settle c seq x key) := by
  unfold Machine.State.settle
  repeat' first
    | with_reducible assumption
    | with_reducible refine Keeps.modOp ?_
    | with_reducible refine Keeps.putChunk ?_
    | with_reducible refine Keeps.ite ?_ ?_
    | split
    | dsimp only

theorem Keeps.advance {s x : State} {c : Nat} {a0 : Nat}
    (h : Keeps s x) : Keeps s (Machine.State.advance x c a0) := by
  induction a0 generalizing x c with
  | zero => simpa [State.advance] using h
  | succ n ih =>
    unfold Machine.State.advance
    repeat' first
      | with_reducible assumption
      | with_reducible refine ih ?_
      | with_reducible refine Keeps.writeRecord ?_
      | with_reducible refine Keeps.settle ?_
      | with_reducible refine Keeps.foldl ?_ fun _ _ _ => ?_
      | with_reducible refine Keeps.ite ?_ ?_
      | split
      | dsimp only

theorem Keeps.advanceAll {s x : State} 
    (h : Keeps s x) : Keeps s (Machine.State.advanceAll x) := by
  unfold Machine.State.advanceAll
  repeat' first
    | with_reducible assumption
    | with_reducible refine Keeps.advance ?_
    | with_reducible refine Keeps.forAll ?_ fun _ _ _ => ?_
    | split
    | dsimp only

theorem Keeps.lateNoticed {s x : State} {c : Nat} {seq : Nat}
    (h : Keeps s x) : Keeps s (Machine.State.lateNoticed x c seq) := by
  unfold Machine.State.lateNoticed
  repeat' first
    | with_reducible assumption
    | with_reducible refine Keeps.modOp ?_
    | with_reducible refine Keeps.modChan ?_
    | split
    | dsimp only

theorem Keeps.contribute {s x : State} {c : Nat} {seq : Nat} {h_ : Line} {data : List Line} {came : Dword} {now : Dword}
    (h : Keeps s x) : Keeps s (Machine.State.contribute x c seq h_ data came now) := by
  unfold Machine.State.contribute
  repeat' first
    | with_reducible assumption
    | with_reducible refine Keeps.modOp ?_
    | with_reducible refine Keeps.colSend ?_
    | with_reducible refine Keeps.lateNoticed ?_
    | with_reducible refine Keeps.modChan ?_
    | with_reducible refine Keeps.ite ?_ ?_
    | split
    | dsimp only

theorem Keeps.takeResult {s x : State} {c : Nat} {seq : Nat} {h_ : Line} {data : List Line} {ranks : List Nat}
    (h : Keeps s x) : Keeps s (Machine.State.takeResult x c seq h_ data ranks) := by
  unfold Machine.State.takeResult
  repeat' first
    | with_reducible assumption
    | with_reducible refine Keeps.modOp ?_
    | split
    | dsimp only

theorem Keeps.sendContrib {s x : State} {c : Nat} {seq : Nat} {d : ColDesc} {k : Nat}
    (h : Keeps s x) : Keeps s (Machine.State.sendContrib c seq d x k) := by
  unfold Machine.State.sendContrib
  repeat' first
    | with_reducible assumption
    | with_reducible refine Keeps.modOp ?_
    | with_reducible refine Keeps.colSend ?_
    | with_reducible refine Keeps.contribute ?_
    | with_reducible refine Keeps.ite ?_ ?_
    | split
    | dsimp only

theorem Keeps.sendGather {s x : State} {c : Nat} {seq : Nat} {d : ColDesc} {k : Nat}
    (h : Keeps s x) : Keeps s (Machine.State.sendGather c seq d x k) := by
  unfold Machine.State.sendGather
  repeat' first
    | with_reducible assumption
    | with_reducible refine Keeps.modOp ?_
    | with_reducible refine Keeps.colSend ?_
    | with_reducible refine Keeps.takeResult ?_
    | with_reducible refine Keeps.foldl ?_ fun _ _ _ => ?_
    | with_reducible refine Keeps.ite ?_ ?_
    | split
    | dsimp only

theorem Keeps.colRow {s t : State} {op : Nat} {port : Nat} {f : Nat → Dword → List Line → State → State}
    (hf : ∀ v0 v1 v2 u, Keeps s u → Keeps s (f v0 v1 v2 u))
    (e : Machine.colRow op port s f = .next t) : Keeps s t := by
  unfold Machine.colRow at e
  refine Keeps.onUnit ?_ e
  have h := Keeps.refl s
  repeat' first
    | with_reducible assumption
    | with_reducible refine Keeps.stale ?_
    | with_reducible refine Keeps.freeCredit ?_
    | with_reducible refine Keeps.takeRx ?_
    | with_reducible refine Keeps.modOp ?_
    | with_reducible refine Keeps.openOp ?_
    | with_reducible refine Keeps.modIod ?_
    | with_reducible refine Keeps.modChan ?_
    | with_reducible apply hf
    | with_reducible refine Keeps.ite ?_ ?_
    | split
    | dsimp only
    | (rename_i e _; exact Keeps.takeRx (by with_reducible assumption) e)
    | exact Keeps.takeRx (by with_reducible assumption) (by assumption)

theorem Keeps.colDrop {s x : State} {port : Nat}
    (h : Keeps s x) : Keeps s (Machine.State.colDrop x port) := by
  unfold Machine.State.colDrop
  repeat' first
    | with_reducible assumption
    | with_reducible refine Keeps.stale ?_
    | with_reducible refine Keeps.modIod ?_
    | split
    | dsimp only

theorem Keeps.colSeen {s x : State} {c : Nat} {kind : Nat} {port : Nat} {h_ : Line} {f : State → State}
    (h : Keeps s x) (hf : ∀ u, Keeps s u → Keeps s (f u)) : Keeps s (Machine.State.colSeen x c kind port h_ f) := by
  unfold Machine.State.colSeen
  repeat' first
    | with_reducible assumption
    | with_reducible refine Keeps.modIod ?_
    | with_reducible refine Keeps.modChan ?_
    | with_reducible refine hf _ ?_
    | with_reducible refine Keeps.ite ?_ ?_
    | split
    | dsimp only

theorem Keeps.sendResult {s x : State} {c : Nat} {seq : Nat} {k : Nat} {d : ColDesc} {ranks : List Nat} {last : Dword} {data : List Line}
    (h : Keeps s x) : Keeps s (Machine.State.sendResult x c seq k d ranks last data) := by
  unfold Machine.State.sendResult
  repeat' first
    | with_reducible assumption
    | with_reducible refine Keeps.modOp ?_
    | with_reducible refine Keeps.colSend ?_
    | with_reducible refine Keeps.takeResult ?_
    | with_reducible refine Keeps.foldl ?_ fun _ _ _ => ?_
    | with_reducible refine Keeps.ite ?_ ?_
    | split
    | dsimp only

theorem Keeps.abortChan {s x : State} {c : Nat}
    (h : Keeps s x) : Keeps s (Machine.State.abortChan c x) := by
  unfold Machine.State.abortChan
  repeat' first
    | with_reducible assumption
    | with_reducible refine Keeps.writeRecord ?_
    | with_reducible refine Keeps.modChan ?_
    | with_reducible refine Keeps.foldl ?_ fun _ _ _ => ?_
    | split
    | dsimp only

theorem Keeps.abortDie {s x : State} {d : Nat}
    (h : Keeps s x) : Keeps s (Machine.State.abortDie x d) := by
  unfold Machine.State.abortDie
  repeat' first
    | with_reducible assumption
    | with_reducible refine Keeps.abortChan ?_
    | with_reducible refine Keeps.forAll ?_ fun _ _ _ => ?_
    | split
    | dsimp only

theorem Keeps.dropRouters {s x : State} {r : Nat}
    (h : Keeps s x) : Keeps s (Machine.State.dropRouters x r) := by
  unfold Machine.State.dropRouters
  repeat' first
    | with_reducible assumption
    | with_reducible refine Keeps.modRouter ?_
    | with_reducible refine Keeps.forAll ?_ fun _ _ _ => ?_
    | split
    | dsimp only

theorem Keeps.dropPorts {s x : State} {rs : List Nat}
    (h : Keeps s x) : Keeps s (Machine.State.dropPorts x rs) := by
  unfold Machine.State.dropPorts
  repeat' first
    | with_reducible assumption
    | with_reducible refine Keeps.modEdge ?_
    | with_reducible refine Keeps.foldl ?_ fun _ _ _ => ?_
    | split
    | dsimp only

theorem Keeps.dropShares {s x : State} {p : Nat}
    (h : Keeps s x) : Keeps s (Machine.State.dropShares x p) := by
  unfold Machine.State.dropShares
  repeat' first
    | with_reducible assumption
    | with_reducible refine Keeps.markPending ?_
    | with_reducible refine Keeps.modIod ?_
    | with_reducible refine Keeps.modEdge ?_
    | with_reducible refine Keeps.forAll ?_ fun _ _ _ => ?_
    | with_reducible refine Keeps.foldl ?_ fun _ _ _ => ?_
    | with_reducible refine Keeps.ite ?_ ?_
    | split
    | dsimp only

theorem Keeps.dropChans {s x : State} {p : Nat} {aborted : Bool}
    (h : Keeps s x) : Keeps s (Machine.State.dropChans x p aborted) := by
  unfold Machine.State.dropChans
  repeat' first
    | with_reducible assumption
    | with_reducible refine Keeps.abortChan ?_
    | with_reducible refine Keeps.modChan ?_
    | with_reducible refine Keeps.forAll ?_ fun _ _ _ => ?_
    | with_reducible refine Keeps.ite ?_ ?_
    | split
    | dsimp only

theorem Keeps.scrubTile {s x : State} {r : Nat} {dump : Bool} {t_ : Nat}
    (h : Keeps s x) : Keeps s (Machine.State.scrubTile x r dump t_) := by
  unfold Machine.State.scrubTile
  repeat' first
    | with_reducible assumption
    | with_reducible refine Keeps.modTile ?_
    | with_reducible refine Keeps.ite ?_ ?_
    | split
    | dsimp only

theorem Keeps.closeRegion {s x : State} {p : Nat} {r : Nat} {dump : Bool}
    (h : Keeps s x) : Keeps s (Machine.State.closeRegion x p r dump) := by
  unfold Machine.State.closeRegion
  repeat' first
    | with_reducible assumption
    | with_reducible refine Keeps.abandonTests ?_
    | with_reducible refine Keeps.dropRouters ?_
    | with_reducible refine Keeps.dropPorts ?_
    | with_reducible refine Keeps.scrubTile ?_
    | with_reducible refine Keeps.modCtl ?_
    | with_reducible refine Keeps.modPwr ?_
    | with_reducible refine Keeps.modTest ?_
    | with_reducible refine Keeps.forAll ?_ fun _ _ _ => ?_
    | with_reducible refine Keeps.ite ?_ ?_
    | split
    | dsimp only

theorem Keeps.closeRun {s x : State} {p : Nat} {reason : Nat}
    (h : Keeps s x) : Keeps s (Machine.State.closeRun x p reason) := by
  unfold Machine.State.closeRun
  repeat' first
    | with_reducible assumption
    | with_reducible refine Keeps.dropRouters ?_
    | with_reducible refine Keeps.dropPorts ?_
    | with_reducible refine Keeps.dropShares ?_
    | with_reducible refine Keeps.dropChans ?_
    | with_reducible refine Keeps.modPart ?_
    | with_reducible refine Keeps.forAll ?_ fun _ _ _ => ?_
    | split
    | dsimp only

theorem Keeps.stopDump {s x : State} {p : Nat} {status : Nat}
    (h : Keeps s x) : Keeps s (Machine.State.stopDump x p status) := by
  unfold Machine.State.stopDump
  repeat' first
    | with_reducible assumption
    | with_reducible refine Keeps.modTile ?_
    | with_reducible refine Keeps.modPart ?_
    | with_reducible refine Keeps.forAll ?_ fun _ _ _ => ?_
    | with_reducible refine Keeps.ite ?_ ?_
    | split
    | dsimp only

theorem Keeps.unclaim {s x : State} {p : Nat}
    (h : Keeps s x) : Keeps s (Machine.State.unclaim x p) := by
  unfold Machine.State.unclaim
  repeat' first
    | with_reducible assumption
    | with_reducible refine Keeps.freePage ?_
    | with_reducible refine Keeps.modPart ?_
    | with_reducible refine Keeps.forAll ?_ fun _ _ _ => ?_
    | split
    | dsimp only

theorem Keeps.destroyed {s x : State} {p : Nat}
    (h : Keeps s x) : Keeps s (Machine.State.destroyed x p) := by
  unfold Machine.State.destroyed
  repeat' first
    | with_reducible assumption
    | with_reducible refine Keeps.finish ?_
    | with_reducible refine Keeps.modCtl ?_
    | with_reducible refine Keeps.setPart ?_
    | with_reducible refine Keeps.modFn ?_
    | with_reducible refine Keeps.forAll ?_ fun _ _ _ => ?_
    | with_reducible refine Keeps.ite ?_ ?_
    | split
    | dsimp only

theorem Keeps.freeAll {s x : State} {p : Nat}
    (h : Keeps s x) : Keeps s (Machine.State.freeAll x p) := by
  unfold Machine.State.freeAll
  repeat' first
    | with_reducible assumption
    | with_reducible refine Keeps.freePagesOf ?_
    | with_reducible refine Keeps.modPart ?_
    | with_reducible refine Keeps.ite ?_ ?_
    | exact Keeps.upd (by with_reducible assumption)
    | split
    | dsimp only

theorem Keeps.resetOver {s x : State} {p : Nat}
    (h : Keeps s x) : Keeps s (Machine.State.resetOver x p) := by
  unfold Machine.State.resetOver
  repeat' first
    | with_reducible assumption
    | with_reducible refine Keeps.finish ?_
    | with_reducible refine Keeps.destroyed ?_
    | with_reducible refine Keeps.freeAll ?_
    | with_reducible refine Keeps.modPart ?_
    | with_reducible refine Keeps.ite ?_ ?_
    | split
    | dsimp only

theorem Keeps.emptied {s x : State} {p : Nat}
    (h : Keeps s x) : Keeps s (Machine.State.emptied x p) := by
  unfold Machine.State.emptied
  repeat' first
    | with_reducible assumption
    | with_reducible refine Keeps.event ?_
    | with_reducible refine Keeps.finish ?_
    | with_reducible refine Keeps.resetOver ?_
    | with_reducible refine Keeps.modTile ?_
    | with_reducible refine Keeps.modPart ?_
    | with_reducible refine Keeps.forAll ?_ fun _ _ _ => ?_
    | with_reducible refine Keeps.ite ?_ ?_
    | split
    | dsimp only

theorem Keeps.closeStopped {s x : State} {p : Nat} {dump : Bool}
    (h : Keeps s x) : Keeps s (Machine.State.closeStopped x p dump) := by
  unfold Machine.State.closeStopped
  repeat' first
    | with_reducible assumption
    | with_reducible refine Keeps.closeRegion ?_
    | with_reducible refine Keeps.forAll ?_ fun _ _ _ => ?_
    | with_reducible refine Keeps.ite ?_ ?_
    | split
    | dsimp only

theorem Keeps.openRegion {s x : State} {p : Nat} {r : Nat} {i : Image}
    (h : Keeps s x) : Keeps s (Machine.State.openRegion x p r i) := by
  unfold Machine.State.openRegion
  repeat' first
    | with_reducible assumption
    | with_reducible refine Keeps.modTile ?_
    | with_reducible refine Keeps.modRouter ?_
    | with_reducible refine Keeps.modCtl ?_
    | with_reducible refine Keeps.modPwr ?_
    | with_reducible refine Keeps.modEdge ?_
    | with_reducible refine Keeps.forAll ?_ fun _ _ _ => ?_
    | with_reducible refine Keeps.foldl ?_ fun _ _ _ => ?_
    | with_reducible refine Keeps.ite ?_ ?_
    | split
    | dsimp only

theorem Keeps.setDie {s x : State} {d : Nat} {f : Iod → Iod}
    (h : Keeps s x) : Keeps s (Machine.State.setDie x d f) := by
  unfold Machine.State.setDie
  repeat' first
    | with_reducible assumption
    | with_reducible refine Keeps.settle ?_
    | with_reducible refine Keeps.abortDie ?_
    | with_reducible refine Keeps.modIod ?_
    | with_reducible refine Keeps.ite ?_ ?_
    | split
    | dsimp only

theorem Keeps.failSite {s x : State} {x_ : Nat}
    (h : Keeps s x) : Keeps s (Machine.State.failSite x x_) := by
  unfold Machine.State.failSite
  repeat' first
    | with_reducible assumption
    | with_reducible refine Keeps.modSite ?_
    | with_reducible refine Keeps.ite ?_ ?_
    | split
    | dsimp only

theorem Keeps.wireState {s x : State} {w : WireId} {st : Nat}
    (h : Keeps s x) : Keeps s (Machine.State.wireState x w st) := by
  unfold Machine.State.wireState
  repeat' first
    | with_reducible assumption
    | with_reducible refine Keeps.linkTo ?_
    | with_reducible refine Keeps.setDie ?_
    | with_reducible refine Keeps.modUnits ?_
    | with_reducible refine Keeps.ite ?_ ?_
    | split
    | dsimp only

theorem Keeps.wireToken {s x : State} {w : WireId} {cause : Nat}
    (h : Keeps s x) : Keeps s (Machine.State.wireToken x w cause) := by
  unfold Machine.State.wireToken
  repeat' first
    | with_reducible assumption
    | with_reducible refine Keeps.raise ?_
    | with_reducible refine Keeps.raiseEdge ?_
    | split
    | dsimp only

theorem Keeps.wireFound {s x : State} {w : WireId} {v : WireId} {finding : Nat} {cause : Nat}
    (h : Keeps s x) : Keeps s (Machine.State.wireFound x w v finding cause) := by
  unfold Machine.State.wireFound
  repeat' first
    | with_reducible assumption
    | with_reducible refine Keeps.addLog ?_
    | with_reducible refine Keeps.cper ?_
    | with_reducible refine Keeps.wireToken ?_
    | with_reducible refine Keeps.ite ?_ ?_
    | split
    | dsimp only

theorem Keeps.alternateFor {s x : State} {p : Nat} {ls : List (Nat × Dir)}
    (h : Keeps s x) : Keeps s (Machine.State.alternateFor x p ls) := by
  unfold Machine.State.alternateFor
  repeat' first
    | with_reducible assumption
    | with_reducible refine Keeps.announcePSwap ?_
    | with_reducible refine Keeps.modRouter ?_
    | with_reducible refine Keeps.modPart ?_
    | with_reducible refine Keeps.foldl ?_ fun _ _ _ => ?_
    | with_reducible refine Keeps.ite ?_ ?_
    | split
    | dsimp only

theorem Keeps.alternate {s x : State} {w : WireId}
    (h : Keeps s x) : Keeps s (Machine.State.alternate x w) := by
  unfold Machine.State.alternate
  repeat' first
    | with_reducible assumption
    | with_reducible refine Keeps.alternateFor ?_
    | with_reducible refine Keeps.forAll ?_ fun _ _ _ => ?_
    | split
    | dsimp only

theorem Keeps.spoilInput {s x : State} {u_ : Nat} {d : Dir}
    (h : Keeps s x) : Keeps s (Machine.State.spoilInput x u_ d) := by
  unfold Machine.State.spoilInput
  repeat' first
    | with_reducible assumption
    | with_reducible refine Keeps.lateWord ?_
    | with_reducible refine Keeps.modRouter ?_
    | with_reducible refine Keeps.ite ?_ ?_
    | split
    | dsimp only

theorem Keeps.spoilEdge {s x : State} {e : EdgeId} {p : Nat}
    (h : Keeps s x) : Keeps s (Machine.State.spoilEdge x e p) := by
  unfold Machine.State.spoilEdge
  repeat' first
    | with_reducible assumption
    | with_reducible refine Keeps.lateEdge ?_
    | with_reducible refine Keeps.modEdge ?_
    | with_reducible refine Keeps.ite ?_ ?_
    | split
    | dsimp only

theorem Keeps.spoil {s x : State} {w : WireId}
    (h : Keeps s x) : Keeps s (Machine.State.spoil x w) := by
  unfold Machine.State.spoil
  repeat' first
    | with_reducible assumption
    | with_reducible refine Keeps.spoilInput ?_
    | with_reducible refine Keeps.spoilEdge ?_
    | with_reducible refine Keeps.forAll ?_ fun _ _ _ => ?_
    | with_reducible refine Keeps.ite ?_ ?_
    | split
    | dsimp only

theorem Keeps.henTiles {s x : State} {r : Nat}
    (h : Keeps s x) : Keeps s (Machine.State.henTiles x r) := by
  unfold Machine.State.henTiles
  repeat' first
    | with_reducible assumption
    | with_reducible refine Keeps.modUnits ?_
    | with_reducible refine Keeps.forAll ?_ fun _ _ _ => ?_
    | with_reducible refine Keeps.ite ?_ ?_
    | split
    | dsimp only

theorem Keeps.cutOff {s x : State} 
    (h : Keeps s x) : Keeps s (Machine.State.cutOff x) := by
  unfold Machine.State.cutOff
  repeat' first
    | with_reducible assumption
    | with_reducible refine Keeps.setDie ?_
    | with_reducible refine Keeps.failSite ?_
    | with_reducible refine Keeps.forAll ?_ fun _ _ _ => ?_
    | with_reducible refine Keeps.ite ?_ ?_
    | split
    | dsimp only

theorem Keeps.halfOffNow {s x : State} {west : Bool}
    (h : Keeps s x) : Keeps s (Machine.State.halfOffNow x west) := by
  unfold Machine.State.halfOffNow
  repeat' first
    | with_reducible assumption
    | with_reducible refine Keeps.railsOff ?_
    | with_reducible refine Keeps.planeOff ?_
    | with_reducible refine Keeps.modPwr ?_
    | with_reducible refine Keeps.modMgt ?_ (by first | rfl | (split <;> rfl)) (by first | rfl | (split <;> rfl))
    | with_reducible refine Keeps.forAll ?_ fun _ _ _ => ?_
    | with_reducible refine Keeps.ite ?_ ?_
    | split
    | dsimp only

theorem Keeps.cleared {s x : State} {m : Mgt} (h : Keeps s x) (hl : m.fdl = x.mgt.fdl) (hf : m.fuses = x.mgt.fuses) :
    Keeps s (x.cleared m) :=
  ⟨by rw [State.cleared, hl]; exact h.1, by rw [State.cleared, hf]; exact h.2, h.3,
    fun _ => ⟨List.Pairwise.nil, fun _ hp => nomatch hp⟩, h.5⟩


theorem Keeps.clearedWarm {s x : State} {m : Mgt} (h : Keeps s x) (hl : m.fdl = x.mgt.fdl)
    (hf : m.fuses = x.mgt.fuses) : Keeps s (x.clearedWarm m) :=
  have k := Keeps.cleared h hl hf
  ⟨k.1, k.2, k.3, h.4, k.5⟩


theorem Keeps.latchEol {s x : State} {i : Nat} {eol : Bool}
    (h : Keeps s x) : Keeps s (Machine.State.latchEol x i eol) := by
  unfold Machine.State.latchEol
  repeat' first
    | with_reducible assumption
    | with_reducible refine Keeps.event ?_
    | with_reducible refine Keeps.cper ?_
    | with_reducible refine Keeps.modMgt ?_ (by first | rfl | (split <;> rfl)) (by first | rfl | (split <;> rfl))
    | with_reducible refine Keeps.ite ?_ ?_
    | split
    | dsimp only

theorem Keeps.endOfLife {s x : State} 
    (h : Keeps s x) : Keeps s (Machine.State.endOfLife x) := by
  unfold Machine.State.endOfLife
  repeat' first
    | with_reducible assumption
    | with_reducible refine Keeps.latchEol ?_
    | with_reducible refine Keeps.forAll ?_ fun _ _ _ => ?_
    | with_reducible refine Keeps.ite ?_ ?_
    | split
    | dsimp only

theorem Keeps.relock {s x : State} 
    (h : Keeps s x) : Keeps s (Machine.State.relock x) := by
  unfold Machine.State.relock
  repeat' first
    | with_reducible assumption
    | with_reducible refine Keeps.modUnits ?_
    | split
    | dsimp only

theorem Keeps.publish {s x : State} 
    (h : Keeps s x) : Keeps s (Machine.State.publish x) := by
  unfold Machine.State.publish
  repeat' first
    | with_reducible assumption
    | with_reducible refine Keeps.event ?_
    | with_reducible refine Keeps.endOfLife ?_
    | with_reducible refine Keeps.modMgt ?_ (by first | rfl | (split <;> rfl)) (by first | rfl | (split <;> rfl))
    | with_reducible refine Keeps.foldl ?_ fun _ _ _ => ?_
    | split
    | dsimp only

theorem Keeps.unpower {s x : State} 
    (h : Keeps s x) : Keeps s (Machine.State.unpower x) := by
  unfold Machine.State.unpower
  repeat' first
    | with_reducible assumption
    | with_reducible refine Keeps.railsOff ?_
    | with_reducible refine Keeps.planeOff ?_
    | with_reducible refine Keeps.modMgt ?_ (by first | rfl | (split <;> rfl)) (by first | rfl | (split <;> rfl))
    | with_reducible refine Keeps.forAll ?_ fun _ _ _ => ?_
    | with_reducible refine Keeps.ite ?_ ?_
    | split
    | dsimp only

theorem Keeps.feedUp {s x : State} {r : Nat}
    (h : Keeps s x) : Keeps s (Machine.State.feedUp x r) := by
  unfold Machine.State.feedUp
  repeat' first
    | with_reducible assumption
    | with_reducible refine Keeps.requestRamp ?_
    | with_reducible refine Keeps.feedCheck ?_
    | with_reducible refine Keeps.modPwr ?_
    | with_reducible refine Keeps.ite ?_ ?_
    | split
    | dsimp only

theorem Keeps.seamState {s x : State} {g : SeamGroup} {st : Nat}
    (h : Keeps s x) : Keeps s (Machine.State.seamState x g st) := by
  unfold Machine.State.seamState
  repeat' first
    | with_reducible assumption
    | with_reducible refine Keeps.linkTo ?_
    | split
    | dsimp only

theorem Keeps.oldSeams {s x : State} 
    (h : Keeps s x) : Keeps s (Machine.State.oldSeams x) := by
  unfold Machine.State.oldSeams
  repeat' first
    | with_reducible assumption
    | with_reducible refine Keeps.seamState ?_
    | with_reducible refine Keeps.modUnits ?_
    | with_reducible refine Keeps.foldl ?_ fun _ _ _ => ?_
    | with_reducible refine Keeps.ite ?_ ?_
    | split
    | dsimp only

theorem Keeps.seamTest {s x : State} {g : SeamGroup} {bad : Nat} {spareBad : Bool}
    (h : Keeps s x) : Keeps s (Machine.State.seamTest x g bad spareBad) := by
  unfold Machine.State.seamTest
  repeat' first
    | with_reducible assumption
    | with_reducible refine Keeps.addLog ?_
    | with_reducible refine Keeps.seamState ?_
    | with_reducible refine Keeps.modUnits ?_
    | with_reducible refine Keeps.ite ?_ ?_
    | split
    | dsimp only

theorem Keeps.repairWire {s x : State} {w : WireId}
    (h : Keeps s x) : Keeps s (Machine.State.repairWire x w) := by
  unfold Machine.State.repairWire
  repeat' first
    | with_reducible assumption
    | with_reducible refine Keeps.addLog ?_
    | with_reducible refine Keeps.wireState ?_
    | with_reducible refine Keeps.modUnits ?_
    | with_reducible refine Keeps.ite ?_ ?_
    | split
    | dsimp only

theorem Keeps.testWires {s x : State} {kind : Nat} {found : List WireId}
    (h : Keeps s x) : Keeps s (Machine.State.testWires x kind found) := by
  unfold Machine.State.testWires
  repeat' first
    | with_reducible assumption
    | with_reducible refine Keeps.addLog ?_
    | with_reducible refine Keeps.wireState ?_
    | with_reducible refine Keeps.repairWire ?_
    | with_reducible refine Keeps.modUnits ?_
    | with_reducible refine Keeps.foldl ?_ fun _ _ _ => ?_
    | with_reducible refine Keeps.ite ?_ ?_
    | split
    | dsimp only

theorem Keeps.mergeTile {s x : State} {b : BistFindings} {t_ : Nat}
    (h : Keeps s x) : Keeps s (Machine.State.mergeTile x b t_) := by
  unfold Machine.State.mergeTile
  repeat' first
    | with_reducible assumption
    | with_reducible refine Keeps.addLog ?_
    | with_reducible refine Keeps.modUnits ?_
    | with_reducible refine Keeps.ite ?_ ?_
    | split
    | dsimp only

theorem Keeps.mergeUnits {s x : State} {kind : Nat} {fused : List Nat} {found : List Nat} {eff : Nat → State → State}
    (h : Keeps s x) (heff : ∀ v0 u, Keeps s u → Keeps s (eff v0 u)) : Keeps s (Machine.State.mergeUnits x kind fused found eff) := by
  unfold Machine.State.mergeUnits
  repeat' first
    | with_reducible assumption
    | with_reducible refine Keeps.addLog ?_
    | with_reducible apply heff
    | with_reducible refine Keeps.forAll ?_ fun _ _ _ => ?_
    | split
    | dsimp only

theorem Keeps.badHen {s x : State} {r : Nat}
    (h : Keeps s x) : Keeps s (Machine.State.badHen r x) := by
  unfold Machine.State.badHen
  repeat' first
    | with_reducible assumption
    | with_reducible refine Keeps.henTiles ?_
    | with_reducible refine Keeps.modRegion ?_
    | with_reducible refine Keeps.modUnits ?_
    | split
    | dsimp only

theorem Keeps.badPhase {s x : State} {i : Nat}
    (h : Keeps s x) : Keeps s (Machine.State.badPhase i x) := by
  unfold Machine.State.badPhase
  repeat' first
    | with_reducible assumption
    | with_reducible refine Keeps.modPwr ?_
    | with_reducible refine Keeps.ite ?_ ?_
    | split
    | dsimp only

theorem Keeps.badStaging {s x : State} {i : Nat}
    (h : Keeps s x) : Keeps s (Machine.State.badStaging i x) := by
  unfold Machine.State.badStaging
  repeat' first
    | with_reducible assumption
    | with_reducible refine Keeps.setDie ?_
    | with_reducible refine Keeps.failSite ?_
    | with_reducible refine Keeps.modEdge ?_
    | with_reducible refine Keeps.ite ?_ ?_
    | split
    | dsimp only

theorem Keeps.badChannel {s x : State} {i : Nat}
    (h : Keeps s x) : Keeps s (Machine.State.badChannel i x) := by
  unfold Machine.State.badChannel
  repeat' first
    | with_reducible assumption
    | with_reducible refine Keeps.modSite ?_
    | with_reducible refine Keeps.ite ?_ ?_
    | split
    | dsimp only

theorem Keeps.growTree {s x : State} {ins : List (Nat × Nat × Nat)}
    (h : Keeps s x) : Keeps s (Machine.State.growTree x ins) := by
  unfold Machine.State.growTree
  repeat' first
    | with_reducible assumption
    | with_reducible refine Keeps.modClk ?_
    | with_reducible refine Keeps.modMgt ?_ (by first | rfl | (split <;> rfl)) (by first | rfl | (split <;> rfl))
    | with_reducible refine Keeps.foldl ?_ fun _ _ _ => ?_
    | split
    | dsimp only

theorem Keeps.saveLinks {s x : State} {fell : List (Nat × Nat)}
    (h : Keeps s x) : Keeps s (Machine.State.saveLinks x fell) := by
  unfold Machine.State.saveLinks
  repeat' first
    | with_reducible assumption
    | with_reducible refine Keeps.modMgt ?_ (by first | rfl | (split <;> rfl)) (by first | rfl | (split <;> rfl))
    | with_reducible refine Keeps.foldl ?_ fun _ _ _ => ?_
    | split
    | dsimp only
    | exact Keeps.ofMgt (by with_reducible assumption) (Mgt.save_keeps _ _ _)

theorem Keeps.writeSlot {s x : State} {t_ : Nat} {part : Bool} {fm : Bool} {v : Dword}
    (h : Keeps s x) : Keeps s (Machine.State.writeSlot x t_ part fm v) := by
  unfold Machine.State.writeSlot
  repeat' first
    | with_reducible assumption
    | with_reducible refine Keeps.setRouter ?_
    | with_reducible refine Keeps.foldl ?_ fun _ _ _ => ?_
    | with_reducible refine Keeps.ite ?_ ?_
    | split
    | dsimp only

theorem Keeps.writePeriods {s x : State} {t_ : Nat} {v : Dword}
    (h : Keeps s x) : Keeps s (Machine.State.writePeriods x t_ v) := by
  unfold Machine.State.writePeriods
  repeat' first
    | with_reducible assumption
    | with_reducible refine Keeps.setRouter ?_
    | with_reducible refine Keeps.ite ?_ ?_
    | split
    | dsimp only

theorem Keeps.writeSlack {s x : State} {t_ : Nat} {v : Dword}
    (h : Keeps s x) : Keeps s (Machine.State.writeSlack x t_ v) := by
  unfold Machine.State.writeSlack
  repeat' first
    | with_reducible assumption
    | with_reducible refine Keeps.setRouter ?_
    | with_reducible refine Keeps.ite ?_ ?_
    | split
    | dsimp only

theorem Keeps.writeTOut {s x : State} {t_ : Nat} {v : BitVec 4}
    (h : Keeps s x) : Keeps s (Machine.State.writeTOut x t_ v) := by
  unfold Machine.State.writeTOut
  repeat' first
    | with_reducible assumption
    | with_reducible refine Keeps.setRouter ?_
    | with_reducible refine Keeps.ite ?_ ?_
    | split
    | dsimp only

theorem Keeps.writeEstData {s x : State} {e : EdgeId} {v : BitVec 32}
    (h : Keeps s x) : Keeps s (Machine.State.writeEstData x e v) := by
  unfold Machine.State.writeEstData
  repeat' first
    | with_reducible assumption
    | with_reducible refine Keeps.modEdge ?_
    | with_reducible refine Keeps.ite ?_ ?_
    | split
    | dsimp only

theorem Keeps.writeEstPort {s x : State} {e : EdgeId} {v : Dword}
    (h : Keeps s x) : Keeps s (Machine.State.writeEstPort x e v) := by
  unfold Machine.State.writeEstPort
  repeat' first
    | with_reducible assumption
    | with_reducible refine Keeps.modEdge ?_
    | with_reducible refine Keeps.ite ?_ ?_
    | split
    | dsimp only

theorem Keeps.fetchRing {s x : State} {f : Nat} {a0 : Nat}
    (h : Keeps s x) : Keeps s (Machine.State.fetchRing x f a0) := by
  induction a0 generalizing x f with
  | zero => simpa [State.fetchRing] using h
  | succ n ih =>
    unfold Machine.State.fetchRing
    repeat' first
      | with_reducible assumption
      | with_reducible refine ih ?_
      | with_reducible refine Keeps.ringOn ?_
      | with_reducible refine Keeps.modFn ?_
      | with_reducible refine Keeps.ite ?_ ?_
      | split
      | dsimp only

theorem Keeps.ringAgain {s x : State} {f : Nat}
    (h : Keeps s x) : Keeps s (Machine.State.ringAgain x f) := by
  unfold Machine.State.ringAgain
  repeat' first
    | with_reducible assumption
    | with_reducible refine Keeps.drainCq ?_
    | with_reducible refine Keeps.fetchRing ?_
    | split
    | dsimp only

theorem Keeps.writeTail {s x : State} {f : Nat} {v : Nat}
    (h : Keeps s x) : Keeps s (Machine.State.writeTail x f v) := by
  unfold Machine.State.writeTail
  repeat' first
    | with_reducible assumption
    | with_reducible refine Keeps.event ?_
    | with_reducible refine Keeps.fetchRing ?_
    | with_reducible refine Keeps.modFn ?_
    | with_reducible refine Keeps.ite ?_ ?_
    | split
    | dsimp only

theorem Keeps.writeHead {s x : State} {f : Nat} {v : Nat}
    (h : Keeps s x) : Keeps s (Machine.State.writeHead x f v) := by
  unfold Machine.State.writeHead
  repeat' first
    | with_reducible assumption
    | with_reducible refine Keeps.event ?_
    | with_reducible refine Keeps.ringAgain ?_
    | with_reducible refine Keeps.modFn ?_
    | with_reducible refine Keeps.ite ?_ ?_
    | split
    | dsimp only

theorem Keeps.writeRing {s x u : State} {f : Nat} {cq : Bool} {v : Dword} (h : Keeps s x)
    (e : x.writeRing f cq v = some u) : Keeps s u := by
  unfold State.writeRing at e
  dsimp only at e
  repeat' split at e
  all_goals cases e <;> exact Keeps.ringAgain h.modFn


theorem Keeps.writeMode {s x : State} {v : Dword}
    (h : Keeps s x) : Keeps s (Machine.State.writeMode x v) := by
  unfold Machine.State.writeMode
  repeat' first
    | with_reducible assumption
    | with_reducible refine Keeps.modMgt ?_ (by first | rfl | (split <;> rfl)) (by first | rfl | (split <;> rfl))
    | with_reducible refine Keeps.ite ?_ ?_
    | split
    | dsimp only

theorem Keeps.writeDevId {s x : State} {v : Dword}
    (h : Keeps s x) : Keeps s (Machine.State.writeDevId x v) := by
  unfold Machine.State.writeDevId
  repeat' first
    | with_reducible assumption
    | with_reducible refine Keeps.chooseParent ?_
    | with_reducible refine Keeps.modPort ?_
    | with_reducible refine Keeps.modMgt ?_ (by first | rfl | (split <;> rfl)) (by first | rfl | (split <;> rfl))
    | with_reducible refine Keeps.forAll ?_ fun _ _ _ => ?_
    | with_reducible refine Keeps.ite ?_ ?_
    | split
    | dsimp only

theorem Keeps.retirePort {s x : State} {p : Nat}
    (h : Keeps s x) : Keeps s (Machine.State.retirePort x p) := by
  unfold Machine.State.retirePort
  repeat' first
    | with_reducible assumption
    | with_reducible refine Keeps.sendLink ?_
    | with_reducible refine Keeps.chooseParent ?_
    | with_reducible refine Keeps.leaveUp ?_
    | with_reducible refine Keeps.modPort ?_
    | with_reducible refine Keeps.ite ?_ ?_
    | split
    | dsimp only

theorem Keeps.portCtl {s x : State} {d : Nat} {v : Dword}
    (h : Keeps s x) : Keeps s (Machine.State.portCtl x d v) := by
  unfold Machine.State.portCtl
  repeat' first
    | with_reducible assumption
    | with_reducible refine Keeps.startRetrain ?_
    | with_reducible refine Keeps.retirePort ?_
    | with_reducible refine Keeps.ite ?_ ?_
    | split
    | dsimp only

theorem Keeps.flushOx {s x : State} {x_ : Nat}
    (h : Keeps s x) : Keeps s (Machine.State.flushOx x x_) := by
  unfold Machine.State.flushOx
  repeat' first
    | with_reducible assumption
    | with_reducible refine Keeps.askAgain ?_
    | with_reducible refine Keeps.freed ?_
    | with_reducible refine Keeps.modSite ?_
    | with_reducible refine Keeps.foldl ?_ fun _ _ _ => ?_
    | split
    | dsimp only

theorem Keeps.flushFq {s x : State} {d : Nat} {p : Nat}
    (h : Keeps s x) : Keeps s (Machine.State.flushFq x d p) := by
  unfold Machine.State.flushFq
  repeat' first
    | with_reducible assumption
    | with_reducible refine Keeps.freed ?_
    | with_reducible refine Keeps.modIod ?_
    | with_reducible refine Keeps.ite ?_ ?_
    | split
    | dsimp only

theorem Keeps.writeMgt {s x : State} {off : Nat} {wm v one : Dword} (h : Keeps s x) :
    Keeps s (x.writeMgt off wm v one) := by
  unfold State.writeMgt
  split
  · exact Keeps.ite (h.ofMgt (Mgt.activate_keeps _ _)) h
  · exact Keeps.ite h (Keeps.writeMode h)
  · refine h.ofMgt ?_
    dsimp only
    split <;> split
    · exact ⟨(Mgt.writeCap_keeps _ _ _).1.trans (Mgt.writeCap_keeps _ _ _).1,
        (Mgt.writeCap_keeps _ _ _).2.trans (Mgt.writeCap_keeps _ _ _).2⟩
    · exact Mgt.writeCap_keeps _ _ _
    · exact Mgt.writeCap_keeps _ _ _
    · exact ⟨rfl, rfl⟩
  · exact h.modMgt rfl rfl
  · exact h.modMgt rfl rfl
  · refine h.ofMgt ?_
    dsimp only
    split
    · exact Mgt.doorbell_keeps { x.mgt with mboxRefused := x.mgt.mboxRefused && !BitVec.getLsbD one 2 }
    · exact ⟨rfl, rfl⟩
  · split
    · refine h.ofMgt ?_
      dsimp only
      split <;> exact ⟨rfl, rfl⟩
    · exact h


theorem Keeps.writePage {s x u : State} {f off : Nat} {wm v one : Dword} (h : Keeps s x)
    (e : x.writePage f off wm v one = some u) : Keeps s u := by
  unfold State.writePage at e
  split at e
  · split at e
    · injection e with e; exact e ▸ h
    · exact Keeps.writeRing h e
  · injection e with e; exact e ▸ Keeps.ite h (Keeps.writeTail h)
  · split at e
    · injection e with e; exact e ▸ h
    · exact Keeps.writeRing h e
  · injection e with e; exact e ▸ Keeps.ite h (Keeps.writeHead h)
  · injection e with e; exact e ▸ h.modFn
  · injection e with e; exact e ▸ h.modFn
  · injection e with e; exact e ▸ h.modPart
  · injection e with e; exact e ▸ h.modPart
  · injection e with e; exact e ▸ h


theorem Keeps.writeRgn {s x : State} {r : Nat} {off : Nat} {wm : Dword} {v : Dword} {one : Dword}
    (h : Keeps s x) : Keeps s (Machine.State.writeRgn x r off wm v one) := by
  unfold Machine.State.writeRgn
  repeat' first
    | with_reducible assumption
    | with_reducible refine Keeps.holdRequest ?_
    | with_reducible refine Keeps.resumeRequest ?_
    | with_reducible refine Keeps.grant ?_
    | with_reducible refine Keeps.modRegion ?_
    | with_reducible refine Keeps.modCtl ?_
    | with_reducible refine Keeps.modClk ?_
    | with_reducible refine Keeps.modPwr ?_
    | with_reducible refine Keeps.modTest ?_
    | with_reducible refine Keeps.ite ?_ ?_
    | split
    | dsimp only

theorem Keeps.writeEdg {s x : State} {x_ : Nat} {off : Nat} {wm : Dword} {v : Dword} {one : Dword}
    (h : Keeps s x) : Keeps s (Machine.State.writeEdg x x_ off wm v one) := by
  unfold Machine.State.writeEdg
  repeat' first
    | with_reducible assumption
    | with_reducible refine Keeps.writeEstData ?_
    | with_reducible refine Keeps.writeEstPort ?_
    | with_reducible refine Keeps.flushOx ?_
    | with_reducible refine Keeps.modSite ?_
    | with_reducible refine Keeps.modEdge ?_
    | with_reducible refine Keeps.ite ?_ ?_
    | split
    | dsimp only

theorem Keeps.writeDie {s x : State} {d : Nat} {off : Nat} {wm : Dword} {v : Dword} {one : Dword}
    (h : Keeps s x) : Keeps s (Machine.State.writeDie x d off wm v one) := by
  unfold Machine.State.writeDie
  repeat' first
    | with_reducible assumption
    | with_reducible refine Keeps.chooseParent ?_
    | with_reducible refine Keeps.writeEstData ?_
    | with_reducible refine Keeps.writeEstPort ?_
    | with_reducible refine Keeps.writeDevId ?_
    | with_reducible refine Keeps.portCtl ?_
    | with_reducible refine Keeps.flushFq ?_
    | with_reducible refine Keeps.modIod ?_
    | with_reducible refine Keeps.modEdge ?_
    | with_reducible refine Keeps.modMgt ?_ (by first | rfl | (split <;> rfl)) (by first | rfl | (split <;> rfl))
    | with_reducible refine Keeps.ite ?_ ?_
    | exact Keeps.upd (by with_reducible assumption)
    | split
    | dsimp only

theorem Keeps.writeTile {s x : State} {t_ : Nat} {off : Nat} {part : Bool} {fm : Bool} {wm : Dword} {v : Dword} {one : Dword}
    (h : Keeps s x) : Keeps s (Machine.State.writeTile x t_ off part fm wm v one) := by
  unfold Machine.State.writeTile
  repeat' first
    | with_reducible assumption
    | with_reducible refine Keeps.writeSlot ?_
    | with_reducible refine Keeps.writePeriods ?_
    | with_reducible refine Keeps.writeSlack ?_
    | with_reducible refine Keeps.writeTOut ?_
    | with_reducible refine Keeps.modTile ?_
    | with_reducible refine Keeps.modRouter ?_
    | with_reducible refine Keeps.ite ?_ ?_
    | split
    | dsimp only

theorem Keeps.writeReg {s x u : State} {w : Party} {b : Block} {off : Nat} {mask v : Dword} (h : Keeps s x)
    (e : x.writeReg w b off mask v = some u) : Keeps s u := by
  unfold State.writeReg at e
  dsimp only at e
  split at e
  · injection e with e; exact e ▸ Keeps.writeMgt h
  · injection e with e; exact e ▸ Keeps.ite (h.modMgt rfl rfl) h
  · exact Keeps.writePage h e
  · injection e with e; exact e ▸ Keeps.writeDie h
  · injection e with e; exact e ▸ Keeps.writeRgn h
  · injection e with e; exact e ▸ Keeps.writeEdg h
  · injection e with e; exact e ▸ Keeps.writeTile h


theorem Keeps.ctlStore {s x : State} {w : Party} {a size : Nat} {v : Dword} (h : Keeps s x) :
    Keeps s (x.ctlStore w a size v).2 := by
  unfold State.ctlStore
  dsimp only
  split
  · exact h
  · split
    · exact h
    · split
      · exact Keeps.writeReg h (by assumption)
      · exact h


theorem Keeps.accError {s x : State} {w : Party} {a : Nat} {st : Nat}
    (h : Keeps s x) : Keeps s (Machine.State.accError x w a st) := by
  unfold Machine.State.accError
  repeat' first
    | with_reducible assumption
    | with_reducible refine Keeps.modMgt ?_ (by first | rfl | (split <;> rfl)) (by first | rfl | (split <;> rfl))
    | with_reducible refine Keeps.ite ?_ ?_
    | split
    | dsimp only

theorem Keeps.write {s x : State} {w : Party} {a : Nat} {size : Nat} {v : Dword}
    (h : Keeps s x) : Keeps s (Machine.State.write x w a size v) := by
  unfold Machine.State.write
  repeat' first
    | with_reducible assumption
    | with_reducible refine Keeps.ctlStore ?_
    | with_reducible refine Keeps.accError ?_
    | with_reducible refine Keeps.ite ?_ ?_
    | split
    | dsimp only

theorem Keeps.regRow {s t : State} {ok : Bool} {w : Party} {b : Block} {off : Nat} {v : State → Dword}
    
    (e : Machine.regRow ok w b off v s = .next t) : Keeps s t := by
  unfold Machine.regRow at e
  refine Keeps.onUnit ?_ e
  have h := Keeps.refl s
  repeat' first
    | with_reducible assumption
    | with_reducible refine Keeps.write ?_
    | split
    | dsimp only

theorem Keeps.hostBytes {s x : State} {host : List (Nat × Byte)} (h : Keeps s x) :
    Keeps s (x.hostBytes host) := by
  refine h.toHost fun w => ?_
  generalize x.host = m at w
  induction host generalizing m with
  | nil => exact w
  | cons p l ih => exact ih _ (Tab.put_canonical w _ _)


theorem Keeps.mailRow {s t : State} {op : Nat} {g : Nat → State → State}
    (hg : ∀ v0 u, Keeps s u → Keeps s (g v0 u))
    (e : Machine.mailRow op s g = .next t) : Keeps s t := by
  unfold Machine.mailRow at e
  refine Keeps.onUnit ?_ e
  have h := Keeps.refl s
  repeat' first
    | with_reducible assumption
    | with_reducible apply hg
    | with_reducible refine Keeps.due ?_ fun _ _ => ?_
    | split
    | dsimp only

theorem Keeps.respond {s x : State} {status : Nat} {payload : List Byte}
    (h : Keeps s x) : Keeps s (Machine.State.respond x status payload) := by
  unfold Machine.State.respond
  repeat' first
    | with_reducible assumption
    | with_reducible refine Keeps.modMgt ?_ (by first | rfl | (split <;> rfl)) (by first | rfl | (split <;> rfl))
    | split
    | dsimp only
    | exact Keeps.ofMgt (by with_reducible assumption) (Mgt.respond_keeps _ _ _)

theorem Keeps.ringCmd {s t : State} {op : Nat} {f : Nat} {g : Fetched → State → State}
    (hg : ∀ v0 u, Keeps s u → Keeps s (g v0 u))
    (e : Machine.ringCmd op f s g = .next t) : Keeps s t := by
  unfold Machine.ringCmd at e
  refine Keeps.onUnit ?_ e
  have h := Keeps.refl s
  repeat' first
    | with_reducible assumption
    | with_reducible refine Keeps.modFn ?_
    | with_reducible apply hg
    | with_reducible refine Keeps.due ?_ fun _ _ => ?_
    | split
    | dsimp only

theorem Keeps.done {s x : State} {f : Nat} {q : Fetched} {status : Nat} {detail : Nat} {result : Nat} {info : Nat}
    (h : Keeps s x) : Keeps s (Machine.State.done x f q status detail result info) := by
  unfold Machine.State.done
  repeat' first
    | with_reducible assumption
    | with_reducible refine Keeps.complete ?_
    | with_reducible refine Keeps.ringOn ?_
    | split
    | dsimp only

theorem Keeps.begin {s x : State} {f : Nat} {q : Fetched}
    (h : Keeps s x) : Keeps s (Machine.State.begin x f q) := by
  unfold Machine.State.begin
  repeat' first
    | with_reducible assumption
    | with_reducible refine Keeps.modFn ?_
    | split
    | dsimp only

theorem Keeps.dropDump {s x : State} {f : Nat} {w : Nat}
    (h : Keeps s x) : Keeps s (Machine.State.dropDump x f w) := by
  unfold Machine.State.dropDump
  repeat' first
    | with_reducible assumption
    | with_reducible refine Keeps.stopDump ?_
    | with_reducible refine Keeps.ite ?_ ?_
    | split
    | dsimp only

theorem Keeps.dmaRow {s t : State} {op : Nat} {f : Nat}
    
    (e : Machine.dmaRow op f s = .next t) : Keeps s t := by
  unfold Machine.dmaRow at e
  refine Keeps.ringCmd (fun _ _ _ => ?_) e
  repeat' first
    | with_reducible assumption
    | with_reducible refine Keeps.dmaAsk ?_
    | with_reducible refine Keeps.ringCmd ?_ (fun _ _ _ => ?_)
    | with_reducible refine Keeps.done ?_
    | with_reducible refine Keeps.modFn ?_
    | split
    | dsimp only

theorem Keeps.claim {s x : State} {p : Nat} {w : ImgWindow}
    (h : Keeps s x) : Keeps s (Machine.State.claim x p w) := by
  unfold Machine.State.claim
  repeat' first
    | with_reducible assumption
    | with_reducible refine Keeps.setPage ?_
    | with_reducible refine Keeps.modPart ?_
    | with_reducible refine Keeps.ite ?_ ?_
    | split
    | dsimp only

theorem Keeps.install {s x : State} {p : Nat} {i : Image}
    (h : Keeps s x) : Keeps s (Machine.State.install x p i) := by
  unfold Machine.State.install
  repeat' first
    | with_reducible assumption
    | with_reducible refine Keeps.dropRouters ?_
    | with_reducible refine Keeps.dropPorts ?_
    | with_reducible refine Keeps.claim ?_
    | with_reducible refine Keeps.modTile ?_
    | with_reducible refine Keeps.modRouter ?_
    | with_reducible refine Keeps.modChan ?_
    | with_reducible refine Keeps.modPart ?_
    | with_reducible refine Keeps.modEdge ?_
    | with_reducible refine Keeps.forAll ?_ fun _ _ _ => ?_
    | with_reducible refine Keeps.foldl ?_ fun _ _ _ => ?_
    | split
    | dsimp only

theorem Keeps.loadNow {s x : State} {f : Nat} {q : Fetched} {img : Image} {win : Nat}
    (h : Keeps s x) : Keeps s (Machine.State.loadNow x f q img win) := by
  unfold Machine.State.loadNow
  repeat' first
    | with_reducible assumption
    | with_reducible refine Keeps.finish ?_
    | with_reducible refine Keeps.install ?_
    | with_reducible refine Keeps.modPart ?_
    | with_reducible refine Keeps.ite ?_ ?_
    | split
    | dsimp only

theorem Keeps.discard {s x : State} {p : Nat} {aborted : Bool}
    (h : Keeps s x) : Keeps s (Machine.State.discard x p aborted) := by
  unfold Machine.State.discard
  repeat' first
    | with_reducible assumption
    | with_reducible refine Keeps.dropRouters ?_
    | with_reducible refine Keeps.dropPorts ?_
    | with_reducible refine Keeps.dropShares ?_
    | with_reducible refine Keeps.dropChans ?_
    | with_reducible refine Keeps.scrubTile ?_
    | with_reducible refine Keeps.emptied ?_
    | with_reducible refine Keeps.modPart ?_
    | with_reducible refine Keeps.forAll ?_ fun _ _ _ => ?_
    | split
    | dsimp only

theorem Keeps.abandonLoad {s x : State} {p : Nat} {status : Nat}
    (h : Keeps s x) : Keeps s (Machine.State.abandonLoad x p status) := by
  unfold Machine.State.abandonLoad
  repeat' first
    | with_reducible assumption
    | with_reducible refine Keeps.finish ?_
    | with_reducible refine Keeps.unclaim ?_
    | with_reducible refine Keeps.discard ?_
    | with_reducible refine Keeps.modPart ?_
    | with_reducible refine Keeps.ite ?_ ?_
    | split
    | dsimp only

theorem Keeps.createPart {s x : State} {p : Nat} {cx0 : Nat} {cy0 : Nat} {cx1 : Nat} {cy1 : Nat}
    (h : Keeps s x) : Keeps s (Machine.State.createPart x p cx0 cy0 cx1 cy1) := by
  unfold Machine.State.createPart
  repeat' first
    | with_reducible assumption
    | with_reducible refine Keeps.modCtl ?_
    | with_reducible refine Keeps.modPart ?_
    | with_reducible refine Keeps.modFn ?_
    | with_reducible refine Keeps.forAll ?_ fun _ _ _ => ?_
    | split
    | dsimp only

theorem Keeps.abortRing {s x : State} {f : Nat}
    (h : Keeps s x) : Keeps s (Machine.State.abortRing x f) := by
  unfold Machine.State.abortRing
  repeat' first
    | with_reducible assumption
    | with_reducible refine Keeps.complete ?_
    | with_reducible refine Keeps.ringOn ?_
    | with_reducible refine Keeps.modFn ?_
    | with_reducible refine Keeps.foldl ?_ fun _ _ _ => ?_
    | split
    | dsimp only

theorem Keeps.resetPart {s x : State} {p : Nat} {reason : Nat}
    (h : Keeps s x) : Keeps s (Machine.State.resetPart x p reason) := by
  unfold Machine.State.resetPart
  repeat' first
    | with_reducible assumption
    | with_reducible refine Keeps.announceStop ?_
    | with_reducible refine Keeps.dropRouters ?_
    | with_reducible refine Keeps.dropPorts ?_
    | with_reducible refine Keeps.dropShares ?_
    | with_reducible refine Keeps.dropChans ?_
    | with_reducible refine Keeps.resetOver ?_
    | with_reducible refine Keeps.discard ?_
    | with_reducible refine Keeps.abandonLoad ?_
    | with_reducible refine Keeps.abortRing ?_
    | with_reducible refine Keeps.modPart ?_
    | with_reducible refine Keeps.forAll ?_ fun _ _ _ => ?_
    | split
    | dsimp only

theorem Keeps.partCmd {s t : State} {op : Nat} {reason : Nat}
    
    (e : Machine.partCmd op reason s = .next t) : Keeps s t := by
  unfold Machine.partCmd at e
  refine Keeps.ringCmd (fun _ _ _ => ?_) e
  repeat' first
    | with_reducible assumption
    | with_reducible refine Keeps.ringCmd ?_ (fun _ _ _ => ?_)
    | with_reducible refine Keeps.done ?_
    | with_reducible refine Keeps.begin ?_
    | with_reducible refine Keeps.resetPart ?_
    | with_reducible refine Keeps.modPart ?_
    | with_reducible refine Keeps.ite ?_ ?_
    | split
    | dsimp only

theorem Keeps.endRing {s x : State} {f : Nat}
    (h : Keeps s x) : Keeps s (Machine.State.endRing x f) := by
  unfold Machine.State.endRing
  repeat' first
    | with_reducible assumption
    | with_reducible refine Keeps.event ?_
    | with_reducible refine Keeps.abandonLoad ?_
    | with_reducible refine Keeps.modFn ?_
    | with_reducible refine Keeps.ite ?_ ?_
    | split
    | dsimp only

theorem Keeps.endFabric {s x : State} 
    (h : Keeps s x) : Keeps s (Machine.State.endFabric x) := by
  unfold Machine.State.endFabric
  repeat' first
    | with_reducible assumption
    | with_reducible refine Keeps.event ?_
    | with_reducible refine Keeps.modFn ?_
    | split
    | dsimp only

theorem Keeps.resetPage {s x : State} {f : Nat}
    (h : Keeps s x) : Keeps s (Machine.State.resetPage x f) := by
  unfold Machine.State.resetPage
  repeat' first
    | with_reducible assumption
    | with_reducible refine Keeps.dropDump ?_
    | with_reducible refine Keeps.setFn ?_
    | with_reducible refine Keeps.ite ?_ ?_
    | exact Keeps.upd (by with_reducible assumption)
    | split
    | dsimp only
    | refine Keeps.upd ?_

theorem Keeps.resetRunPage {s x : State} {p : Nat}
    (h : Keeps s x) : Keeps s (Machine.State.resetRunPage x p) := by
  unfold Machine.State.resetRunPage
  repeat' first
    | with_reducible assumption
    | with_reducible refine Keeps.modPart ?_
    | with_reducible refine Keeps.ite ?_ ?_
    | split
    | dsimp only

theorem Keeps.flr {s x : State} {f : Nat}
    (h : Keeps s x) : Keeps s (Machine.State.flr x f) := by
  unfold Machine.State.flr
  repeat' first
    | with_reducible assumption
    | with_reducible refine Keeps.resetPart ?_
    | with_reducible refine Keeps.endRing ?_
    | with_reducible refine Keeps.resetPage ?_
    | with_reducible refine Keeps.resetRunPage ?_
    | with_reducible refine Keeps.ite ?_ ?_
    | split
    | dsimp only

theorem Keeps.flrAll {s x : State} 
    (h : Keeps s x) : Keeps s (Machine.State.flrAll x) := by
  unfold Machine.State.flrAll
  repeat' first
    | with_reducible assumption
    | with_reducible refine Keeps.resetPart ?_
    | with_reducible refine Keeps.endRing ?_
    | with_reducible refine Keeps.endFabric ?_
    | with_reducible refine Keeps.resetPage ?_
    | with_reducible refine Keeps.modPart ?_
    | with_reducible refine Keeps.forAll ?_ fun _ _ _ => ?_
    | with_reducible refine Keeps.ite ?_ ?_
    | split
    | dsimp only

theorem Keeps.spdm {s x : State} {code : Nat} {body : List Byte}
    (h : Keeps s x) : Keeps s (Machine.State.spdm x code body) := by
  unfold Machine.State.spdm
  repeat' first
    | with_reducible assumption
    | with_reducible refine Keeps.modMgt ?_ (by first | rfl | (split <;> rfl)) (by first | rfl | (split <;> rfl))
    | split
    | dsimp only

theorem Keeps.reply {s x : State} {status : Nat}
    (h : Keeps s x) : Keeps s (Machine.State.reply x status) := by
  unfold Machine.State.reply
  repeat' first
    | with_reducible assumption
    | with_reducible refine Keeps.modMgt ?_ (by first | rfl | (split <;> rfl)) (by first | rfl | (split <;> rfl))
    | split
    | dsimp only

theorem Keeps.heard {s x : State} {n : Nat}
    (h : Keeps s x) : Keeps s (Machine.State.heard x n) := by
  unfold Machine.State.heard
  repeat' first
    | with_reducible assumption
    | with_reducible refine Keeps.setSession ?_
    | split
    | dsimp only

theorem Keeps.sessionRow {s t : State} {sess : Nat} {ok : Session → Bool} {g : Session → State → State}
    (hg : ∀ v0 u, Keeps s u → Keeps s (g v0 u))
    (e : Machine.sessionRow sess s ok g = .next t) : Keeps s t := by
  unfold Machine.sessionRow at e
  refine Keeps.onUnit ?_ e
  have h := Keeps.refl s
  repeat' first
    | with_reducible assumption
    | with_reducible refine Keeps.heard ?_
    | with_reducible apply hg
    | with_reducible refine Keeps.due ?_ fun _ _ => ?_
    | split
    | dsimp only

theorem Keeps.endSession {s x : State} {n : Nat}
    (h : Keeps s x) : Keeps s (Machine.State.endSession x n) := by
  unfold Machine.State.endSession
  repeat' first
    | with_reducible assumption
    | with_reducible refine Keeps.stopDump ?_
    | with_reducible refine Keeps.endRing ?_
    | with_reducible refine Keeps.endFabric ?_
    | with_reducible refine Keeps.modPart ?_
    | with_reducible refine Keeps.setSession ?_
    | with_reducible refine Keeps.forAll ?_ fun _ _ _ => ?_
    | with_reducible refine Keeps.foldl ?_ fun _ _ _ => ?_
    | with_reducible refine Keeps.ite ?_ ?_
    | split
    | dsimp only

theorem Keeps.messageRow {s t : State} {ok : Bool} {sess : Nat} {g : Session → State → Nat × State}
    (hg : ∀ v u, Keeps s u → Keeps s (g v u).2) (e : Machine.messageRow ok sess s g = .next t) : Keeps s t := by
  unfold Machine.messageRow at e
  refine Keeps.onUnit ?_ e
  have h := Keeps.refl s
  dsimp only
  split
  · split
    · exact Keeps.reply (hg _ _ (Keeps.heard h))
    · exact Keeps.reply h
  · exact Keeps.reply h


theorem Keeps.adminRow {s t : State} {sess : Nat} {g : State → Nat × State}
    (hg : ∀ u, Keeps s u → Keeps s (g u).2)
    (e : Machine.adminRow sess s g = .next t) : Keeps s t := by
  unfold Machine.adminRow at e
  refine Keeps.messageRow (fun _ _ _ => ?_) e
  repeat' first
    | with_reducible assumption
    | with_reducible refine Keeps.messageRow ?_ (fun _ _ _ => ?_)
    | with_reducible refine hg _ ?_
    | with_reducible refine Keeps.ite ?_ ?_
    | split
    | dsimp only

end Sys2Proof.Machine
end

