-- ==== Sys2Proof/Laws/Operands.lean ====
section
/-!
SUPPORT. What the lanes of a vector register are when it is made from a list of lanes.
-/
namespace Sys2Proof.Machine

theorem fold_field (k : Nat) (l : List Nat) (hl : ∀ a ∈ l, a < 2 ^ k) (j : Nat) :
    l.foldr (fun a n => a + 2 ^ k * n) 0 / 2 ^ (k * j) % 2 ^ k = l.getD j 0 := by
  induction l generalizing j with
  | nil => simp
  | cons a l ih =>
    have ha := hl a (List.mem_cons_self ..)
    have ih := ih fun b hb => hl b (List.mem_cons_of_mem _ hb)
    cases j with
    | zero =>
      simp only [List.foldr_cons, Nat.mul_zero, Nat.pow_zero, Nat.div_one, List.getD_cons_zero]
      rw [Nat.add_mul_mod_self_left, Nat.mod_eq_of_lt ha]
    | succ j =>
      simp only [List.foldr_cons, List.getD_cons_succ]
      rw [← ih j, Nat.mul_succ, Nat.add_comm (k * j) k, Nat.pow_add, ← Nat.div_div_eq_div_mul,
        Nat.add_mul_div_left _ _ (Nat.two_pow_pos k), Nat.div_eq_of_lt ha, Nat.zero_add]

theorem field_of_mod (n a b c : Nat) (h : b + c ≤ a) : n % 2 ^ a / 2 ^ b % 2 ^ c = n / 2 ^ b % 2 ^ c := by
  have hd : (2 : Nat) ^ a = 2 ^ b * 2 ^ (a - b) := by rw [← Nat.pow_add]; congr 1; omega
  rw [hd, Nat.mod_mul_right_div_self]
  exact Nat.mod_mod_of_dvd _ (Nat.pow_dvd_pow 2 (by omega))

/-- Lane `j` of a register made from a list is its member `j`. -/
theorem lane_ofLanes (l : List Word) (j : Nat) (hj : j < 64) : lane (ofLanes l) j = l.getD j 0 := by
  have key := fold_field 32 (l.map BitVec.toNat) (fun a ha => by
    obtain ⟨b, _, rfl⟩ := List.mem_map.1 ha
    exact b.isLt) j
  rw [List.foldr_map] at key
  apply BitVec.eq_of_toNat_eq
  have hg : (l.map BitVec.toNat).getD j 0 = (l.getD j 0).toNat := by
    simp only [List.getD_eq_getElem?_getD, List.getElem?_map]
    cases l[j]? <;> rfl
  rw [← hg, ← key, ← field_of_mod _ 2048 (32 * j) 32 (by omega)]
  simp only [lane, ofLanes, BitVec.extractLsb'_toNat, BitVec.toNat_ofNat, Nat.shiftRight_eq_div_pow]

/-- A word in lane 0, the other lanes zero. -/
theorem lane_setWidth (v : Word) (j : Nat) : lane (v.setWidth 2048) j = if j = 0 then v else 0 := by
  apply BitVec.eq_of_getLsbD_eq
  intro i hi
  simp only [lane, BitVec.getLsbD_extractLsb', BitVec.getLsbD_setWidth, hi, decide_true, Bool.true_and]
  by_cases hj : j = 0
  · subst hj
    rw [if_pos rfl]
    simp only [Nat.mul_zero, Nat.zero_add]
    rw [decide_eq_true (by omega : i < 2048), Bool.true_and]
  · rw [if_neg hj, BitVec.getLsbD_of_ge v _ (by omega)]
    simp

/-- Lane `j` of the lanes of a register. -/
theorem lanes_getD (v : VReg) (j : Nat) (hj : j < 64) : (lanes v).getD j 0 = lane v j := by
  unfold lanes
  rw [List.getD_eq_getElem?_getD, List.getElem?_map, List.getElem?_range hj]
  rfl

end Sys2Proof.Machine
end

