-- ==== Sys2Proof/Laws/PerInstr.lean ====
section
/-!
SUPPORT. The shape of every meaning: a command whose units exist has an effect, any other names no unit.
-/
namespace Sys2Proof.Laws.Shape

open Sys2Proof.Machine

/-- A command runs one effect where it is well formed, and faults otherwise. -/
def Statement (i : Instr) : Prop := ∀ s : State, ∃ f : State → State, Sys2Proof.Machine.exec i s = onUnit (wellFormed i) s f

/-- An effect has the shape. -/
theorem onUnit_has (ok : Bool) (s : State) (f : State → State) :
    ∃ g : State → State, onUnit ok s f = onUnit ok s g := ⟨f, rfl⟩

/-- An effect after a change that has none of its own conditions has the shape. -/
theorem onUnit_after (ok : Bool) (s : State) (k f : State → State) :
    ∃ g : State → State, onUnit ok (k s) f = onUnit ok s g := ⟨fun u => f (k u), rfl⟩

theorem nop (t : Nat) : Statement (.nop t) := fun s => by
  show ∃ eff, execNop t s = onUnit (t < 20000) s eff
  unfold execNop issueTile issueWord; exact onUnit_has _ _ _
theorem mov (t : Nat) : Statement (.mov t) := fun s => by
  show ∃ eff, execMov t s = onUnit (t < 20000) s eff
  unfold execMov aluWord issueTile issueWord; exact onUnit_has _ _ _
theorem add (t : Nat) : Statement (.add t) := fun s => by
  show ∃ eff, execAdd t s = onUnit (t < 20000) s eff
  unfold execAdd aluWord issueTile issueWord; exact onUnit_has _ _ _
theorem sub (t : Nat) : Statement (.sub t) := fun s => by
  show ∃ eff, execSub t s = onUnit (t < 20000) s eff
  unfold execSub aluWord issueTile issueWord; exact onUnit_has _ _ _
theorem mul (t : Nat) : Statement (.mul t) := fun s => by
  show ∃ eff, execMul t s = onUnit (t < 20000) s eff
  unfold execMul aluWord issueTile issueWord; exact onUnit_has _ _ _
theorem and (t : Nat) : Statement (.and t) := fun s => by
  show ∃ eff, execAnd t s = onUnit (t < 20000) s eff
  unfold execAnd aluWord issueTile issueWord; exact onUnit_has _ _ _
theorem or (t : Nat) : Statement (.or t) := fun s => by
  show ∃ eff, execOr t s = onUnit (t < 20000) s eff
  unfold execOr aluWord issueTile issueWord; exact onUnit_has _ _ _
theorem xor (t : Nat) : Statement (.xor t) := fun s => by
  show ∃ eff, execXor t s = onUnit (t < 20000) s eff
  unfold execXor aluWord issueTile issueWord; exact onUnit_has _ _ _
theorem shl (t : Nat) : Statement (.shl t) := fun s => by
  show ∃ eff, execShl t s = onUnit (t < 20000) s eff
  unfold execShl aluWord issueTile issueWord; exact onUnit_has _ _ _
theorem shr (t : Nat) : Statement (.shr t) := fun s => by
  show ∃ eff, execShr t s = onUnit (t < 20000) s eff
  unfold execShr aluWord issueTile issueWord; exact onUnit_has _ _ _
theorem sra (t : Nat) : Statement (.sra t) := fun s => by
  show ∃ eff, execSra t s = onUnit (t < 20000) s eff
  unfold execSra aluWord issueTile issueWord; exact onUnit_has _ _ _
theorem min (t : Nat) : Statement (.min t) := fun s => by
  show ∃ eff, execMin t s = onUnit (t < 20000) s eff
  unfold execMin aluWord issueTile issueWord; exact onUnit_has _ _ _
theorem max (t : Nat) : Statement (.max t) := fun s => by
  show ∃ eff, execMax t s = onUnit (t < 20000) s eff
  unfold execMax aluWord issueTile issueWord; exact onUnit_has _ _ _
theorem cmplt (t : Nat) : Statement (.cmplt t) := fun s => by
  show ∃ eff, execCmplt t s = onUnit (t < 20000) s eff
  unfold execCmplt aluWord issueTile issueWord; exact onUnit_has _ _ _
theorem cmpeq (t : Nat) : Statement (.cmpeq t) := fun s => by
  show ∃ eff, execCmpeq t s = onUnit (t < 20000) s eff
  unfold execCmpeq aluWord issueTile issueWord; exact onUnit_has _ _ _
theorem cmpltu (t : Nat) : Statement (.cmpltu t) := fun s => by
  show ∃ eff, execCmpltu t s = onUnit (t < 20000) s eff
  unfold execCmpltu aluWord issueTile issueWord; exact onUnit_has _ _ _
theorem lds (t : Nat) : Statement (.lds t) := fun s => by
  show ∃ eff, execLds t s = onUnit (t < 20000) s eff
  unfold execLds issueTile issueWord; exact onUnit_has _ _ _
theorem sts (t : Nat) : Statement (.sts t) := fun s => by
  show ∃ eff, execSts t s = onUnit (t < 20000) s eff
  unfold execSts issueTile issueWord; exact onUnit_has _ _ _
theorem br (t : Nat) : Statement (.br t) := fun s => by
  show ∃ eff, execBr t s = onUnit (t < 20000) s eff
  unfold execBr issueTile issueWord; exact onUnit_has _ _ _
theorem bz (t : Nat) : Statement (.bz t) := fun s => by
  show ∃ eff, execBz t s = onUnit (t < 20000) s eff
  unfold execBz issueTile issueWord; exact onUnit_has _ _ _
theorem jmp (t : Nat) : Statement (.jmp t) := fun s => by
  show ∃ eff, execJmp t s = onUnit (t < 20000) s eff
  unfold execJmp issueTile issueWord; exact onUnit_has _ _ _
theorem loop (t : Nat) : Statement (.loop t) := fun s => by
  show ∃ eff, execLoop t s = onUnit (t < 20000) s eff
  unfold execLoop issueTile issueWord; exact onUnit_has _ _ _
theorem rdlc (t : Nat) : Statement (.rdlc t) := fun s => by
  show ∃ eff, execRdlc t s = onUnit (t < 20000) s eff
  unfold execRdlc issueTile issueWord; exact onUnit_has _ _ _
theorem loopi (t : Nat) : Statement (.loopi t) := fun s => by
  show ∃ eff, execLoopi t s = onUnit (t < 20000) s eff
  unfold execLoopi issueTile issueWord; exact onUnit_has _ _ _
theorem halt (t : Nat) : Statement (.halt t) := fun s => by
  show ∃ eff, execHalt t s = onUnit (t < 20000) s eff
  unfold execHalt issueTile issueWord; exact onUnit_has _ _ _
theorem vadd (t : Nat) : Statement (.vadd t) := fun s => by
  show ∃ eff, execVadd t s = onUnit (t < 20000) s eff
  unfold execVadd vecWord issueTile issueWord; exact onUnit_has _ _ _
theorem vsub (t : Nat) : Statement (.vsub t) := fun s => by
  show ∃ eff, execVsub t s = onUnit (t < 20000) s eff
  unfold execVsub vecWord issueTile issueWord; exact onUnit_has _ _ _
theorem vmul (t : Nat) : Statement (.vmul t) := fun s => by
  show ∃ eff, execVmul t s = onUnit (t < 20000) s eff
  unfold execVmul vecWord issueTile issueWord; exact onUnit_has _ _ _
theorem vfma (t : Nat) : Statement (.vfma t) := fun s => by
  show ∃ eff, execVfma t s = onUnit (t < 20000) s eff
  unfold execVfma vecWord issueTile issueWord; exact onUnit_has _ _ _
theorem vmax (t : Nat) : Statement (.vmax t) := fun s => by
  show ∃ eff, execVmax t s = onUnit (t < 20000) s eff
  unfold execVmax vecWord issueTile issueWord; exact onUnit_has _ _ _
theorem vmin (t : Nat) : Statement (.vmin t) := fun s => by
  show ∃ eff, execVmin t s = onUnit (t < 20000) s eff
  unfold execVmin vecWord issueTile issueWord; exact onUnit_has _ _ _
theorem vabs (t : Nat) : Statement (.vabs t) := fun s => by
  show ∃ eff, execVabs t s = onUnit (t < 20000) s eff
  unfold execVabs vecWord issueTile issueWord; exact onUnit_has _ _ _
theorem vneg (t : Nat) : Statement (.vneg t) := fun s => by
  show ∃ eff, execVneg t s = onUnit (t < 20000) s eff
  unfold execVneg vecWord issueTile issueWord; exact onUnit_has _ _ _
theorem vbcst (t : Nat) : Statement (.vbcst t) := fun s => by
  show ∃ eff, execVbcst t s = onUnit (t < 20000) s eff
  unfold execVbcst vecWord issueTile issueWord; exact onUnit_has _ _ _
theorem vcvtn (t : Nat) : Statement (.vcvtn t) := fun s => by
  show ∃ eff, execVcvtn t s = onUnit (t < 20000) s eff
  unfold execVcvtn issueTile issueWord; exact onUnit_has _ _ _
theorem vcvtw (t : Nat) : Statement (.vcvtw t) := fun s => by
  show ∃ eff, execVcvtw t s = onUnit (t < 20000) s eff
  unfold execVcvtw vecWord issueTile issueWord; exact onUnit_has _ _ _
theorem vexp2 (t : Nat) : Statement (.vexp2 t) := fun s => by
  show ∃ eff, execVexp2 t s = onUnit (t < 20000) s eff
  unfold execVexp2 vecWord issueTile issueWord; exact onUnit_has _ _ _
theorem vrcp (t : Nat) : Statement (.vrcp t) := fun s => by
  show ∃ eff, execVrcp t s = onUnit (t < 20000) s eff
  unfold execVrcp vecWord issueTile issueWord; exact onUnit_has _ _ _
theorem vrsq (t : Nat) : Statement (.vrsq t) := fun s => by
  show ∃ eff, execVrsq t s = onUnit (t < 20000) s eff
  unfold execVrsq vecWord issueTile issueWord; exact onUnit_has _ _ _
theorem vsum (t : Nat) : Statement (.vsum t) := fun s => by
  show ∃ eff, execVsum t s = onUnit (t < 20000) s eff
  unfold execVsum vecWord issueTile issueWord; exact onUnit_has _ _ _
theorem vld (t : Nat) : Statement (.vld t) := fun s => by
  show ∃ eff, execVld t s = onUnit (t < 20000) s eff
  unfold execVld issueTile issueWord; exact onUnit_has _ _ _
theorem vst (t : Nat) : Statement (.vst t) := fun s => by
  show ∃ eff, execVst t s = onUnit (t < 20000) s eff
  unfold execVst issueTile issueWord; exact onUnit_has _ _ _
theorem vnorm (t : Nat) : Statement (.vnorm t) := fun s => by
  show ∃ eff, execVnorm t s = onUnit (t < 20000) s eff
  unfold execVnorm issueTile issueWord; exact onUnit_has _ _ _
theorem vsel (t : Nat) : Statement (.vsel t) := fun s => by
  show ∃ eff, execVsel t s = onUnit (t < 20000) s eff
  unfold execVsel vecWord issueTile issueWord; exact onUnit_has _ _ _
theorem acfg (t : Nat) : Statement (.acfg t) := fun s => by
  show ∃ eff, execAcfg t s = onUnit (t < 20000) s eff
  unfold execAcfg issueTile issueWord; exact onUnit_has _ _ _
theorem aloadb (t : Nat) : Statement (.aloadb t) := fun s => by
  show ∃ eff, execAloadb t s = onUnit (t < 20000) s eff
  unfold execAloadb issueTile issueWord; exact onUnit_has _ _ _
theorem amul (t : Nat) : Statement (.amul t) := fun s => by
  show ∃ eff, execAmul t s = onUnit (t < 20000) s eff
  unfold execAmul issueTile issueWord; exact onUnit_has _ _ _
theorem adrain (t : Nat) : Statement (.adrain t) := fun s => by
  show ∃ eff, execAdrain t s = onUnit (t < 20000) s eff
  unfold execAdrain issueTile issueWord; exact onUnit_has _ _ _
theorem azero (t : Nat) : Statement (.azero t) := fun s => by
  show ∃ eff, execAzero t s = onUnit (t < 20000) s eff
  unfold execAzero issueTile issueWord; exact onUnit_has _ _ _
theorem xout (t : Nat) : Statement (.xout t) := fun s => by
  show ∃ eff, execXout t s = onUnit (t < 20000) s eff
  unfold execXout issueTile issueWord; exact onUnit_has _ _ _
theorem xin (t : Nat) : Statement (.xin t) := fun s => by
  show ∃ eff, execXin t s = onUnit (t < 20000) s eff
  unfold execXin issueTile issueWord; exact onUnit_has _ _ _
theorem tarr (t : Nat) : Statement (.tarr t) := fun s => by
  show ∃ eff, execTarr t s = onUnit (t < 20000) s eff
  unfold execTarr issueWord; exact onUnit_has _ _ _
theorem twait (t : Nat) : Statement (.twait t) := fun s => by
  show ∃ eff, execTwait t s = onUnit (t < 20000) s eff
  unfold execTwait issueWord; exact onUnit_has _ _ _
theorem tsync (t : Nat) : Statement (.tsync t) := fun s => by
  show ∃ eff, execTsync t s = onUnit (t < 20000) s eff
  unfold execTsync issueWord; exact onUnit_has _ _ _
theorem tphase (t : Nat) : Statement (.tphase t) := fun s => by
  show ∃ eff, execTphase t s = onUnit (t < 20000) s eff
  unfold execTphase issueWord; exact onUnit_has _ _ _
theorem traise (t : Nat) : Statement (.traise t) := fun s => by
  show ∃ eff, execTraise t s = onUnit (t < 20000) s eff
  unfold execTraise issueWord; exact onUnit_has _ _ _
theorem pipePendingStart (t : Nat) (q : PipeId) : Statement (.pipePendingStart t q) := fun s => by
  show ∃ eff, execPipePendingStart t q s = onUnit (t < 20000) s eff
  unfold execPipePendingStart; exact onUnit_has _ _ _
theorem barrierTimeout (t : Nat) : Statement (.barrierTimeout t) := fun s => by
  show ∃ eff, execBarrierTimeout t s = onUnit (t < 20000) s eff
  unfold execBarrierTimeout; exact onUnit_has _ _ _
theorem resumeIssue (t : Nat) : Statement (.resumeIssue t) := fun s => by
  show ∃ eff, execResumeIssue t s = onUnit (t < 20000) s eff
  unfold execResumeIssue; exact onUnit_has _ _ _
theorem runStartBeat (r : Nat) : Statement (.runStartBeat r) := fun s => by
  show ∃ eff, execRunStartBeat r s = onUnit (r < 40) s eff
  unfold execRunStartBeat; exact onUnit_has _ _ _
theorem runComplete (p : Nat) : Statement (.runComplete p) := fun s => by
  show ∃ eff, execRunComplete p s = onUnit (p < 16) s eff
  unfold execRunComplete; exact onUnit_has _ _ _
theorem endBeat (r : Nat) : Statement (.endBeat r) := fun s => by
  show ∃ eff, execEndBeat r s = onUnit (r < 40) s eff
  unfold execEndBeat; exact onUnit_has _ _ _
theorem scrubComplete (t : Nat) : Statement (.scrubComplete t) := fun s => by
  show ∃ eff, execScrubComplete t s = onUnit (t < 20000) s eff
  unfold execScrubComplete; exact onUnit_has _ _ _
theorem flush (w : Party) (q : QueueId) : Statement (.flush w q) := fun s => by
  show ∃ eff, execFlush w q s = onUnit (queueOk q && partyOk w) s eff
  unfold execFlush regRow; exact onUnit_has _ _ _
theorem pop (w : Party) (q : QueueId) : Statement (.pop w q) := fun s => by
  show ∃ eff, execPop w q s = onUnit (queueOk q && partyOk w) s eff
  unfold execPop regRow; exact onUnit_has _ _ _
theorem rtrStData (w : Party) (t : Nat) (v : Dword) : Statement (.rtrStData w t v) := fun s => by
  show ∃ eff, execRtrStData w t v s = onUnit (t < 20000 && partyOk w) s eff
  unfold execRtrStData regRow; exact onUnit_has _ _ _
theorem rtrPeriod (w : Party) (t : Nat) (v : Dword) : Statement (.rtrPeriod w t v) := fun s => by
  show ∃ eff, execRtrPeriod w t v s = onUnit (t < 20000 && partyOk w) s eff
  unfold execRtrPeriod regRow; exact onUnit_has _ _ _
theorem rtrSlack (w : Party) (t : Nat) (v : Dword) : Statement (.rtrSlack w t v) := fun s => by
  show ∃ eff, execRtrSlack w t v s = onUnit (t < 20000 && partyOk w) s eff
  unfold execRtrSlack regRow; exact onUnit_has _ _ _
theorem tOut (w : Party) (t : Nat) (v : Dword) : Statement (.tOut w t v) := fun s => by
  show ∃ eff, execTOut w t v s = onUnit (t < 20000 && partyOk w) s eff
  unfold execTOut regRow; exact onUnit_has _ _ _
theorem borderWordArrival (t : Nat) (side : Dir) (kind : BorderKind) : Statement (.borderWordArrival t side kind) := fun s => by
  show ∃ eff, execBorderWordArrival t side kind s = onUnit (t < 20000) s eff
  unfold execBorderWordArrival; exact onUnit_has _ _ _
theorem borderWordLate (t : Nat) (side : Dir) (edge : Bool) : Statement (.borderWordLate t side edge) := fun s => by
  show ∃ eff, execBorderWordLate t side edge s = onUnit (t < 20000) s eff
  unfold execBorderWordLate; exact onUnit_has _ _ _
theorem partitionSwapBeat (r : Nat) : Statement (.partitionSwapBeat r) := fun s => by
  show ∃ eff, execPartitionSwapBeat r s = onUnit (r < 40) s eff
  unfold execPartitionSwapBeat; exact onUnit_has _ _ _
theorem transitSwapBeat (r : Nat) : Statement (.transitSwapBeat r) := fun s => by
  show ∃ eff, execTransitSwapBeat r s = onUnit (r < 40) s eff
  unfold execTransitSwapBeat; exact onUnit_has _ _ _
theorem routerPlaneFeedLoss (r : Nat) : Statement (.routerPlaneFeedLoss r) := fun s => by
  show ∃ eff, execRouterPlaneFeedLoss r s = onUnit (r < 40) s eff
  unfold execRouterPlaneFeedLoss; exact onUnit_has _ _ _
theorem routerPlaneFeedReturn (r : Nat) (own : Bool) : Statement (.routerPlaneFeedReturn r own) := fun s => by
  show ∃ eff, execRouterPlaneFeedReturn r own s = onUnit (r < 40) s eff
  unfold execRouterPlaneFeedReturn; exact onUnit_has _ _ _
theorem expressTokenInject (n : NodeId) : Statement (.expressTokenInject n) := fun s => by
  unfold exec
  cases n <;> unfold execExpressTokenInject <;> exact onUnit_has _ _ _
theorem arrive (r : Nat) (k : Token) : Statement (.arrive r k) := fun s => by
  show ∃ eff, execArrive r k s = onUnit (r < 40) s eff
  unfold execArrive henToken; exact onUnit_has _ _ _
theorem regionDone (r : Nat) (k : Token) : Statement (.regionDone r k) := fun s => by
  show ∃ eff, execRegionDone r k s = onUnit (r < 40) s eff
  unfold execRegionDone henToken; exact onUnit_has _ _ _
theorem release (t : Nat) (k : Token) : Statement (.release t k) := fun s => by
  show ∃ eff, execRelease t k s = onUnit (t < 20000) s eff
  unfold execRelease; exact onUnit_has _ _ _
theorem bellwetherElection (p : Nat) (g : Nat) : Statement (.bellwetherElection p g) := fun s => by
  show ∃ eff, execBellwetherElection p g s = onUnit (p < 16 && g < 4096) s eff
  unfold execBellwetherElection; exact onUnit_has _ _ _
theorem hold (r : Nat) (k : Token) : Statement (.hold r k) := fun s => by
  show ∃ eff, execHold r k s = onUnit (r < 40) s eff
  unfold execHold henToken; exact onUnit_has _ _ _
theorem holdBeat (r : Nat) : Statement (.holdBeat r) := fun s => by
  show ∃ eff, execHoldBeat r s = onUnit (r < 40) s eff
  unfold execHoldBeat; exact onUnit_has _ _ _
theorem resume (r : Nat) (k : Token) : Statement (.resume r k) := fun s => by
  show ∃ eff, execResume r k s = onUnit (r < 40) s eff
  unfold execResume henToken; exact onUnit_has _ _ _
theorem resumeBeat (r : Nat) : Statement (.resumeBeat r) := fun s => by
  show ∃ eff, execResumeBeat r s = onUnit (r < 40) s eff
  unfold execResumeBeat; exact onUnit_has _ _ _
theorem pSwap (r : Nat) (k : Token) : Statement (.pSwap r k) := fun s => by
  show ∃ eff, execPSwap r k s = onUnit (r < 40) s eff
  unfold execPSwap henToken; exact onUnit_has _ _ _
theorem tSwap (r : Nat) (k : Token) : Statement (.tSwap r k) := fun s => by
  show ∃ eff, execTSwap r k s = onUnit (r < 40) s eff
  unfold execTSwap henToken; exact onUnit_has _ _ _
theorem runStartToken (r : Nat) (k : Token) : Statement (.runStartToken r k) := fun s => by
  show ∃ eff, execRunStartToken r k s = onUnit (r < 40) s eff
  unfold execRunStartToken henToken; exact onUnit_has _ _ _
theorem runStop (r : Nat) (k : Token) : Statement (.runStop r k) := fun s => by
  show ∃ eff, execRunStop r k s = onUnit (r < 40) s eff
  unfold execRunStop henToken; exact onUnit_has _ _ _
theorem holdReq (r : Nat) (k : Token) : Statement (.holdReq r k) := fun s => by
  show ∃ eff, execHoldReq r k s = onUnit (r < 40) s eff
  unfold execHoldReq henToken; exact onUnit_has _ _ _
theorem resumeReq (r : Nat) (k : Token) : Statement (.resumeReq r k) := fun s => by
  show ∃ eff, execResumeReq r k s = onUnit (r < 40) s eff
  unfold execResumeReq henToken; exact onUnit_has _ _ _
theorem resumeAnnounce (r : Nat) : Statement (.resumeAnnounce r) := fun s => by
  show ∃ eff, execResumeAnnounce r s = onUnit (r < 40) s eff
  unfold execResumeAnnounce; exact onUnit_has _ _ _
theorem hostHold (w : Party) (r : Nat) : Statement (.hostHold w r) := fun s => by
  show ∃ eff, execHostHold w r s = onUnit (r < 40 && partyOk w) s eff
  unfold execHostHold regRow; exact onUnit_has _ _ _
theorem hostResume (w : Party) (r : Nat) : Statement (.hostResume w r) := fun s => by
  show ∃ eff, execHostResume w r s = onUnit (r < 40 && partyOk w) s eff
  unfold execHostResume regRow; exact onUnit_has _ _ _
theorem fmHold (w : Party) (r : Nat) : Statement (.fmHold w r) := fun s => by
  show ∃ eff, execFmHold w r s = onUnit (r < 40 && partyOk w) s eff
  unfold execFmHold regRow; exact onUnit_has _ _ _
theorem fmResume (w : Party) (r : Nat) : Statement (.fmResume w r) := fun s => by
  show ∃ eff, execFmResume w r s = onUnit (r < 40 && partyOk w) s eff
  unfold execFmResume regRow; exact onUnit_has _ _ _
theorem creditToken (k : Token) : Statement (.creditToken k) := fun s => by
  show ∃ eff, execCreditToken k s = onUnit (true) s eff
  unfold execCreditToken; exact onUnit_has _ _ _
theorem faultToken (n : NodeId) (k : Token) : Statement (.faultToken n k) := fun s => by
  unfold exec
  cases n <;> unfold execFaultToken <;> exact onUnit_has _ _ _
theorem normPair (r : Nat) (k : Token) : Statement (.normPair r k) := fun s => by
  show ∃ eff, execNormPair r k s = onUnit (r < 40) s eff
  unfold execNormPair normToken henToken; exact onUnit_has _ _ _
theorem normEnd (r : Nat) (k : Token) : Statement (.normEnd r k) := fun s => by
  show ∃ eff, execNormEnd r k s = onUnit (r < 40) s eff
  unfold execNormEnd normToken henToken; exact onUnit_has _ _ _
theorem normRecordEmit (p : Nat) (phase : Nat) : Statement (.normRecordEmit p phase) := fun s => by
  show ∃ eff, execNormRecordEmit p phase s = onUnit (p < 16 && phase < 256) s eff
  unfold execNormRecordEmit; exact onUnit_has _ _ _
theorem roosterTick (dead : List (Nat × Nat)) (amps : List (Nat × Nat)) : Statement (.roosterTick dead amps) := fun s => by
  show ∃ eff, execRoosterTick dead amps s = onUnit (true) s eff
  unfold execRoosterTick; exact onUnit_has _ _ _
theorem tickMiss (r : Nat) : Statement (.tickMiss r) := fun s => by
  show ∃ eff, execTickMiss r s = onUnit (r < 40) s eff
  unfold execTickMiss; exact onUnit_has _ _ _
theorem epochMark (r : Nat) : Statement (.epochMark r) := fun s => by
  show ∃ eff, execEpochMark r s = onUnit (r < 40) s eff
  unfold execEpochMark; exact onUnit_has _ _ _
theorem slipRecovered (r : Nat) : Statement (.slipRecovered r) := fun s => by
  show ∃ eff, execSlipRecovered r s = onUnit (r < 40) s eff
  unfold execSlipRecovered; exact onUnit_has _ _ _
theorem resync (r : Nat) : Statement (.resync r) := fun s => by
  show ∃ eff, execResync r s = onUnit (r < 40) s eff
  unfold execResync; exact onUnit_has _ _ _
theorem droopTrip (r : Nat) (mv : Nat) : Statement (.droopTrip r mv) := fun s => by
  show ∃ eff, execDroopTrip r mv s = onUnit (r < 40) s eff
  unfold execDroopTrip; exact onUnit_has _ _ _
theorem droopClear (r : Nat) : Statement (.droopClear r) := fun s => by
  show ∃ eff, execDroopClear r s = onUnit (r < 40) s eff
  unfold execDroopClear; exact onUnit_has _ _ _
theorem fChange : Statement (.fChange) := fun s => by
  show ∃ eff, execFChange s = onUnit (true) s eff
  unfold execFChange; exact onUnit_has _ _ _
theorem fixed (w : Party) (on : Bool) : Statement (.fixed w on) := fun s => by
  show ∃ eff, execFixed w on s = onUnit (partyOk w) s eff
  unfold execFixed regRow; exact onUnit_has _ _ _
theorem fixedMhz (w : Party) (mhz : Nat) : Statement (.fixedMhz w mhz) := fun s => by
  show ∃ eff, execFixedMhz w mhz s = onUnit (mhz < 2048 && partyOk w) s eff
  unfold execFixedMhz regRow; exact onUnit_has _ _ _
theorem fixedClockApply : Statement (.fixedClockApply) := fun s => by
  show ∃ eff, execFixedClockApply s = onUnit (true) s eff
  unfold execFixedClockApply; exact onUnit_has _ _ _
theorem refLost : Statement (.refLost) := fun s => by
  show ∃ eff, execRefLost s = onUnit (true) s eff
  unfold execRefLost; exact onUnit_has _ _ _
theorem refRestored : Statement (.refRestored) := fun s => by
  show ∃ eff, execRefRestored s = onUnit (true) s eff
  unfold execRefRestored; exact onUnit_has _ _ _
theorem fabricLockLoss : Statement (.fabricLockLoss) := fun s => by
  show ∃ eff, execFabricLockLoss s = onUnit (true) s eff
  unfold execFabricLockLoss; exact onUnit_has _ _ _
theorem oxPassStart (e : EdgeId) (sh : Nat) (i : Nat) : Statement (.oxPassStart e sh i) := fun s => by
  show ∃ eff, execOxPassStart e sh i s = onUnit (shareOk e sh i) s eff
  unfold execOxPassStart; exact onUnit_has _ _ _
theorem oxPassComplete (e : EdgeId) (sh : Nat) (i : Nat) (bad : List Nat) : Statement (.oxPassComplete e sh i bad) := fun s => by
  show ∃ eff, execOxPassComplete e sh i bad s = onUnit (shareOk e sh i) s eff
  unfold execOxPassComplete; exact onUnit_has _ _ _
theorem oxLatePoint (e : EdgeId) (sh : Nat) (i : Nat) : Statement (.oxLatePoint e sh i) := fun s => by
  show ∃ eff, execOxLatePoint e sh i s = onUnit (shareOk e sh i) s eff
  unfold execOxLatePoint; exact onUnit_has _ _ _
theorem stagingMiss (e : EdgeId) (ep : Nat) : Statement (.stagingMiss e ep) := fun s => by
  show ∃ eff, execStagingMiss e ep s = onUnit (match e with | .hbm x => x < 16 && ep < 25 | .iod d => d < 4 && ep < 50) s eff
  unfold execStagingMiss; exact onUnit_has _ _ _
theorem edgEstData (w : Party) (x : Nat) (v : Dword) : Statement (.edgEstData w x v) := fun s => by
  show ∃ eff, execEdgEstData w x v s = onUnit (x < 16 && partyOk w) s eff
  unfold execEdgEstData regRow; exact onUnit_has _ _ _
theorem edgEstPort (w : Party) (x : Nat) (v : Dword) : Statement (.edgEstPort w x v) := fun s => by
  show ∃ eff, execEdgEstPort w x v s = onUnit (x < 16 && partyOk w) s eff
  unfold execEdgEstPort regRow; exact onUnit_has _ _ _
theorem iraEstData (w : Party) (d : Nat) (v : Dword) : Statement (.iraEstData w d v) := fun s => by
  show ∃ eff, execIraEstData w d v s = onUnit (d < 4 && partyOk w) s eff
  unfold execIraEstData regRow; exact onUnit_has _ _ _
theorem iraEstPort (w : Party) (d : Nat) (v : Dword) : Statement (.iraEstPort w d v) := fun s => by
  show ∃ eff, execIraEstPort w d v s = onUnit (d < 4 && partyOk w) s eff
  unfold execIraEstPort regRow; exact onUnit_has _ _ _
theorem ringRead (x : Nat) (bad : List Nat) : Statement (.ringRead x bad) := fun s => by
  show ∃ eff, execRingRead x bad s = onUnit (x < 16) s eff
  unfold execRingRead ringRow; exact onUnit_has _ _ _
theorem ringWrite (x : Nat) : Statement (.ringWrite x) := fun s => by
  show ∃ eff, execRingWrite x s = onUnit (x < 16) s eff
  unfold execRingWrite ringRow; exact onUnit_has _ _ _
theorem ringAtomic (x : Nat) (bad : Bool) : Statement (.ringAtomic x bad) := fun s => by
  show ∃ eff, execRingAtomic x bad s = onUnit (x < 16) s eff
  unfold execRingAtomic ringRow; exact onUnit_has _ _ _
theorem hbmEccPoll (x : Nat) (reports : List EccReport) : Statement (.hbmEccPoll x reports) := fun s => by
  show ∃ eff, execHbmEccPoll x reports s = onUnit (x < 16 && reports.all fun r => r.channel < 32) s eff
  unfold execHbmEccPoll; exact onUnit_has _ _ _
theorem hbmChannelFail (x : Nat) (c : Nat) : Statement (.hbmChannelFail x c) := fun s => by
  show ∃ eff, execHbmChannelFail x c s = onUnit (x < 16 && c < 32) s eff
  unfold execHbmChannelFail; exact onUnit_has _ _ _
theorem handoverComplete (page : Nat) : Statement (.handoverComplete page) := fun s => by
  show ∃ eff, execHandoverComplete page s = onUnit (page < 524288) s eff
  unfold execHandoverComplete; exact onUnit_has _ _ _
theorem pageZeroingComplete (page : Nat) : Statement (.pageZeroingComplete page) := fun s => by
  show ∃ eff, execPageZeroingComplete page s = onUnit (page < 524288) s eff
  unfold execPageZeroingComplete; exact onUnit_has _ _ _
theorem devId (w : Party) (v : Dword) : Statement (.devId w v) := fun s => by
  show ∃ eff, execDevId w v s = onUnit (partyOk w) s eff
  unfold execDevId regRow; exact onUnit_has _ _ _
theorem devidRewriteComplete : Statement (.devidRewriteComplete) := fun s => by
  show ∃ eff, execDevidRewriteComplete s = onUnit (true) s eff
  unfold execDevidRewriteComplete; exact onUnit_has _ _ _
theorem iraRoute (w : Party) (d : Nat) (v : Dword) : Statement (.iraRoute w d v) := fun s => by
  show ∃ eff, execIraRoute w d v s = onUnit (d < 4 && partyOk w) s eff
  unfold execIraRoute regRow; exact onUnit_has _ _ _
theorem quiesce (w : Party) (d : Nat) (on : Bool) : Statement (.quiesce w d on) := fun s => by
  show ∃ eff, execQuiesce w d on s = onUnit (d < 4 && partyOk w) s eff
  unfold execQuiesce regRow; exact onUnit_has _ _ _
theorem gmSelf (w : Party) (on : Bool) : Statement (.gmSelf w on) := fun s => by
  show ∃ eff, execGmSelf w on s = onUnit (partyOk w) s eff
  unfold execGmSelf regRow; exact onUnit_has _ _ _
theorem codewordReceived (port : Nat) (lane : Nat) (frame : Nat) (errs : CodeErrors) (flits : List Line) : Statement (.codewordReceived port lane frame errs flits) := fun s => by
  show ∃ eff, execCodewordReceived port lane frame errs flits s = onUnit (port < 48 && lane < 9) s eff
  unfold execCodewordReceived; exact onUnit_has _ _ _
theorem load (port : Nat) : Statement (.load port) := fun s => by
  show ∃ eff, execLoad port s = onUnit (port < 48) s eff
  unfold execLoad memoryRow fabricRow; exact onUnit_has _ _ _
theorem store (port : Nat) : Statement (.store port) := fun s => by
  show ∃ eff, execStore port s = onUnit (port < 48) s eff
  unfold execStore memoryRow fabricRow; exact onUnit_has _ _ _
theorem storeMasked (port : Nat) : Statement (.storeMasked port) := fun s => by
  show ∃ eff, execStoreMasked port s = onUnit (port < 48) s eff
  unfold execStoreMasked memoryRow fabricRow; exact onUnit_has _ _ _
theorem atomicSwap (port : Nat) : Statement (.atomicSwap port) := fun s => by
  show ∃ eff, execAtomicSwap port s = onUnit (port < 48) s eff
  unfold execAtomicSwap atomicRow fabricRow; exact onUnit_has _ _ _
theorem atomicCas (port : Nat) : Statement (.atomicCas port) := fun s => by
  show ∃ eff, execAtomicCas port s = onUnit (port < 48) s eff
  unfold execAtomicCas atomicRow fabricRow; exact onUnit_has _ _ _
theorem atomicAdd (port : Nat) : Statement (.atomicAdd port) := fun s => by
  show ∃ eff, execAtomicAdd port s = onUnit (port < 48) s eff
  unfold execAtomicAdd atomicRow fabricRow; exact onUnit_has _ _ _
theorem atomicAnd (port : Nat) : Statement (.atomicAnd port) := fun s => by
  show ∃ eff, execAtomicAnd port s = onUnit (port < 48) s eff
  unfold execAtomicAnd atomicRow fabricRow; exact onUnit_has _ _ _
theorem atomicOr (port : Nat) : Statement (.atomicOr port) := fun s => by
  show ∃ eff, execAtomicOr port s = onUnit (port < 48) s eff
  unfold execAtomicOr atomicRow fabricRow; exact onUnit_has _ _ _
theorem atomicXor (port : Nat) : Statement (.atomicXor port) := fun s => by
  show ∃ eff, execAtomicXor port s = onUnit (port < 48) s eff
  unfold execAtomicXor atomicRow fabricRow; exact onUnit_has _ _ _
theorem atomicMaxu (port : Nat) : Statement (.atomicMaxu port) := fun s => by
  show ∃ eff, execAtomicMaxu port s = onUnit (port < 48) s eff
  unfold execAtomicMaxu atomicRow fabricRow; exact onUnit_has _ _ _
theorem atomicMinu (port : Nat) : Statement (.atomicMinu port) := fun s => by
  show ∃ eff, execAtomicMinu port s = onUnit (port < 48) s eff
  unfold execAtomicMinu atomicRow fabricRow; exact onUnit_has _ _ _
theorem irantHandover (port : Nat) : Statement (.irantHandover port) := fun s => by
  show ∃ eff, execIrantHandover port s = onUnit (port < 48) s eff
  unfold execIrantHandover fabricRow; exact onUnit_has _ _ _
theorem reclaim (port : Nat) : Statement (.reclaim port) := fun s => by
  show ∃ eff, execReclaim port s = onUnit (port < 48) s eff
  unfold execReclaim fabricRow; exact onUnit_has _ _ _
theorem ctlRead (port : Nat) : Statement (.ctlRead port) := fun s => by
  show ∃ eff, execCtlRead port s = onUnit (port < 48) s eff
  unfold execCtlRead fabricRow; exact onUnit_has _ _ _
theorem ctlWrite (port : Nat) : Statement (.ctlWrite port) := fun s => by
  show ∃ eff, execCtlWrite port s = onUnit (port < 48) s eff
  unfold execCtlWrite fabricRow; exact onUnit_has _ _ _
theorem rsp (port : Nat) : Statement (.rsp port) := fun s => by
  show ∃ eff, execRsp port s = onUnit (port < 48) s eff
  unfold execRsp; exact onUnit_has _ _ _
theorem requestExpired (port : Nat) : Statement (.requestExpired port) := fun s => by
  show ∃ eff, execRequestExpired port s = onUnit (port < 48) s eff
  unfold execRequestExpired; exact onUnit_has _ _ _
theorem requestTimeout (d : Nat) (tag : Nat) : Statement (.requestTimeout d tag) := fun s => by
  show ∃ eff, execRequestTimeout d tag s = onUnit (d < 4) s eff
  unfold execRequestTimeout; exact onUnit_has _ _ _
theorem transitForward (port : Nat) : Statement (.transitForward port) := fun s => by
  show ∃ eff, execTransitForward port s = onUnit (port < 48) s eff
  unfold execTransitForward; exact onUnit_has _ _ _
theorem ack (port : Nat) : Statement (.ack port) := fun s => by
  show ∃ eff, execAck port s = onUnit (port < 48) s eff
  unfold execAck linkRow; exact onUnit_has _ _ _
theorem nak (port : Nat) : Statement (.nak port) := fun s => by
  show ∃ eff, execNak port s = onUnit (port < 48) s eff
  unfold execNak linkRow; exact onUnit_has _ _ _
theorem credit (port : Nat) : Statement (.credit port) := fun s => by
  show ∃ eff, execCredit port s = onUnit (port < 48) s eff
  unfold execCredit linkRow; exact onUnit_has _ _ _
theorem timeSync (port : Nat) (t2 : Dword) (t3 : Dword) : Statement (.timeSync port t2 t3) := fun s => by
  show ∃ eff, execTimeSync port t2 t3 s = onUnit (port < 48) s eff
  unfold execTimeSync linkRow; exact onUnit_has _ _ _
theorem timeResp (port : Nat) (t4 : Dword) : Statement (.timeResp port t4) := fun s => by
  show ∃ eff, execTimeResp port t4 s = onUnit (port < 48) s eff
  unfold execTimeResp linkRow; exact onUnit_has _ _ _
theorem depart (port : Nat) : Statement (.depart port) := fun s => by
  show ∃ eff, execDepart port s = onUnit (port < 48) s eff
  unfold execDepart linkRow; exact onUnit_has _ _ _
theorem admitted (port : Nat) : Statement (.admitted port) := fun s => by
  show ∃ eff, execAdmitted port s = onUnit (port < 48) s eff
  unfold execAdmitted linkRow; exact onUnit_has _ _ _
theorem laneMap (port : Nat) : Statement (.laneMap port) := fun s => by
  show ∃ eff, execLaneMap port s = onUnit (port < 48) s eff
  unfold execLaneMap linkRow; exact onUnit_has _ _ _
theorem laneSwitch (port : Nat) : Statement (.laneSwitch port) := fun s => by
  show ∃ eff, execLaneSwitch port s = onUnit (port < 48) s eff
  unfold execLaneSwitch; exact onUnit_has _ _ _
theorem laneRetire (port : Nat) (lane : Nat) : Statement (.laneRetire port lane) := fun s => by
  show ∃ eff, execLaneRetire port lane s = onUnit (port < 48 && lane < 9) s eff
  unfold execLaneRetire; exact onUnit_has _ _ _
theorem portSignalLoss (port : Nat) : Statement (.portSignalLoss port) := fun s => by
  show ∃ eff, execPortSignalLoss port s = onUnit (port < 48) s eff
  unfold execPortSignalLoss; exact onUnit_has _ _ _
theorem ackTimer (port : Nat) : Statement (.ackTimer port) := fun s => by
  show ∃ eff, execAckTimer port s = onUnit (port < 48) s eff
  unfold execAckTimer; exact onUnit_has _ _ _
theorem creditTimer (port : Nat) : Statement (.creditTimer port) := fun s => by
  show ∃ eff, execCreditTimer port s = onUnit (port < 48) s eff
  unfold execCreditTimer; exact onUnit_has _ _ _
theorem timeSyncTimer (port : Nat) (t1 : Dword) : Statement (.timeSyncTimer port t1) := fun s => by
  show ∃ eff, execTimeSyncTimer port t1 s = onUnit (port < 48) s eff
  unfold execTimeSyncTimer; exact onUnit_has _ _ _
theorem retrain (w : Party) (d : Nat) (full : Bool) : Statement (.retrain w d full) := fun s => by
  show ∃ eff, execRetrain w d full s = onUnit (d < 4 && partyOk w) s eff
  unfold execRetrain regRow; exact onUnit_has _ _ _
theorem retire (w : Party) (d : Nat) : Statement (.retire w d) := fun s => by
  show ∃ eff, execRetire w d s = onUnit (d < 4 && partyOk w) s eff
  unfold execRetire regRow; exact onUnit_has _ _ _
theorem autoRetrain (port : Nat) : Statement (.autoRetrain port) := fun s => by
  show ∃ eff, execAutoRetrain port s = onUnit (port < 48) s eff
  unfold execAutoRetrain; exact onUnit_has _ _ _
theorem replayDrainEnd (port : Nat) : Statement (.replayDrainEnd port) := fun s => by
  show ∃ eff, execReplayDrainEnd port s = onUnit (port < 48) s eff
  unfold execReplayDrainEnd; exact onUnit_has _ _ _
theorem portTrainingComplete (trained : PortTraining) : Statement (.portTrainingComplete trained) := fun s => by
  show ∃ eff, execPortTrainingComplete trained s = onUnit (trained.port < 48) s eff
  unfold execPortTrainingComplete; exact onUnit_has _ _ _
theorem portQualificationComplete (port : Nat) (badLanes : List Nat) : Statement (.portQualificationComplete port badLanes) := fun s => by
  show ∃ eff, execPortQualificationComplete port badLanes s = onUnit (port < 48 && badLanes.all fun l => l < 9) s eff
  unfold execPortQualificationComplete; exact onUnit_has _ _ _
theorem colPassDue (c : Nat) (i : Nat) : Statement (.colPassDue c i) := fun s => by
  show ∃ eff, execColPassDue c i s = onUnit (c < 64) s eff
  unfold execColPassDue; exact onUnit_has _ _ _
theorem contrib (port : Nat) : Statement (.contrib port) := fun s => by
  show ∃ eff, execContrib port s = onUnit (port < 48) s eff
  unfold execContrib colRow; exact onUnit_has _ _ _
theorem chunkClose (c : Nat) (seq : Nat) (ch : Nat) : Statement (.chunkClose c seq ch) := fun s => by
  show ∃ eff, execChunkClose c seq ch s = onUnit (c < 64) s eff
  unfold execChunkClose; exact onUnit_has _ _ _
theorem result (port : Nat) : Statement (.result port) := fun s => by
  show ∃ eff, execResult port s = onUnit (port < 48) s eff
  unfold execResult colRow; exact onUnit_has _ _ _
theorem roster (port : Nat) : Statement (.roster port) := fun s => by
  show ∃ eff, execRoster port s = onUnit (port < 48) s eff
  unfold execRoster colRow; exact onUnit_has _ _ _
theorem lateNotice (port : Nat) : Statement (.lateNotice port) := fun s => by
  show ∃ eff, execLateNotice port s = onUnit (port < 48) s eff
  unfold execLateNotice colRow; exact onUnit_has _ _ _
theorem chunkGiveUp (c : Nat) (seq : Nat) (ch : Nat) : Statement (.chunkGiveUp c seq ch) := fun s => by
  show ∃ eff, execChunkGiveUp c seq ch s = onUnit (c < 64) s eff
  unfold execChunkGiveUp; exact onUnit_has _ _ _
theorem freeze (w : Party) (on : Bool) : Statement (.freeze w on) := fun s => by
  show ∃ eff, execFreeze w on s = onUnit (partyOk w) s eff
  unfold execFreeze regRow; exact onUnit_has _ _ _
theorem powerGood : Statement (.powerGood) := fun s => by
  show ∃ eff, execPowerGood s = onUnit (true) s eff
  unfold execPowerGood; exact onUnit_has _ _ _
theorem controllerFirmware : Statement (.controllerFirmware) := fun s => by
  show ∃ eff, execControllerFirmware s = onUnit (true) s eff
  unfold execControllerFirmware; exact onUnit_has _ _ _
theorem halfAlwaysOnPower (ok : Bool) : Statement (.halfAlwaysOnPower ok) := fun s => by
  show ∃ eff, execHalfAlwaysOnPower ok s = onUnit (true) s eff
  unfold execHalfAlwaysOnPower; exact onUnit_has _ _ _
theorem fuseMaps : Statement (.fuseMaps) := fun s => by
  show ∃ eff, execFuseMaps s = onUnit (true) s eff
  unfold execFuseMaps; exact onUnit_has _ _ _
theorem seamAndBridgeRepair (found : SeamFindings) : Statement (.seamAndBridgeRepair found) := fun s => by
  show ∃ eff, execSeamAndBridgeRepair found s = onUnit (found.groups.all (fun g => isSeam g.1) && found.wires.all fun w => isWire (.bridge w.1 w.2.1 w.2.2)) s eff
  unfold execSeamAndBridgeRepair; exact onUnit_has _ _ _
theorem bist (found : BistFindings) : Statement (.bist found) := fun s => by
  show ∃ eff, execBist found s = onUnit (found.tiles.all (fun t => t < 20000) && found.routers.all (fun t => t < 20000) && found.hens.all (fun r => r < 40) && found.phases.all (fun p => p.1 < 40 && p.2 < 64) && found.hbmStaging.all (fun x => x < 16) && found.iodStaging.all (fun d => d < 4) && found.tripped.all fun r => r < 40) s eff
  unfold execBist; exact onUnit_has _ _ _
theorem floorPlanMerge : Statement (.floorPlanMerge) := fun s => by
  show ∃ eff, execFloorPlanMerge s = onUnit (true) s eff
  unfold execFloorPlanMerge; exact onUnit_has _ _ _
theorem linkTraining (found : TrainFindings) : Statement (.linkTraining found) := fun s => by
  show ∃ eff, execLinkTraining found s = onUnit (found.segments.all (fun k => k < 20) && found.ticks.all (fun p => p.1 < 40 && p.2.1 < 6) && found.mbps.all (fun p => p.1 < 16) && found.peers.all fun p => p.1 < 48) s eff
  unfold execLinkTraining; exact onUnit_has _ _ _
theorem refclk : Statement (.refclk) := fun s => by
  show ∃ eff, execRefclk s = onUnit (true) s eff
  unfold execRefclk; exact onUnit_has _ _ _
theorem errorRateQualification (found : QualFindings) : Statement (.errorRateQualification found) := fun s => by
  show ∃ eff, execErrorRateQualification found s = onUnit (found.wires.all (fun w => isWire (.bridge w.1 w.2.1 w.2.2)) && found.lanes.all (fun w => isWire (.iodLane w.1 w.2.1 w.2.2)) && found.segments.all (fun k => k < 20) && found.channels.all fun q => q.1 < 16 && q.2 < 32) s eff
  unfold execErrorRateQualification; exact onUnit_has _ _ _
theorem publication : Statement (.publication) := fun s => by
  show ∃ eff, execPublication s = onUnit (true) s eff
  unfold execPublication; exact onUnit_has _ _ _
theorem stageTimeout : Statement (.stageTimeout) := fun s => by
  show ∃ eff, execStageTimeout s = onUnit (true) s eff
  unfold execStageTimeout; exact onUnit_has _ _ _
theorem watchdogExpiry : Statement (.watchdogExpiry) := fun s => by
  show ∃ eff, execWatchdogExpiry s = onUnit (true) s eff
  unfold execWatchdogExpiry; exact onUnit_has _ _ _
theorem activate (w : Party) : Statement (.activate w) := fun s => by
  show ∃ eff, execActivate w s = onUnit (partyOk w) s eff
  unfold execActivate regRow; exact onUnit_has _ _ _
theorem activationHealthy : Statement (.activationHealthy) := fun s => by
  show ∃ eff, execActivationHealthy s = onUnit (true) s eff
  unfold execActivationHealthy; exact onUnit_has _ _ _
theorem activationTimeout : Statement (.activationTimeout) := fun s => by
  show ∃ eff, execActivationTimeout s = onUnit (true) s eff
  unfold execActivationTimeout; exact onUnit_has _ _ _
theorem busbarShutdown : Statement (.busbarShutdown) := fun s => by
  show ∃ eff, execBusbarShutdown s = onUnit (true) s eff
  unfold execBusbarShutdown; exact onUnit_has _ _ _
theorem phaseFail (r : Nat) (ph : Nat) : Statement (.phaseFail r ph) := fun s => by
  show ∃ eff, execPhaseFail r ph s = onUnit (r < 40 && ph < 64) s eff
  unfold execPhaseFail; exact onUnit_has _ _ _
theorem trip (r : Nat) : Statement (.trip r) := fun s => by
  show ∃ eff, execTrip r s = onUnit (r < 40) s eff
  unfold execTrip; exact onUnit_has _ _ _
theorem blockReenable (r : Nat) : Statement (.blockReenable r) := fun s => by
  show ∃ eff, execBlockReenable r s = onUnit (r < 40) s eff
  unfold execBlockReenable; exact onUnit_has _ _ _
theorem dropMeasurement (r : Nat) (drop : Nat) (load : PhaseCurrent) : Statement (.dropMeasurement r drop load) := fun s => by
  show ∃ eff, execDropMeasurement r drop load s = onUnit (r < 40) s eff
  unfold execDropMeasurement; exact onUnit_has _ _ _
theorem rampRecheck (r : Nat) (loaded : Nat) : Statement (.rampRecheck r loaded) := fun s => by
  show ∃ eff, execRampRecheck r loaded s = onUnit (r < 40) s eff
  unfold execRampRecheck; exact onUnit_has _ _ _
theorem rampWaitLong (r : Nat) : Statement (.rampWaitLong r) := fun s => by
  show ∃ eff, execRampWaitLong r s = onUnit (r < 40) s eff
  unfold execRampWaitLong; exact onUnit_has _ _ _
theorem rampComplete (r : Nat) : Statement (.rampComplete r) := fun s => by
  show ∃ eff, execRampComplete r s = onUnit (r < 40) s eff
  unfold execRampComplete; exact onUnit_has _ _ _
theorem retentionEntry (r : Nat) : Statement (.retentionEntry r) := fun s => by
  show ∃ eff, execRetentionEntry r s = onUnit (r < 40) s eff
  unfold execRetentionEntry; exact onUnit_has _ _ _
theorem retentionExit (r : Nat) : Statement (.retentionExit r) := fun s => by
  show ∃ eff, execRetentionExit r s = onUnit (r < 40) s eff
  unfold execRetentionExit; exact onUnit_has _ _ _
theorem darkRunKill (r : Nat) : Statement (.darkRunKill r) := fun s => by
  show ∃ eff, execDarkRunKill r s = onUnit (r < 40) s eff
  unfold execDarkRunKill; exact onUnit_has _ _ _
theorem phase (r : Nat) (k : Token) : Statement (.phase r k) := fun s => by
  show ∃ eff, execPhase r k s = onUnit (r < 40) s eff
  unfold execPhase henToken; exact onUnit_has _ _ _
theorem budgetInterval (m : PowerMeas) : Statement (.budgetInterval m) := fun s => by
  show ∃ eff, execBudgetInterval m s = onUnit (true) s eff
  unfold execBudgetInterval; exact onUnit_has _ _ _
theorem report (n : NodeId) (k : Token) : Statement (.report n k) := fun s => by
  unfold exec
  cases n
  · unfold execReport henToken; exact onUnit_has _ _ _
  all_goals unfold execReport; exact onUnit_has _ _ _
theorem overBudgetReport (r : Nat) (amps : Nat) (m : PowerMeas) : Statement (.overBudgetReport r amps m) := fun s => by
  show ∃ eff, execOverBudgetReport r amps m s = onUnit (r < 40) s eff
  unfold execOverBudgetReport; exact onUnit_has _ _ _
theorem budget (r : Nat) (k : Token) : Statement (.budget r k) := fun s => by
  show ∃ eff, execBudget r k s = onUnit (r < 40) s eff
  unfold execBudget henToken; exact onUnit_has _ _ _
theorem dutySubperiod (p : Nat) : Statement (.dutySubperiod p) := fun s => by
  show ∃ eff, execDutySubperiod p s = onUnit (p < 16) s eff
  unfold execDutySubperiod; exact onUnit_has _ _ _
theorem dutyHoldEnd (p : Nat) : Statement (.dutyHoldEnd p) := fun s => by
  show ∃ eff, execDutyHoldEnd p s = onUnit (p < 16) s eff
  unfold execDutyHoldEnd; exact onUnit_has _ _ _
theorem hostCapW (w : Party) (watts : Nat) : Statement (.hostCapW w watts) := fun s => by
  show ∃ eff, execHostCapW w watts s = onUnit (watts < 65536 && partyOk w) s eff
  unfold execHostCapW regRow; exact onUnit_has _ _ _
theorem fmCapW (w : Party) (watts : Nat) : Statement (.fmCapW w watts) := fun s => by
  show ∃ eff, execFmCapW w watts s = onUnit (watts < 65536 && partyOk w) s eff
  unfold execFmCapW regRow; exact onUnit_has _ _ _
theorem floorRecompute (m : PowerMeas) : Statement (.floorRecompute m) := fun s => by
  show ∃ eff, execFloorRecompute m s = onUnit (true) s eff
  unfold execFloorRecompute; exact onUnit_has _ _ _
theorem derate (r : Nat) (temp : Nat) : Statement (.derate r temp) := fun s => by
  show ∃ eff, execDerate r temp s = onUnit (r < 40) s eff
  unfold execDerate; exact onUnit_has _ _ _
theorem heatOff (r : Nat) : Statement (.heatOff r) := fun s => by
  show ∃ eff, execHeatOff r s = onUnit (r < 40) s eff
  unfold execHeatOff; exact onUnit_has _ _ _
theorem heatReturn (r : Nat) : Statement (.heatReturn r) := fun s => by
  show ∃ eff, execHeatReturn r s = onUnit (r < 40) s eff
  unfold execHeatReturn; exact onUnit_has _ _ _
theorem thermTrip (r : Nat) : Statement (.thermTrip r) := fun s => by
  show ∃ eff, execThermTrip r s = onUnit (r < 40) s eff
  unfold execThermTrip; exact onUnit_has _ _ _
theorem thermTripRailOff (r : Nat) : Statement (.thermTripRailOff r) := fun s => by
  show ∃ eff, execThermTripRailOff r s = onUnit (r < 40) s eff
  unfold execThermTripRailOff; exact onUnit_has _ _ _
theorem iodHot (d : Nat) : Statement (.iodHot d) := fun s => by
  show ∃ eff, execIodHot d s = onUnit (d < 4) s eff
  unfold execIodHot; exact onUnit_has _ _ _
theorem iodCool (d : Nat) : Statement (.iodCool d) := fun s => by
  show ∃ eff, execIodCool d s = onUnit (d < 4) s eff
  unfold execIodCool; exact onUnit_has _ _ _
theorem iodTrip (d : Nat) : Statement (.iodTrip d) := fun s => by
  show ∃ eff, execIodTrip d s = onUnit (d < 4) s eff
  unfold execIodTrip; exact onUnit_has _ _ _
theorem hbmHot (x : Nat) : Statement (.hbmHot x) := fun s => by
  show ∃ eff, execHbmHot x s = onUnit (x < 16) s eff
  unfold execHbmHot; exact onUnit_has _ _ _
theorem coolantLoss : Statement (.coolantLoss) := fun s => by
  show ∃ eff, execCoolantLoss s = onUnit (true) s eff
  unfold execCoolantLoss; exact onUnit_has _ _ _
theorem coolantRailCheck (westRose : Bool) (eastRose : Bool) : Statement (.coolantRailCheck westRose eastRose) := fun s => by
  show ∃ eff, execCoolantRailCheck westRose eastRose s = onUnit (true) s eff
  unfold execCoolantRailCheck; exact onUnit_has _ _ _
theorem coolantDepart : Statement (.coolantDepart) := fun s => by
  show ∃ eff, execCoolantDepart s = onUnit (true) s eff
  unfold execCoolantDepart; exact onUnit_has _ _ _
theorem coolantReturn : Statement (.coolantReturn) := fun s => by
  show ∃ eff, execCoolantReturn s = onUnit (true) s eff
  unfold execCoolantReturn; exact onUnit_has _ _ _
theorem moduleReset : Statement (.moduleReset) := fun s => by
  show ∃ eff, execModuleReset s = onUnit (true) s eff
  unfold execModuleReset; exact onUnit_has _ _ _
theorem residueMismatch (t : Nat) (router : Bool) (unit : Nat) (residue : ResidueCheck) : Statement (.residueMismatch t router unit residue) := fun s => by
  show ∃ eff, execResidueMismatch t router unit residue s = onUnit (t < 20000 && if router then unit < 5 else unit < 4) s eff
  unfold execResidueMismatch; exact onUnit_has _ _ _
theorem tileDue (t : Nat) : Statement (.tileDue t) := fun s => by
  show ∃ eff, execTileDue t s = onUnit (t < 20000) s eff
  unfold execTileDue testAge; exact onUnit_has _ _ _
theorem tileOverdue (t : Nat) : Statement (.tileOverdue t) := fun s => by
  show ∃ eff, execTileOverdue t s = onUnit (t < 20000) s eff
  unfold execTileOverdue testAge; exact onUnit_has _ _ _
theorem tileLapsed (t : Nat) : Statement (.tileLapsed t) := fun s => by
  show ∃ eff, execTileLapsed t s = onUnit (t < 20000) s eff
  unfold execTileLapsed testAge; exact onUnit_has _ _ _
theorem idleRegionTest (t : Nat) : Statement (.idleRegionTest t) := fun s => by
  show ∃ eff, execIdleRegionTest t s = onUnit (t < 20000) s eff
  unfold execIdleRegionTest; exact onUnit_has _ _ _
theorem fallowWindow (r : Nat) (i : Nat) : Statement (.fallowWindow r i) := fun s => by
  show ∃ eff, execFallowWindow r i s = onUnit (r < 40) s eff
  unfold execFallowWindow; exact onUnit_has _ _ _
theorem iftComplete (t : Nat) (o : TestOutcome) (routerOk : Bool) : Statement (.iftComplete t o routerOk) := fun s => by
  show ∃ eff, execIftComplete t o routerOk s = onUnit (t < 20000) s eff
  unfold execIftComplete; exact onUnit_has _ _ _
theorem grant (w : Party) (r : Nat) : Statement (.grant w r) := fun s => by
  show ∃ eff, execGrant w r s = onUnit (r < 40 && partyOk w) s eff
  unfold execGrant regRow; exact onUnit_has _ _ _
theorem testOverdue (k : Token) : Statement (.testOverdue k) := fun s => by
  show ∃ eff, execTestOverdue k s = onUnit (true) s eff
  unfold execTestOverdue mcTest; exact onUnit_has _ _ _
theorem testGrant (r : Nat) (k : Token) : Statement (.testGrant r k) := fun s => by
  show ∃ eff, execTestGrant r k s = onUnit (r < 40) s eff
  unfold execTestGrant henToken; exact onUnit_has _ _ _
theorem testDone (r : Nat) (k : Token) : Statement (.testDone r k) := fun s => by
  show ∃ eff, execTestDone r k s = onUnit (r < 40) s eff
  unfold execTestDone henToken; exact onUnit_has _ _ _
theorem testLapsed (k : Token) : Statement (.testLapsed k) := fun s => by
  show ∃ eff, execTestLapsed k s = onUnit (true) s eff
  unfold execTestLapsed mcTest; exact onUnit_has _ _ _
theorem wireRetire (corrected : WireCorrections) : Statement (.wireRetire corrected) := fun s => by
  show ∃ eff, execWireRetire corrected s = onUnit (isWire corrected.wire) s eff
  unfold execWireRetire; exact onUnit_has _ _ _
theorem doubleWireError (wire : WireId) : Statement (.doubleWireError wire) := fun s => by
  show ∃ eff, execDoubleWireError wire s = onUnit (isWire wire) s eff
  unfold execDoubleWireError; exact onUnit_has _ _ _
theorem henPoll (r : Nat) (ok : Bool) : Statement (.henPoll r ok) := fun s => by
  show ∃ eff, execHenPoll r ok s = onUnit (r < 40) s eff
  unfold execHenPoll; exact onUnit_has _ _ _
theorem ringSegmentFail (seg : Nat) : Statement (.ringSegmentFail seg) := fun s => by
  show ∃ eff, execRingSegmentFail seg s = onUnit (seg < 20) s eff
  unfold execRingSegmentFail; exact onUnit_has _ _ _
theorem controlCrossingFail (south : Bool) : Statement (.controlCrossingFail south) := fun s => by
  show ∃ eff, execControlCrossingFail south s = onUnit (true) s eff
  unfold execControlCrossingFail; exact onUnit_has _ _ _
theorem mapPublication : Statement (.mapPublication) := fun s => by
  show ∃ eff, execMapPublication s = onUnit (true) s eff
  unfold execMapPublication; exact onUnit_has _ _ _
theorem cperMergeRelease : Statement (.cperMergeRelease) := fun s => by
  show ∃ eff, execCperMergeRelease s = onUnit (true) s eff
  unfold execCperMergeRelease; exact onUnit_has _ _ _
theorem telemetrySwap (r : Nat) (m : TlmMeas) : Statement (.telemetrySwap r m) := fun s => by
  show ∃ eff, execTelemetrySwap r m s = onUnit (r < 40) s eff
  unfold execTelemetrySwap; exact onUnit_has _ _ _
theorem doorbell (w : Party) : Statement (.doorbell w) := fun s => by
  show ∃ eff, execDoorbell w s = onUnit (partyOk w) s eff
  unfold execDoorbell regRow; exact onUnit_has _ _ _
theorem fdlRead : Statement (.fdlRead) := fun s => by
  show ∃ eff, execFdlRead s = onUnit (true) s eff
  unfold execFdlRead mailRow; exact onUnit_has _ _ _
theorem configRead : Statement (.configRead) := fun s => by
  show ∃ eff, execConfigRead s = onUnit (true) s eff
  unfold execConfigRead mailRow; exact onUnit_has _ _ _
theorem configWrite : Statement (.configWrite) := fun s => by
  show ∃ eff, execConfigWrite s = onUnit (true) s eff
  unfold execConfigWrite mailRow; exact onUnit_has _ _ _
theorem fwWrite : Statement (.fwWrite) := fun s => by
  show ∃ eff, execFwWrite s = onUnit (true) s eff
  unfold execFwWrite mailRow; exact onUnit_has _ _ _
theorem fwCommit : Statement (.fwCommit) := fun s => by
  show ∃ eff, execFwCommit s = onUnit (true) s eff
  unfold execFwCommit mailRow; exact onUnit_has _ _ _
theorem keyBootstrap : Statement (.keyBootstrap) := fun s => by
  show ∃ eff, execKeyBootstrap s = onUnit (true) s eff
  unfold execKeyBootstrap mailRow; exact onUnit_has _ _ _
theorem ilv (w : Party) (on : Bool) : Statement (.ilv w on) := fun s => by
  show ∃ eff, execIlv w on s = onUnit (partyOk w) s eff
  unfold execIlv regRow; exact onUnit_has _ _ _
theorem tail (w : Party) (f : Nat) (tail : Nat) (host : List (Nat × Byte)) : Statement (.tail w f tail host) := fun s => by
  show ∃ eff, execTail w f tail host s = onUnit (f ≤ 16 && tail < 4096 && partyOk w) s eff
  unfold execTail; exact onUnit_has _ _ _
theorem head (w : Party) (f : Nat) (head : Nat) : Statement (.head w f head) := fun s => by
  show ∃ eff, execHead w f head s = onUnit (f ≤ 16 && head < 4096 && partyOk w) s eff
  unfold execHead regRow; exact onUnit_has _ _ _
theorem enable (w : Party) (f : Nat) (cq : Bool) (on : Bool) : Statement (.enable w f cq on) := fun s => by
  show ∃ eff, execEnable w f cq on s = onUnit (f ≤ 16 && partyOk w) s eff
  unfold execEnable regRow; exact onUnit_has _ _ _
theorem windowReg (f : Nat) : Statement (.windowReg f) := fun s => by
  show ∃ eff, execWindowReg f s = onUnit (f ≤ 16) s eff
  unfold execWindowReg ringCmd; exact onUnit_has _ _ _
theorem windowUnreg (f : Nat) : Statement (.windowUnreg f) := fun s => by
  show ∃ eff, execWindowUnreg f s = onUnit (f ≤ 16) s eff
  unfold execWindowUnreg ringCmd; exact onUnit_has _ _ _
theorem dmaH2d (f : Nat) : Statement (.dmaH2d f) := fun s => by
  show ∃ eff, execDmaH2d f s = onUnit (f ≤ 16) s eff
  unfold execDmaH2d dmaRow ringCmd; exact onUnit_has _ _ _
theorem dmaD2h (f : Nat) : Statement (.dmaD2h f) := fun s => by
  show ∃ eff, execDmaD2h f s = onUnit (f ≤ 16) s eff
  unfold execDmaD2h dmaRow ringCmd; exact onUnit_has _ _ _
theorem dmaComplete (f : Nat) (cid : Nat) (host : List (Nat × Byte)) : Statement (.dmaComplete f cid host) := fun s => by
  show ∃ eff, execDmaComplete f cid host s = onUnit (f ≤ 16 && cid < 65536) s eff
  unfold execDmaComplete; exact onUnit_has _ _ _
theorem imageLoad (f : Nat) (img : Image) : Statement (.imageLoad f img) := fun s => by
  show ∃ eff, execImageLoad f img s = onUnit (f ≤ 16) s eff
  unfold execImageLoad; exact onUnit_has _ _ _
theorem imageLoadComplete (p : Nat) : Statement (.imageLoadComplete p) := fun s => by
  show ∃ eff, execImageLoadComplete p s = onUnit (p < 16) s eff
  unfold execImageLoadComplete; exact onUnit_has _ _ _
theorem runStart (f : Nat) : Statement (.runStart f) := fun s => by
  show ∃ eff, execRunStart f s = onUnit (f ≤ 16) s eff
  unfold execRunStart ringCmd; exact onUnit_has _ _ _
theorem runKill (f : Nat) : Statement (.runKill f) := fun s => by
  show ∃ eff, execRunKill f s = onUnit (f ≤ 16) s eff
  unfold execRunKill ringCmd; exact onUnit_has _ _ _
theorem handover (f : Nat) : Statement (.handover f) := fun s => by
  show ∃ eff, execHandover f s = onUnit (f ≤ 16) s eff
  unfold execHandover ringCmd; exact onUnit_has _ _ _
theorem partCreate : Statement (.partCreate) := fun s => by
  show ∃ eff, execPartCreate s = onUnit (true) s eff
  unfold execPartCreate ringCmd; exact onUnit_has _ _ _
theorem partReset : Statement (.partReset) := fun s => by
  show ∃ eff, execPartReset s = onUnit (true) s eff
  unfold execPartReset partCmd ringCmd; exact onUnit_has _ _ _
theorem partDestroy : Statement (.partDestroy) := fun s => by
  show ∃ eff, execPartDestroy s = onUnit (true) s eff
  unfold execPartDestroy partCmd ringCmd; exact onUnit_has _ _ _
theorem flrVf (f : Nat) : Statement (.flrVf f) := fun s => by
  show ∃ eff, execFlrVf f s = onUnit (1 ≤ f && f ≤ 16) s eff
  unfold execFlrVf; exact onUnit_has _ _ _
theorem flrPf : Statement (.flrPf) := fun s => by
  show ∃ eff, execFlrPf s = onUnit (true) s eff
  unfold execFlrPf; exact onUnit_has _ _ _
theorem perstFall : Statement (.perstFall) := fun s => by
  show ∃ eff, execPerstFall s = onUnit (true) s eff
  unfold execPerstFall; exact onUnit_has _ _ _
theorem perstRise : Statement (.perstRise) := fun s => by
  show ∃ eff, execPerstRise s = onUnit (true) s eff
  unfold execPerstRise; exact onUnit_has _ _ _
theorem certificateRetrieval (slot : Nat) : Statement (.certificateRetrieval slot) := fun s => by
  show ∃ eff, execCertificateRetrieval slot s = onUnit (slot < 8) s eff
  unfold execCertificateRetrieval; exact onUnit_has _ _ _
theorem challenge (nonce : List Byte) : Statement (.challenge nonce) := fun s => by
  show ∃ eff, execChallenge nonce s = onUnit (true) s eff
  unfold execChallenge; exact onUnit_has _ _ _
theorem signedMeasurements (slot : Nat) : Statement (.signedMeasurements slot) := fun s => by
  show ∃ eff, execSignedMeasurements slot s = onUnit (slot < 8) s eff
  unfold execSignedMeasurements; exact onUnit_has _ _ _
theorem keyExchange (sess : Nat) (key : List Byte) : Statement (.keyExchange sess key) := fun s => by
  show ∃ eff, execKeyExchange sess key s = onUnit (sess < 32) s eff
  unfold execKeyExchange; exact onUnit_has _ _ _
theorem finish (sess : Nat) : Statement (.finish sess) := fun s => by
  show ∃ eff, execFinish sess s = onUnit (sess < 32) s eff
  unfold execFinish sessionRow; exact onUnit_has _ _ _
theorem heartbeat (sess : Nat) : Statement (.heartbeat sess) := fun s => by
  show ∃ eff, execHeartbeat sess s = onUnit (sess < 32) s eff
  unfold execHeartbeat sessionRow; exact onUnit_has _ _ _
theorem keyUpdate (sess : Nat) : Statement (.keyUpdate sess) := fun s => by
  show ∃ eff, execKeyUpdate sess s = onUnit (sess < 32) s eff
  unfold execKeyUpdate sessionRow; exact onUnit_has _ _ _
theorem endSession (sess : Nat) : Statement (.endSession sess) := fun s => by
  show ∃ eff, execEndSession sess s = onUnit (sess < 32) s eff
  unfold execEndSession sessionRow; exact onUnit_has _ _ _
theorem sessionTimeout (sess : Nat) : Statement (.sessionTimeout sess) := fun s => by
  show ∃ eff, execSessionTimeout sess s = onUnit (sess < 32) s eff
  unfold execSessionTimeout; exact onUnit_has _ _ _
theorem bind (sess : Nat) (f : Nat) (fabric : Bool) : Statement (.bind sess f fabric) := fun s => by
  show ∃ eff, execBind sess f fabric s = onUnit (f < 32 && sess < 32) s eff
  unfold execBind messageRow; exact onUnit_has _ _ _
theorem unbind (sess : Nat) (f : Nat) (fabric : Bool) : Statement (.unbind sess f fabric) := fun s => by
  show ∃ eff, execUnbind sess f fabric s = onUnit (f < 32 && sess < 32) s eff
  unfold execUnbind messageRow; exact onUnit_has _ _ _
theorem keyEnroll (sess : Nat) (slot : Nat) (key : List Byte) (role : Role) (mask : BitVec 16) : Statement (.keyEnroll sess slot key role mask) := fun s => by
  show ∃ eff, execKeyEnroll sess slot key role mask s = onUnit (sess < 32) s eff
  unfold execKeyEnroll adminRow messageRow; exact onUnit_has _ _ _
theorem keyRemove (sess : Nat) (slot : Nat) : Statement (.keyRemove sess slot) := fun s => by
  show ∃ eff, execKeyRemove sess slot s = onUnit (sess < 32) s eff
  unfold execKeyRemove adminRow messageRow; exact onUnit_has _ _ _
theorem imageKeyEnroll (sess : Nat) (slot : Nat) (key : List Byte) : Statement (.imageKeyEnroll sess slot key) := fun s => by
  show ∃ eff, execImageKeyEnroll sess slot key s = onUnit (sess < 32) s eff
  unfold execImageKeyEnroll adminRow messageRow; exact onUnit_has _ _ _
theorem imageKeyRemove (sess : Nat) (slot : Nat) : Statement (.imageKeyRemove sess slot) := fun s => by
  show ∃ eff, execImageKeyRemove sess slot s = onUnit (sess < 32) s eff
  unfold execImageKeyRemove adminRow messageRow; exact onUnit_has _ _ _
theorem registerWrite (w : Party) (addr : Nat) (size : Nat) (v : Dword) : Statement (.registerWrite w addr size v) := fun s => by
  show ∃ eff, execRegisterWrite w addr size v s = onUnit (partyOk w && addr < 2 ^ 40) s eff
  unfold execRegisterWrite; exact onUnit_has _ _ _
theorem regionBeat (r : Nat) : Statement (.regionBeat r) := fun s => by
  show ∃ eff, execRegionBeat r s = onUnit (r < 40) s eff
  unfold execRegionBeat; exact onUnit_has _ _ _
theorem partitionSwapRequest (p : Nat) (beat : Nat) : Statement (.partitionSwapRequest p beat) := fun s => by
  show ∃ eff, execPartitionSwapRequest p beat s = onUnit (p < 16) s eff
  unfold execPartitionSwapRequest; exact onUnit_has _ _ _
theorem transitSwapRequest (regions : BitVec 40) (beat : Nat) : Statement (.transitSwapRequest regions beat) := fun s => by
  show ∃ eff, execTransitSwapRequest regions beat s = onUnit (true) s eff
  unfold execTransitSwapRequest; exact onUnit_has _ _ _
theorem perstNDelayEnd : Statement (.perstNDelayEnd) := fun s => by
  show ∃ eff, execPerstNDelayEnd s = onUnit (true) s eff
  unfold execPerstNDelayEnd; exact onUnit_has _ _ _
theorem dumpComplete (t : Nat) (ok : Bool) : Statement (.dumpComplete t ok) := fun s => by
  show ∃ eff, execDumpComplete t ok s = onUnit (t < 20000) s eff
  unfold execDumpComplete; exact onUnit_has _ _ _
theorem hbmSoftRepairComplete (x : Nat) (c : Nat) (bank : Nat) (row : Nat) : Statement (.hbmSoftRepairComplete x c bank row) := fun s => by
  show ∃ eff, execHbmSoftRepairComplete x c bank row s = onUnit (x < 16 && c < 32) s eff
  unfold execHbmSoftRepairComplete; exact onUnit_has _ _ _
theorem stagingBlockTest (e : EdgeId) (ok : Bool) : Statement (.stagingBlockTest e ok) := fun s => by
  show ∃ eff, execStagingBlockTest e ok s = onUnit (match e with | .hbm x => x < 16 | .iod d => d < 4) s eff
  unfold execStagingBlockTest; exact onUnit_has _ _ _
theorem hbmStackCool (x : Nat) : Statement (.hbmStackCool x) := fun s => by
  show ∃ eff, execHbmStackCool x s = onUnit (x < 16) s eff
  unfold execHbmStackCool; exact onUnit_has _ _ _
theorem commandedShutdown : Statement (.commandedShutdown) := fun s => by
  show ∃ eff, execCommandedShutdown s = onUnit (true) s eff
  unfold execCommandedShutdown; exact onUnit_has _ _ _
theorem spdmRecoveryImage (fw : List Byte) : Statement (.spdmRecoveryImage fw) := fun s => by
  show ∃ eff, execSpdmRecoveryImage fw s = onUnit (true) s eff
  unfold execSpdmRecoveryImage; exact onUnit_has _ _ _
theorem negotiateAlgorithms (offer : List Byte) : Statement (.negotiateAlgorithms offer) := fun s => by
  show ∃ eff, execNegotiateAlgorithms offer s = onUnit (true) s eff
  unfold execNegotiateAlgorithms; exact onUnit_has _ _ _
theorem entdaa (address : BitVec 7) : Statement (.entdaa address) := fun s => by
  show ∃ eff, execEntdaa address s = onUnit (true) s eff
  unfold execEntdaa; exact onUnit_has _ _ _

end Sys2Proof.Laws.Shape
end

