-- ==== Sys2Proof/Laws/Power.lean ====
section
/-!
SUPPORT. What the shared operations of a region's power change of the region, and of the rest: a hen's queue, a report, an
error, a request to go dark, rails that go off, a region that is isolated.
-/
namespace Sys2Proof.Machine

@[simp] theorem State.now_setRegion (s : State) (r : Nat) (x : Region) : (s.setRegion r x).now = s.now := rfl

/-! ## A hen's queue -/

theorem henQueue_region (s : State) (r : Nat) (k : Token) (m : Nat) :
    ∃ c, (s.henQueue r k).region m = { s.region m with ctl := c } := by
  unfold State.henQueue State.henError State.raise State.modCtl
  by_cases h : r = m
  · subst h; simp only; split <;> simp
  · refine ⟨(s.region m).ctl, ?_⟩; simp only; split <;> simp [h]

theorem henQueue_mgt (s : State) (r : Nat) (k : Token) : (s.henQueue r k).mgt = s.mgt := by
  unfold State.henQueue State.henError State.raise State.modCtl; simp only; split <;> simp
theorem henQueue_units (s : State) (r : Nat) (k : Token) : (s.henQueue r k).units = s.units := by
  unfold State.henQueue State.henError State.raise State.modCtl; simp only; split <;> simp
theorem henQueue_tiles (s : State) (r : Nat) (k : Token) : (s.henQueue r k).tiles = s.tiles := by
  unfold State.henQueue State.henError State.raise State.modCtl; simp only; split <;> simp
theorem henQueue_parts (s : State) (r : Nat) (k : Token) : (s.henQueue r k).parts = s.parts := by
  unfold State.henQueue State.henError State.raise State.modCtl; simp only; split <;> simp
theorem henQueue_iods (s : State) (r : Nat) (k : Token) : (s.henQueue r k).iods = s.iods := by
  unfold State.henQueue State.henError State.raise State.modCtl; simp only; split <;> simp

/-! ## A report -/

/-- A REPORT sets the prediction and queues a token. -/
theorem report_eq (s : State) (r avg req : Nat) :
    ∃ v k, s.report r avg req = (s.modPwr r fun p => { p with pred := v }).henQueue r k := ⟨_, _, rfl⟩

/-- A REPORT changes a region's hen and its prediction, nothing else of a region. -/
theorem report_region (s : State) (r avg req m : Nat) :
    ∃ c v, (s.report r avg req).region m =
      { s.region m with ctl := c, pwr := { (s.region m).pwr with pred := v } } := by
  obtain ⟨v, k, e⟩ := report_eq s r avg req
  obtain ⟨c, hc⟩ := henQueue_region (s.modPwr r fun p => { p with pred := v }) r k m
  rw [e, hc]
  by_cases h : r = m
  · subst h; exact ⟨c, v, by simp [State.modPwr]⟩
  · exact ⟨c, (s.region m).pwr.pred, by simp [State.modPwr, h]⟩

theorem report_mgt (s : State) (r avg req : Nat) : (s.report r avg req).mgt = s.mgt := by
  unfold State.report; simp only [henQueue_mgt]; simp [State.modPwr]
theorem report_tiles (s : State) (r avg req : Nat) : (s.report r avg req).tiles = s.tiles := by
  unfold State.report; simp only [henQueue_tiles]; simp [State.modPwr]
theorem report_iods (s : State) (r avg req : Nat) : (s.report r avg req).iods = s.iods := by
  unfold State.report; simp only [henQueue_iods]; simp [State.modPwr]

/-! ## An error of PWR_ERR -/

theorem pwrError_region (s : State) (r bit cause m : Nat) :
    (s.pwrError r bit cause).region m = if r = m then
      { s.region m with pwr := { (s.region m).pwr with
          err := setBit (s.region m).pwr.err bit
          errCount := sat16 ((s.region m).pwr.errCount + 1)
          errTime := if (s.region m).pwr.errValid then (s.region m).pwr.errTime else s.now
          errValid := true } } else s.region m := by
  unfold State.pwrError State.pwrNote State.raise State.modPwr
  by_cases h : r = m
  · subst h; simp
  · simp [h]

theorem pwrError_mgt (s : State) (r bit cause : Nat) : (s.pwrError r bit cause).mgt = s.mgt := by
  unfold State.pwrError State.pwrNote State.raise State.modPwr; simp

/-! ## Tests abandoned in a region -/

theorem henQueue_pwr (s : State) (r m : Nat) (k : Token) : ((s.henQueue r k).region m).pwr = (s.region m).pwr := by
  obtain ⟨c, h⟩ := henQueue_region s r k m
  rw [h]

theorem henSend_pwr (s : State) (r m : Nat) (n : NodeId) (k : Token) :
    ((s.henSend r n k).region m).pwr = (s.region m).pwr := by
  unfold State.henSend; split <;> simp [henQueue_pwr]
theorem henSend_mgt (s : State) (r : Nat) (n : NodeId) (k : Token) : (s.henSend r n k).mgt = s.mgt := by
  unfold State.henSend; split <;> simp [henQueue_mgt]

theorem askLead_pwr (s : State) (r kind beat why m : Nat) : ((s.askLead r kind beat why).region m).pwr = (s.region m).pwr := by
  unfold State.askLead; simp only; split <;> simp [henSend_pwr]
theorem askLead_mgt (s : State) (r kind beat why : Nat) : (s.askLead r kind beat why).mgt = s.mgt := by
  unfold State.askLead; simp only; split <;> simp [henSend_mgt]

theorem modTest_pwr (s : State) (r m : Nat) (f : HenTest → HenTest) : ((s.modTest r f).region m).pwr = (s.region m).pwr := by
  unfold State.modTest State.modRegion
  by_cases h : r = m
  · subst h; simp
  · simp [h]
theorem modTest_mgt (s : State) (r : Nat) (f : HenTest → HenTest) : (s.modTest r f).mgt = s.mgt := by
  unfold State.modTest State.modRegion; simp

theorem pauseDone_pwr (s : State) (r n m : Nat) (failed : Bool) : ((s.pauseDone r n failed).region m).pwr = (s.region m).pwr := by
  unfold State.pauseDone
  simp only
  split
  · split
    · rw [askLead_pwr, forAll_same (fun u => (u.region m).pwr) (by intro q u; exact modTest_pwr _ _ _ _), modTest_pwr]
    · exact modTest_pwr _ _ _ _
  · rw [henSend_pwr, modTest_pwr]
theorem pauseDone_mgt (s : State) (r n : Nat) (failed : Bool) : (s.pauseDone r n failed).mgt = s.mgt := by
  unfold State.pauseDone
  simp only
  split
  · split
    · rw [askLead_mgt, forAll_same (fun u => u.mgt) (by intro q u; exact modTest_mgt _ _ _), modTest_mgt]
    · exact modTest_mgt _ _ _
  · rw [henSend_mgt, modTest_mgt]

/-- Tests that are abandoned leave a region's power as it is (R349). -/
theorem abandonTests_pwr (s : State) (r m : Nat) : ((s.abandonTests r).region m).pwr = (s.region m).pwr := by
  unfold State.abandonTests
  simp only
  split
  · rw [pauseDone_pwr, modTest_pwr, forAll_same (fun u => (u.region m).pwr) (by intro n u; simp [State.modTile])]
  · exact forAll_same (fun u => (u.region m).pwr) (by intro n u; simp [State.modTile]) _ s

theorem abandonTests_mgt (s : State) (r : Nat) : (s.abandonTests r).mgt = s.mgt := by
  unfold State.abandonTests
  simp only
  split
  · rw [pauseDone_mgt, modTest_mgt, forAll_same (fun u => u.mgt) (by intro n u; simp [State.modTile])]
  · exact forAll_same (fun u => u.mgt) (by intro n u; simp [State.modTile]) _ s

/-! ## Rails and isolation -/

theorem railsOff_pwr (s : State) (r m : Nat) :
    ((s.railsOff r).region m).pwr = if r = m then { (s.region m).pwr with
      railOff := true, railUp := false, ramping := false, rampWait := false } else (s.region m).pwr := by
  unfold State.railsOff
  simp only
  rw [forAll_same (fun u => (u.region m).pwr) (by intro n u; simp [State.modTile]), abandonTests_pwr]
  by_cases h : r = m
  · subst h; simp [State.modPwr]
  · simp [State.modPwr, h]

theorem railsOff_mgt (s : State) (r : Nat) : (s.railsOff r).mgt = s.mgt := by
  unfold State.railsOff
  simp only
  rw [forAll_same (fun u => u.mgt) (by intro n u; simp [State.modTile]), abandonTests_mgt]
  simp [State.modPwr]

theorem partner_ne (r : Nat) : partner r ≠ r := by unfold partner; split <;> omega

/-- A plane that stops loses its feeds, and nothing else of a region's power changes (R156, R194). -/
theorem planeOff_pwr (s : State) (r m : Nat) : ((s.planeOff r).region m).pwr =
    if r = m then { (s.region m).pwr with feedOwn := false, feedNb := false } else (s.region m).pwr := by
  show ((s.modRegion r fun x => { x with
    clk := { x.clk with on := false }, pwr := { x.pwr with feedOwn := false, feedNb := false } }).region m).pwr = _
  by_cases h : r = m
  · subst h; simp [State.modRegion]
  · simp [State.modRegion, h]
theorem planeOff_mgt (s : State) (r : Nat) : (s.planeOff r).mgt = s.mgt := by
  unfold State.planeOff; simp [State.modRegion, State.modUnits]

theorem feedLost_mgt (s : State) (r : Nat) : (s.feedLost r).mgt = s.mgt := by
  unfold State.feedLost; simp only
  repeat' split
  all_goals simp [planeOff_mgt, State.modPwr]

theorem isolate_mgt (s : State) (r : Nat) (final : Bool) : (s.isolate r final).mgt = s.mgt := by
  unfold State.isolate
  simp only
  split <;> simp [report_mgt, railsOff_mgt, feedLost_mgt, State.modPwr]

@[simp] theorem hold_st (p : HenPwr) (c : DarkCause) : (p.hold c).st = p.st := by cases c <;> rfl
@[simp] theorem hold_iAvg (p : HenPwr) (c : DarkCause) : (p.hold c).iAvg = p.iAvg := by cases c <;> rfl
@[simp] theorem hold_wantDark (p : HenPwr) (c : DarkCause) : (p.hold c).wantDark = p.wantDark := by cases c <;> rfl

/-- A region that asks to go dark leaves the others' power as it is, but for their hens (R318). -/
theorem requestDark_pwr (s : State) (r m : Nat) (c : DarkCause) (h : r ≠ m) :
    ((s.requestDark r c).region m).pwr = (s.region m).pwr := by
  unfold State.requestDark
  simp only
  split
  · simp [State.modPwr, h]
  · split
    · simp [State.modPwr, h]
    · split
      · obtain ⟨v, k, e⟩ := report_eq ((s.modPwr r fun p => p.hold c).modPwr r fun p => { p with wantDark := some c }) r
          ((s.modPwr r fun p => p.hold c).region r).pwr.iAvg 1
        rw [e, henQueue_pwr]
        simp [State.modPwr, h]
      · simp [State.modPwr, h]

theorem requestDark_mgt (s : State) (r : Nat) (c : DarkCause) : (s.requestDark r c).mgt = s.mgt := by
  unfold State.requestDark; simp only; repeat' split
  all_goals simp [report_mgt, State.modPwr]

/-! ## What is logged and exported -/

theorem cper_region (s : State) (f : Finding) (m : Nat) : (s.cper f).region m = s.region m := by
  unfold State.cper; simp only; split <;> simp
theorem cper_fdl (s : State) (f : Finding) : (s.cper f).mgt.fdl = s.mgt.fdl := by
  unfold State.cper; simp only; split <;> simp
theorem log_region (s : State) (a b c m : Nat) : (s.log a b c).region m = s.region m := by
  unfold State.log; simp only; split <;> simp
theorem log_now (s : State) (a b c : Nat) : (s.log a b c).now = s.now := by
  unfold State.log State.now; simp only; split <;> simp

/-- What has just been logged is in the log. -/
theorem log_logged (s : State) (a b c : Nat) : (s.log a b c).logged a b c = true := by
  unfold State.log State.logged; simp only; split <;> simp_all

/-- A bit that has just been set. -/
theorem getLsbD_setBit {w : Nat} (m : BitVec w) (i : Nat) (h : i < w) : (setBit m i).getLsbD i = true := by
  unfold setBit; simp [h]

end Sys2Proof.Machine
end

