-- ==== Sys2Proof/Laws/Residue.lean ====
section
/-!
SUPPORT. The residues modulo 7 of R339: those carried beside exact products, shifts and sums are those of the values themselves,
so that a check that finds a difference has found an error.
-/
namespace Sys2Proof.Machine

theorem residue_cast (v : Int) : ((residue v : Nat) : Int) = v % 7 := by
  unfold residue
  omega

theorem residue_lt (v : Int) : residue v < 7 := by
  unfold residue
  omega

/-- The residue of a product is the product of the residues (R339). -/
theorem residue_mul (a b : Int) : residue (a * b) = mulResidue (residue a) (residue b) := by
  have h : ((mulResidue (residue a) (residue b) : Nat) : Int) = a * b % 7 := by
    unfold mulResidue
    rw [Int.natCast_emod, Int.natCast_mul, residue_cast, residue_cast]
    exact (Int.mul_emod a b 7).symm
  have := residue_cast (a * b)
  omega

theorem residue_add (a b : Int) : residue (a + b) = (residue a + residue b) % 7 := by
  unfold residue
  omega

/-- The residue of a sum is that of its terms' residues (R339). -/
theorem residue_sum (l : List Int) : residue l.sum = addResidue (l.map residue) := by
  have go : ∀ (l : List Int) (a : Int), residue (a + l.sum) =
      (l.map residue).foldl (fun a r => (a + r) % 7) (residue a) := by
    intro l
    induction l with
    | nil => intro a; simp
    | cons v l ih =>
      intro a
      rw [List.sum_cons, ← Int.add_assoc, ih, residue_add]
      rfl
  have h := go l 0
  rw [Int.zero_add] at h
  exact h

/-- Hence an exact sum agrees with the residues carried to it (R339). -/
theorem residueAgrees_sum (l : List Int) : residueAgrees l.sum (l.map residue) = true := by
  simp [residueAgrees, residue_sum]

/-- A left shift by `k` multiplies a residue by 2^(k mod 3), as 8 is 1 modulo 7 (R339). -/
theorem residue_shift (v : Int) (k : Nat) : residue (v * 2 ^ k) = shiftResidue (residue v) k := by
  have h : ∀ k, residue (2 ^ k) = 2 ^ (k % 3) % 7 := by
    intro k
    induction k using Nat.strongRecOn with
    | _ k ih =>
      match k with
      | 0 | 1 | 2 => rfl
      | k + 3 =>
        have e : (2 : Int) ^ (k + 3) = 2 ^ k * 8 := by rw [Int.pow_add]; rfl
        rw [e, residue_mul, ih k (by omega), Nat.add_mod_right]
        simp [mulResidue, show residue 8 = 1 from rfl]
  rw [residue_mul, h]
  unfold mulResidue shiftResidue
  rw [Nat.mul_mod, Nat.mod_mod, ← Nat.mul_mod]

end Sys2Proof.Machine
end

