-- ==== Sys2Proof/Laws/Rows.lean ====
section
/-!
SUPPORT. What the rows of one shape answer where their command is due: link and collective packets, ring commands, mailbox
requests and the messages of a session.
-/
namespace Sys2Proof.Machine

theorem port_modPort (s : State) (p : Nat) (f : Port → Port) : (s.modPort p f).port p = f (s.port p) := by
  simp [State.modPort]

/-- A LINK packet of the row's op that is the first at its port (R230). -/
theorem linkRow_run {op p : Nat} {s u : State} {came : Dword} {k : List Line} (f : Line → State → State) (hp : p < 48)
    (hk : (s.port p).rx.find? (fun k => hCls (headOf k.2) = 4 && hOp (headOf k.2) = op) = some (came, k))
    (hu : u = s.modPort p fun x => { x with rx := x.rx.erase (came, k) }) : linkRow op p s f = .next (f (headOf k) u) := by
  unfold linkRow
  rw [onUnit_of (by simpa using hp)]
  unfold State.takeRx
  rw [hk, hu]

/-- A collective packet that is taken in (R269). -/
theorem colRow_run {s v : State} {p op : Nat} {came : Dword} {k : List Line} (h : Collected s p op came k v)
    (f : Nat → Dword → List Line → State → State) : colRow op p s f = .next (f (cChan (headOf k)) came k v) := by
  unfold colRow
  rw [onUnit_of (by simpa using h.port)]
  unfold State.takeRx
  rw [h.first]
  simp only
  rw [if_neg (by simp [h.fresh]), if_neg, if_neg (by simp [h.digest]), h.after]
  have hr := h.room
  simp only [Bool.and_eq_true, decide_eq_true_eq]
  omega

/-- A ring command that starts (R375). -/
theorem ringCmd_run {s u : State} {op f : Nat} {q : Fetched} (h : Starts s op f q u) (g : Fetched → State → State) :
    ringCmd op f s g = .next (g q u) := by
  obtain ⟨qs, hq, hu⟩ := h.head
  unfold ringCmd
  rw [onUnit_of (by simpa using h.fn)]
  simp only [hq]
  rw [due_of (by simp [h.accepted, h.opcode, h.may]), hu]

/-- A mailbox request that waits (R393). -/
theorem mailRow_run {s : State} {op n : Nat} (h : Requested s op n) (g : Nat → State → State) :
    mailRow op s g = .next (g n s) := by
  unfold mailRow
  rw [onUnit_of rfl, due_of (by simp [h.busy, h.opcode]), h.length]

/-- A message of SPDM itself in an open session (R367). -/
theorem sessionRow_run {s : State} {n : Nat} {x : Session} {ok : Session → Bool} (hn : n < 32) (hx : s.session n = some x)
    (ho : ok x = true) (g : Session → State → State) : sessionRow n s ok g = .next (g x (s.heard n)) := by
  unfold sessionRow
  rw [onUnit_of (by simpa using hn)]
  simp only [hx]
  rw [due_of ho]

/-- An application message in a finished session (R369). -/
theorem messageRow_run {s : State} {n : Nat} {x : Session} {ok : Bool} (h : InSession s n x) (ho : ok = true)
    (g : Session → State → Nat × State) :
    messageRow ok n s g = .next ((g x (s.heard n)).2.reply (g x (s.heard n)).1) := by
  unfold messageRow
  rw [onUnit_of (by simp [ho, h.number])]
  simp only [h.is_open, h.finished, if_true]

/-- An application message where no session is open (R369). -/
theorem messageRow_none {s : State} {n : Nat} {ok : Bool} (hn : n < 32) (hx : s.session n = none) (ho : ok = true)
    (g : Session → State → Nat × State) : messageRow ok n s g = .next (s.reply 4) := by
  unfold messageRow
  rw [onUnit_of (by simp [ho, hn])]
  simp only [hx]

end Sys2Proof.Machine
end

