-- ==== Sys2Proof/Laws/Tokens.lean ====
section
/-!
SUPPORT. What a hen answers to a token that it hears.
-/
namespace Sys2Proof.Machine

theorem henToken_run {s : State} {r cls kind : Nat} {k : Token} (h : Heard s r cls kind k) (f : State → State) :
    henToken cls kind r k s f = .next (f (s.landed (.hen r) k)) := by
  have h1 := h.region
  unfold henToken
  rw [onUnit_of (by simpa using h1), due_of (by simp [h.cls, h.kind])]
  unfold State.receive
  rw [if_neg (by simp [h.plane]), if_neg (by simp [h.known]), if_neg (by simp [h.fresh])]

end Sys2Proof.Machine
end

