-- ==== Sys2Proof/Machine/Pins.lean ====
section
/-!
DEFINITION. What the pins of the signal connector show and where the fibres of a port lie (R400, R402 to R405, R411).
-/
namespace Sys2Proof.Machine

/-! ## The signal connector (R400) -/

/-- The signals of the connector; `k` is a PCIe lane. -/
inductive Signal where
  | gnd | presentN | pwrOk | coolantOk | perstN | faultN | unconnected | i3cScl | i3cSda | refclkP | refclkN
  | petP (k : Nat) | petN (k : Nat) | perP (k : Nat) | perN (k : Nat)
  deriving DecidableEq, Repr

/-- The contact of a position 1 to 60 in row A or B (R400). -/
def contact (rowB : Bool) (n : Nat) : Signal :=
  if 9 ≤ n ∧ n ≤ 56 then
    let k := (n - 9) / 3
    match (n - 9) % 3 with
    | 0 => .gnd
    | 1 => if rowB then .perP k else .petP k
    | _ => if rowB then .perN k else .petN k
  else match n, rowB with
    | 1, true => .presentN
    | 2, true => .pwrOk
    | 3, false => .coolantOk
    | 3, true => .perstN
    | 4, false => .faultN
    | 4, true => .unconnected
    | 5, false => .i3cScl
    | 5, true => .i3cSda
    | 7, false => .refclkP
    | 7, true => .refclkN
    | _, _ => .gnd

/-! ## Levels of the pins the module drives (R403 to R405) -/

/-- What the module does to a pin. -/
inductive PinLevel where
  | low | high | highZ
  deriving DecidableEq, Repr

/-- PRESENT_N is joined to ground; PWR_OK and FAULT_N are high impedance while the module is unpowered; any other pin is not
driven by the controller. -/
def Mgt.drives (m : Mgt) : Signal → PinLevel
  | .presentN => .low
  | .pwrOk => if !m.powered then .highZ else if m.pwrOk then .high else .low
  | .faultN => if m.powered && m.faultLow then .low else .highZ
  | _ => .highZ

/-- The provisioned ID that ENTDAA uses carries the low half of the serial (R402). -/
def Mgt.provisionedId (m : Mgt) : BitVec 32 := m.fuses.serial.setWidth 32

/-! ## Fibres (R411) -/

/-- The fibre group of a port of its site, and the fibre position of a lane in the group's connectors T and R. -/
def fibreGroup (port : Nat) : Nat := port % 12 / 3
def fibrePosition (port lane : Nat) : Nat := 9 * (port % 3) + lane + 1

end Sys2Proof.Machine
end

