-- ==== Sys2Proof/Tests/Slice0.lean ====
section
/-!
SUPPORT. Tests: ill-formed commands, worked examples of the spec, and for every statement that has hypotheses a concrete
state and operands that meet them (`witness_<statement>`).
-/
namespace Sys2Proof.Tests

open Sys2Proof Sys2Proof.Machine

set_option Elab.async false

/-! ## Ill-formed commands: one for each check of `wellFormed` -/

def noBist : BistFindings where
  tiles := []
  routers := []
  hens := []
  phases := []
  hbmStaging := []
  iodStaging := []
  tripped := []

def goodTraining : TrainFindings where
  west := halfWord fusesReset true
  east := halfWord fusesReset false
  iods := (List.range 4).map fun d => (d, dieWord fusesReset d)
  mbps := []
  segments := []
  northCrossing := false
  southCrossing := false
  ticks := []
  temps := []
  eyeBad := []
  peers := []

def goodQual : QualFindings where
  wires := []
  lanes := []
  segments := []
  channels := []
  northCrossing := true
  southCrossing := true
  fell := []

/-- A group of the seam between tiles 19 and 20, and one where no seam is. -/
def seamGroup : SeamGroup where
  tile := 19
  northSouth := false
  toLower := false
  group := 0

def noSeamGroup : SeamGroup := { seamGroup with tile := 20 }

def token (cls kind : BitVec 4) (pay : BitVec 96) : Token where
  cls := cls
  kind := kind
  group := 0
  scope := 0
  src := 0
  part := 0
  pay := pay

theorem test_ill_formed_units : ([.nop 20000, .runStartBeat 40, .runComplete 16, .flush .pf (.fault 40),
    .pop (.vf 0) .cper, .rtrStData (.vf 17) 0 0, .tOut .pf 20000 0, .expressTokenInject (.iod 4),
    .expressTokenInject (.tile 20000), .faultToken (.site 16) (token 4 0 0), .report (.hen 40) (token 6 2 0),
    .bellwetherElection 0 4096, .normRecordEmit 0 256, .fixedMhz .pf 2048, .oxPassStart (.hbm 16) 0 0,
    .oxPassComplete (.iod 4) 0 0 [], .oxLatePoint (.hbm 0) 2 0, .stagingMiss (.hbm 0) 25, .stagingMiss (.iod 0) 50,
    .edgEstData .pf 16 0, .iraEstPort (.vf 17) 0 0, .hbmChannelFail 0 32, .hbmEccPoll 0 [⟨32, 0, 0, true⟩],
    .handoverComplete 524288, .codewordReceived 0 9 0 ⟨0, 0⟩ [], .laneRetire 48 0, .portQualificationComplete 0 [9],
    .colPassDue 64 0, .stagingBlockTest (.hbm 16) true] : List Instr).all (fun i => !wellFormed i) = true := by decide

theorem test_ill_formed_findings : ([.seamAndBridgeRepair ⟨[(noSeamGroup, 1, false)], []⟩,
    .seamAndBridgeRepair ⟨[], [(25, 0, 0)]⟩, .bist { noBist with tiles := [20000] }, .bist { noBist with routers := [20000] },
    .bist { noBist with hens := [40] }, .bist { noBist with phases := [(0, 64)] }, .bist { noBist with hbmStaging := [16] },
    .bist { noBist with iodStaging := [4] }, .bist { noBist with tripped := [40] },
    .linkTraining { goodTraining with segments := [20] }, .linkTraining { goodTraining with ticks := [(40, 0, 0)] },
    .linkTraining { goodTraining with mbps := [(16, 0)] }, .errorRateQualification { goodQual with wires := [(0, 2, 0)] },
    .errorRateQualification { goodQual with lanes := [(0, 0, 992)] },
    .errorRateQualification { goodQual with segments := [20] },
    .errorRateQualification { goodQual with channels := [(0, 32)] }] : List Instr).all (fun i => !wellFormed i) = true := by
  decide

theorem test_ill_formed_host : ([.phaseFail 0 64, .hostCapW .pf 65536, .residueMismatch 0 false 4 ⟨0, 0, []⟩,
    .residueMismatch 0 true 5 ⟨0, 0, []⟩, .grant (.vf 17) 0, .wireRetire ⟨.seam noSeamGroup 0, 0, 0⟩, .wireRetire ⟨.seam seamGroup 33, 0, 0⟩,
    .doubleWireError (.bridge 0 0 2256), .wireRetire ⟨.iodLane 4 0 992, 0, 0⟩, .ringSegmentFail 20, .doorbell (.vf 17),
    .tail .pf 17 0 [], .tail .pf 0 4096 [], .head .pf 0 4096, .enable .pf 17 false true, .windowReg 17,
    .dmaComplete 0 65536 [], .flrVf 0, .certificateRetrieval 8, .keyExchange 32 [], .bind 0 32 false,
    .keyEnroll 32 0 [] .admin 0, .registerWrite .pf (2 ^ 40) 8 0] : List Instr).all (fun i => !wellFormed i) = true := by
  decide

/-! ## Worked examples of the spec -/

/-- Control-space addresses of tile (137, 62), region 26, HBM site 9 and I/O die 2 (chapter 0). -/
theorem test_addresses : addrOf (.tile 12537) 0 = 0x01030F9000 ∧ addrOf (.rgn 26) 0 = 0x0011A00000 ∧
    addrOf (.edg 9) 0 = 0x0020900000 ∧ addrOf (.die 2) 0 = 0x0001200000 := by decide

/-- The AMUL word of the worked schedule of chapter 2. -/
theorem test_array_word : let w : Dword := 0x4303380200000400#64
    (wCls w, wOp w, aArr w, aGrp w, aFmt w, aFmt2 w) = (2, 3, 0, 0, 3, 3) ∧
    (aSwap w, aAcc w, aRow w, aM w, aLine w, aSa w) = (true, 0, 0, 64, 0, 2) := by decide

/-- The E field of router (119, 60) in chapter 5. -/
theorem test_entry_field : entryField 0x6C000#64 1 = 0x06C ∧ entryField 0x006C000000000000#64 4 = 0x06C := by decide

/-- 0.3 narrowed to FP8 E4M3 under RND 0 and 1 (chapter 3). -/
theorem test_narrow_fp8 : convert 3 0 0 false 0x3E99999A#32 = 0x2A ∧ convert 3 1 0 false 0x3E99999A#32 = 0x29 := by
  decide

/-- The MXFP4 block of chapter 3: scale 0x81, elements 6, 9, 5, 0. -/
theorem test_mxfp4_block :
    let v := [0x41A00000#32, 0xC0333333#32, 0x41266666#32, 0x3F4CCCCD#32] ++ List.replicate 28 0#32
    convertBlock 11 0 v (List.replicate 32 0) = (0x81, [6, 9, 5, 0] ++ List.replicate 28 0) := by decide +kernel

/-- The E5M2 column of chapter 3, normal and in Sela compatibility mode. -/
theorem test_array_column :
    let a := [e5m2.value 0x6C, e5m2.value 0x3C, e5m2.value 0x3C] ++ List.replicate 13 (e5m2.value 0)
    accumulate true 0 (columnTerms false none none a a) = 0x4B800001#32 ∧
    accumulate true 0 (columnTerms true none none a a) = 0x4B800000#32 := by decide +kernel

/-- The MEAN of the late chunk of chapter 10, and of the whole one. -/
theorem test_collective_mean :
    convert 1 0 0 false (foldRanks 1 [0x3F800000#32, 0x3F800000#32, 0xCB800000#32]) = 0xCAAB ∧
    foldRanks 1 [0x4B800000#32, 0x3F800000#32, 0x3F800000#32, 0xCB800000#32] = 0#32 := by decide +kernel

/-- The resume beats of the barrier of chapter 6. -/
theorem test_resume_beats : resumeAt 5197 0 12091 = 5221 ∧ resumeAt 5197 1 12110 = 5217 ∧
    resumeAt 5197 2 16290 = 5229 ∧ resumeAt 5197 3 16112 = 5209 := by decide

/-- An M12I4 in striped mode (chapter 8): the stripe list, the last line and the place of offset 0x12_3456_789A. -/
def m12 : State :=
  (forAll [0, 2, 3, 4, 5, 7, 8, 10, 11, 12, 13, 15] State.reset fun x s => s.modSite x fun y => { y with
    chans := List.range 32 }).modMgt fun m => { m with fuses := { fusesReset with nStacks := 12 }, striped := true }

theorem test_striped_map : m12.locate 0x123456789A = some (10, 0x1845C889A) ∧
    m12.cell 0x123456789A = some (10, 8, 0xC22E49A) ∧ m12.locate 0xC000000000 = none ∧
    (m12.modMgt fun m => { m with striped := false }).locate 0x123456789A = none := by decide

/-- The power example of chapter 12: every region with I_pred 562.5 A and L_held 63.6 A. -/
def hungry : State := (forAll (List.range 40) State.reset fun r s => s.modPwr r fun p => { p with
  heldLearn := { value := fracInt 636, seeded := true } }).modMgt fun m => { m with
    reports := (List.range 40).map fun r => (r, (5625, 5625, 0)) }

def meas : PowerMeas where
  fixedW := 2250
  etaNum := 923
  etaDen := 1000
  inputW := 0
  inputW10 := 0
  busMv := 48000

theorem test_power : (hungry.powerAt meas 825 0).floor = 11237 ∧ (hungry.powerAt meas 850 0).floor = 11691 ∧
    ((hungry.powerAt meas 600 20).mul (fracOf 100 97)).ceil = 3128 := by decide +kernel

/-! ## A tile that issues a word -/

/-- Tile 0 running with the word `w` at its program counter 0, its region's run open. -/
def loaded (x : Tile) (w : Dword) : State := { State.reset with
  tiles := [(0, { x with st := .running, owned := true, prog := [(0, w)], pc := 0, progEcc := [] })]
  regions := [(0, { ctl := { run := true, assigned := true } })] }

/-- A word with fields given as (lowest bit, value). -/
def word (cls op : Nat) (l : List (Nat × Nat)) : Dword := pack ((61, cls) :: (56, op) :: l)

theorem issuing (x : Tile) (w : Dword) (h : x.nextIssue ≤ x.beat) : Issuing (loaded x w) 0 w (loaded x w) where
  tile := by decide
  due := by
    have e : (loaded x w).issues 0 = decide (x.nextIssue ≤ x.beat) := rfl
    rw [e, decide_eq_true h]
  inStore := by show 0 < 6144; decide
  word := rfl

theorem issuing0 (w : Dword) : Issuing (loaded {} w) 0 w (loaded {} w) := issuing {} w (by decide)

theorem witness_AluWords : ∀ row ∈ aluRows, ∃ w, Issuing (loaded {} w) 0 w (loaded {} w) ∧
    wCls w = 0 ∧ wOp w = row.op ∧ scalarOk w = true := by
  intro row h
  refine ⟨word 0 row.op [(51, 31), (40, 1), (0, 0xFFFFFFFF)], issuing0 _, ?_⟩
  simp only [aluRows, List.mem_cons, List.not_mem_nil, or_false] at h
  rcases h with rfl | rfl | rfl | rfl | rfl | rfl | rfl | rfl | rfl | rfl | rfl | rfl | rfl | rfl | rfl <;> decide

theorem witness_ZeroRegister : ∃ p : Pend, p.act = .sreg 0 7 ∧ ∃ q : Pend, q.act = .sreg 31 7 :=
  ⟨⟨0, 0, .sreg 0 7⟩, rfl, ⟨0, 0, .sreg 31 7⟩, rfl⟩


/-- Each word has the class, the opcode given and the format. -/
def wordsOk (cls : Nat) (ok : Dword → Bool) (l : List (Nat × List (Nat × Nat))) : Bool :=
  l.all fun p => wCls (word cls p.1 p.2) = cls && wOp (word cls p.1 p.2) = p.1 && ok (word cls p.1 p.2)

theorem witness_SequencerWords : (∀ w, Issuing (loaded {} w) 0 w (loaded {} w)) ∧
    wordsOk 0 (fun w => scalarOk w && decide (sTgt w < 6144)) [(0x16, [(51, 31)]), (0x18, []), (0x12, [(46, 1), (0, 6143)]),
      (0x13, [(46, 31), (0, 0)]), (0x14, [(0, 6143)])] = true ∧
    wordsOk 0 scalarOk [(0x00, [(0, 65535)])] = true :=
  ⟨issuing0, by decide, by decide⟩

/-- A loop to the last word; both counts for LOOPI, and none of S1 for LOOP, which reads 0. -/
theorem witness_LoopWords : (∀ x w, x.nextIssue ≤ x.beat → Issuing (loaded x w) 0 w (loaded x w)) ∧
    wordsOk 0 (fun w => scalarOk w && decide (0 < sTgt w ∧ sTgt w < 6144)) [(0x15, [(46, 1), (0, 6143)]), (0x17, [(16, 65535), (0, 1)]),
      (0x17, [(0, 1)])] = true ∧
    (((loaded { sregs := [(1, 1)] } 0).tile 0).sreg 1).toNat = 1 ∧ (((loaded {} 0).tile 0).sreg 1).toNat = 0 ∧
    ((loaded { loops := [⟨0, 6143, 2, 0⟩] } 0).tile 0).loops.all (fun l => 6143 ≤ l.stop) = true :=
  ⟨issuing, by decide, by decide, by decide, by decide⟩

theorem witness_ScratchWords : (∀ w, Issuing (loaded {} w) 0 w (loaded {} w)) ∧
    wordsOk 0 (fun w => scalarOk w && decide (sImm w % 4 = 0 ∧ sImm w < 393216))
      [(0x10, [(51, 1), (0, 0)]), (0x11, [(41, 1), (0, 393212)])] = true :=
  ⟨issuing0, by decide⟩

theorem witness_RangeFaults : (∀ w, Issuing (loaded {} w) 0 w (loaded {} w)) ∧
    wordsOk 0 (fun w => scalarOk w && decide (6144 ≤ sTgt w)) [(0x12, [(0, 6144)]), (0x13, [(0, 8191)]), (0x14, [(0, 6144)]),
      (0x15, [(0, 6144)]), (0x17, [(0, 6144)])] = true ∧
    wordsOk 0 (fun w => scalarOk w && !decide (sImm w % 4 = 0 ∧ sImm w < 393216))
      [(0x10, [(0, 2)]), (0x10, [(0, 393216)]), (0x11, [(0, 393216)]), (0x11, [(0, 4294967295)])] = true :=
  ⟨issuing0, by decide, by decide⟩

theorem witness_LaneWords : ∀ row ∈ laneRows, ∃ w, Issuing (loaded {} w) 0 w (loaded {} w) ∧
    wCls w = 1 ∧ wOp w = row.op ∧ vectorOk w = true := by
  intro row h
  refine ⟨word 1 row.op [(52, if row.op = 16 then 0 else 15)], issuing0 _, ?_⟩
  simp only [laneRows, List.mem_cons, List.not_mem_nil, or_false] at h
  rcases h with rfl | rfl | rfl | rfl | rfl | rfl | rfl | rfl | rfl | rfl | rfl | rfl | rfl | rfl <;> decide

theorem witness_ConvertWords : (∀ w, Issuing (loaded {} w) 0 w (loaded {} w)) ∧
    wordsOk 1 vectorOk [(0x09, [(31, 12), (29, 0)]), (0x09, [(31, 1), (29, 2)]), (0x0A, [(52, 15), (31, 11)])] = true :=
  ⟨issuing0, by decide⟩

theorem witness_VectorMemoryWords : (∀ w, Issuing (loaded {} w) 0 w (loaded {} w)) ∧
    wordsOk 1 (fun w => vectorOk w && decide (bits w 12 0 + 3 < 6144)) [(0x0F, [(52, 15), (0, 6140)]), (0x10, [(48, 15), (0, 0)])] = true ∧
    wordsOk 1 vectorOk [(0x11, [(48, 15), (0, 511)])] = true ∧ ((loaded {} 0).tile 0).vmem.full 0 = false :=
  ⟨issuing0, by decide, by decide, by decide⟩

/-- Every array word, with M 127 and with M 0, on an idle array. -/
theorem witness_ArrayWords : (∀ w, Issuing (loaded {} w) 0 w (loaded {} w)) ∧
    wordsOk 2 (fun w => arrayWordOk false w ((loaded {} w).tile 0) && (((loaded {} w).tile 0).arr (aArr w)).idle 0)
      [(1, [(54, 3), (52, 2)])] = true ∧
    wordsOk 2 (fun w => arrayWordOk false w ((loaded {} w).tile 0) &&
        decide (arrBase ((loaded {} w).tile 0) w + blockLines (wordW ((loaded {} w).tile 0) w) (aFmt w) ≤ 6144) &&
        !(((loaded {} w).tile 0).arr (aArr w)).bload.full 0)
      [(2, [(48, 3), (14, 6136)])] = true ∧
    wordsOk 2 (fun w => arrayWordOk false w ((loaded {} w).tile 0) && pairOk (aFmt w) (aFmt2 w) && decide (0 < aM w ∧
        rowsEnd (arrBase ((loaded {} w).tile 0) w) (aM w) (rowBytes (aFmt w)) (isMx (aFmt w)) ≤ 6144) &&
        !(((loaded {} w).tile 0).mulPipe (aArr w) (aGrp w)).full 0)
      [(3, [(48, 3), (44, 3), (27, 127)])] = true ∧
    wordsOk 2 (fun w => arrayWordOk false w ((loaded {} w).tile 0) && decide (0 < aM w ∧
        rowsEnd (arrBase ((loaded {} w).tile 0) w) (aM w) (outBytes (wordW ((loaded {} w).tile 0) w) (aFmt w)) (isMx (aFmt w)) ≤ 6144) &&
        !(((loaded {} w).tile 0).arr (aArr w)).drain.full 0)
      [(4, [(48, 1), (27, 127)])] = true ∧
    wordsOk 2 (fun w => arrayWordOk false w ((loaded {} w).tile 0) && decide (0 < aM w)) [(5, [(27, 1)])] = true ∧
    wordsOk 2 (fun w => arrayWordOk false w ((loaded {} w).tile 0) && decide (aM w = 0))
      [(3, [(48, 3), (44, 3)]), (4, [(48, 1)]), (5, [])] = true :=
  ⟨issuing0, by decide, by decide, by decide, by decide, by decide, by decide⟩

theorem witness_TransferWords : (∀ w, Issuing (loaded {} w) 0 w (loaded {} w)) ∧
    wordsOk 3 (fun w => transferOk w && decide (xCount w = 0)) [(0, []), (1, [])] = true ∧
    wordsOk 3 (fun w => transferOk w && decide (0 < xCount w ∧ xferLine ((loaded {} w).tile 0) w (xCount w - 1) < 6144) &&
        !((loaded {} w).tile 0).xout.full 0 && !((loaded {} w).tile 0).xin.full 0)
      [(0, [(43, 6143), (26, 1), (0, 65535)]), (1, [(43, 4), (26, 3), (16, 1)])] = true :=
  ⟨issuing0, by decide, by decide⟩

/-- An image with one barrier group, 7, of tile 0. -/
def image : Image where
  magic := 0
  format := 1
  level := 1
  flags := 0
  length := 0
  nSections := 0
  keyId := 0
  rsv0 := 0
  rect := (0, 0, 0, 0)
  rsv1 := 0
  build := 0
  rsv2 := 0
  table := []
  covered := []
  sign := []
  programs := []
  scratch := []
  slots := []
  barriers := [⟨7, [0]⟩]
  shares := []
  windows := []
  channels := []
  phases := []
  fallow := []
  stepStart := 0
  stepPeriod := 0
  policy := none
  alternates := []
  ownSwaps := true

/-- The same tile in a partition that runs the image. -/
def grouped (w : Dword) : State := { loaded {} w with parts := [(0, { live := true, st := .running, img := some image, owned := [0] })] }

theorem witness_TokenWords : (∀ w, Issuing (grouped w) 0 w (grouped w)) ∧
    wordsOk 4 (fun w => tokenOk w && decide (kGroup w = 7)) [(0, [(44, 7)]), (1, [(44, 7), (0, 1048575)]), (2, [(44, 7)])] = true ∧
    wordsOk 4 tokenOk [(3, [(0, 255)]), (4, [(0, 65535)])] = true ∧
    0 ∈ (grouped 0).members (regionOf 0) 7 ∧ 7 ∉ ((grouped 0).tile 0).outst ∧ (grouped 0).isNormPoint (regionOf 0) 255 = false :=
  ⟨fun _ => ⟨by decide, rfl, by show 0 < 6144; decide, rfl⟩, by decide, by decide, by decide, by decide, by decide⟩

/-- A tile that waits for group 3, with a beat latched; and one whose limit has passed. -/
def waiting (limit ticks latched : Nat) : State :=
  loaded {} 0 |>.modTile 0 fun x => { x with
    st := .waiting
    wait := some ⟨0, 3, limit, ticks⟩
    latch := [(3, latched)]
    vmem := { run := none, wait := some ⟨0, 4⟩ } }

theorem witness_TileEvents :
    (((waiting 0 0 0).region (regionOf 0)).ctl.held = false ∧ ((waiting 0 0 0).tile 0).vmem.wait = some ⟨0, 4⟩ ∧
      (0 : Nat) ≤ ((waiting 0 0 0).tile 0).beat) ∧
    (((waiting 1 1 0).tile 0).st = .waiting ∧ ((waiting 1 1 0).tile 0).wait = some ⟨0, 3, 1, 1⟩ ∧
      (waiting 1 1 0).stopped (regionOf 0) = false) ∧
    (((waiting 0 0 1).tile 0).wait = some ⟨0, 3, 0, 0⟩ ∧ (waiting 0 0 1).stopped (regionOf 0) = false ∧
      0 < ((waiting 0 0 1).tile 0).latch.look 0 3 ∧ ((waiting 0 0 1).tile 0).latch.look 0 3 ≤ ((waiting 0 0 1).tile 0).beat + 1 ∧
      ((waiting 0 0 1).tile 0).nextIssue ≤ ((waiting 0 0 1).tile 0).beat) := by decide

/-- A module in service: READY, powered, host port out of reset. -/
def ready : State := { State.reset with mgt := { State.reset.mgt with
  stage := 9, ready := true, pwrOk := true, perstLow := false, perstPin := true, perstWindow := false, originSet := true } }

/-! ## Runs -/

/-- Region 0 about to open the run of a starting partition; then in the run; then at its announced end. -/
def opening : State := { State.reset with
  tiles := [(0, { st := .loaded, owned := true, seed := 0 })]
  regions := [(0, { ctl := { assigned := true, lead := true, atStart := some 5 }, clk := { on := true, count := 5 } })]
  parts := [(0, { live := true, st := .starting, img := some image, owned := [0] })] }

def inRun (x : Tile) (stop : Option (Nat × Nat)) : State := { ready with
  tiles := [(0, { x with owned := true })]
  regions := [(0, { ctl := { assigned := true, lead := true, run := true, atStop := stop }, clk := { on := true, count := 6 } })]
  parts := [(0, { live := true, st := .running, img := some image, owned := [0] })] }

theorem witness_RunOpens : (opening.region 0).clk.on = true ∧ (opening.region 0).ctl.atStart = some 5 ∧
    5 ≤ (opening.region 0).clk.count ∧ (opening.region 0).ctl.assigned = true ∧ (opening.region 0).ctl.lead = true ∧
    (opening.part (opening.region 0).ctl.part).img = some image ∧ (opening.part 0).startCid = none ∧
    (opening.part (opening.region 0).ctl.part).st = .starting ∧ 0 ∈ (opening.part 0).owned ∧ regionOf 0 = 0 ∧
    ((opening.modPart 0 fun y => { y with startCid := some 65535 }).part 0).startCid = some 65535 ∧
    ((opening.modCtl 0 fun c => { c with lead := false }).region 0).ctl.lead = false := by decide

/-- A partition whose only tile has halted; a region past its end beat; a dumped tile in SCRUB; one that waits for its
dump. -/
def dumping : State := { inRun { st := .scrub } none with parts := [(0, { live := true, st := .ending, dump := 1, owned := [0] })] }

theorem witness_RunEnds :
    (((inRun { st := .halted } none).part 0).st = .running ∧ (∀ r ∈ (inRun { st := .halted } none).partRegions 0,
        ((inRun { st := .halted } none).region r).ctl.run = true) ∧
      ∀ n ∈ ((inRun { st := .halted } none).part 0).owned, ((inRun { st := .halted } none).tile n).finished = true ∧
        ((inRun { st := .halted } none).region (regionOf n)).ctl.held = false ∧
        ((inRun { st := .halted } none).region (regionOf n)).dark = false) ∧
    (((inRun {} (some (5, 1))).region 0).ctl.atStop = some (5, 1) ∧ 5 < ((inRun {} (some (5, 1))).region 0).clk.count ∧
      ((inRun {} (some (5, 1))).region 0).ctl.run = true) ∧
    (((inRun { st := .scrub, dumped := true } none).tile 0).st = .scrub ∧ ((inRun { st := .scrub, dumped := true } none).tile 0).dumped = true ∧
      ((inRun { st := .scrub, dumped := true } none).region (regionOf 0)).dark = false) ∧
    (dumping.tile 0).st = .scrub ∧ (dumping.tile 0).dumped = false ∧ (dumping.part 0).st = .ending ∧ (dumping.part 0).dump = 1 := by
  decide

/-! ## Registers -/

/-- A permitted write as a computed check. -/
def permitted (s : State) (w : Party) (b : Block) (off : Nat) (v : Dword) : Bool :=
  partyOk w && decide (s.reach (addrOf b off) 8 = (0, b, off)) && s.mayRead w b off &&
    !s.overreach w b off (BitVec.allOnes 64) v

theorem permitted_of {s : State} {w : Party} {b : Block} {off : Nat} {v : Dword} (h : permitted s w b off v = true) :
    Permitted s w b off v := by
  simp only [permitted, Bool.and_eq_true, decide_eq_true_eq, Bool.not_eq_true'] at h
  exact ⟨h.1.1.1, h.1.1.2, h.1.2, h.2⟩

/-- Registers with the parties that may write them: flush, pop, holds, mode, activation, caps, tables, fabric. -/
theorem witness_QueueRegisters : ([(.pf, .rgn 39, 0x610, 1, 0), (.pf, .mgt, 0x48, 1, 0), (.vf 16, .page 16, 0x48, 1, 0),
    (.pf, .edg 15, 0x58, 1, 0), (.pf, .die 3, 0x108 + 16 * 11, 1, 0), (.pf, .mgt, 0x48, 2, 1),
    (.vf 1, .page 1, 0x48, 2, 1)] : List (Party × Block × Nat × Dword × Nat)).all (fun p =>
      permitted ready p.1 p.2.1 p.2.2.1 p.2.2.2.1 && (ready.oneBits p.1 p.2.1 p.2.2.1).getLsbD p.2.2.2.2) = true ∧
    (∃ (q : GQueue) (i : List Line) (l : List (List Line)), q.items = i :: l) ∧ ∃ q : GQueue, q.items = [] :=
  ⟨by decide, ⟨{ n := 8, items := [[]] }, [], [], rfl⟩, { n := 8 }, rfl⟩

/-- A register that a party may write, with the bits it may write. -/
def writable (s : State) (l : List (Party × Block × Nat × Dword)) : Bool :=
  l.all fun p => permitted s p.1 p.2.1 p.2.2.1 p.2.2.2 && decide (s.rwBits p.1 p.2.1 p.2.2.1 ≠ 0)

/-- A share of one MiB at HBM site 0 and at I/O die 0. -/
def shared : State := { ready with
  sites := [(0, { edge := { share0 := { valid := true, mib := 1 } } })]
  iods := [(0, { edge := { share0 := { valid := true, mib := 1 } } })]
  regions := [(0, { ctl := { assigned := true } }), (30, { ctl := { assigned := true } })] }

/-- A table write with one valid changed field, one with an invalid one; periods of 512; slack; transit outputs. -/
theorem witness_RouterRegisters :
    writable ready [(.pf, .tile 19999, 0x120, 0x6C000), (.pf, .tile 0, 0x108, 0x0200020002000200), (.pf, .tile 0, 0x130, 32),
      (.fm, .tile 0, 0x100, 1)] = true ∧
    (∀ o, o < 5 → entryField 0x5000#64 o ≠ entryField 0#64 o →
      (shared.router 0).validField (fun i => shared.inTransit 0 (dirOf i)) o (entryField 0x5000#64 o) = true ∧
      ((shared.router 0).transit o = true ∨ shared.confined 0 o (entryField 0x5000#64 o) = true) ∧
      shared.bankActive 0 o (shared.router 0).selBank = false) ∧
    (∃ o, o < 5 ∧ (if (ready.router 0).transit o then false else true) = true ∧ entryField (-1#64) o ≠ entryField 0#64 o ∧
      (ready.router 0).validField (fun i => ready.inTransit 0 (dirOf i)) o (entryField (-1#64) o) = false) ∧
    (1 ≤ bits 0x0001020000010200#64 9 0 ∧ bits 0x0001020000010200#64 9 0 ≤ 512 ∧ 1 ≤ bits 0x0001020000010200#64 25 16 ∧
      bits 0x0001020000010200#64 25 16 ≤ 512 ∧ 1 ≤ bits 0x0001020000010200#64 41 32 ∧
      bits 0x0001020000010200#64 41 32 ≤ 512 ∧ 1 ≤ bits 0x0001020000010200#64 57 48 ∧
      bits 0x0001020000010200#64 57 48 ≤ 512 ∧ ∀ o, o < 5 → ∀ b, ready.bankActive 0 o b = false) ∧
    ∀ r, ready.imageOn r = false :=
  ⟨by decide, by decide, ⟨1, by decide⟩, by decide, fun _ => rfl⟩

theorem witness_HoldRegisters : ([(.pf, .rgn 39, 0x220, 1, 0), (.vf 1, .rgn 0, 0x220, 2, 1), (.fm, .rgn 39, 0x220, 4, 2),
    (.fm, .rgn 39, 0x220, 8, 3)] : List (Party × Block × Nat × Dword × Nat)).all (fun p =>
      permitted (inRun {} none) p.1 p.2.1 p.2.2.1 p.2.2.2.1 && ((inRun {} none).oneBits p.1 p.2.1 p.2.2.1).getLsbD p.2.2.2.2) = true ∧
    ((inRun {} none).leadOf 0 = some 0 ∧ ((inRun {} none).part 0).img = some image ∧ (inRun {} none).running 0 = true ∧
      image.ownSwaps = true ∧ ((inRun {} none).region 0).ctl.run = true) ∧ ready.mgt.ready = true := by decide

theorem witness_ModeRegisters :
    writable ready [(.pf, .mgt, 0x20, setField (ready.mgtReg 0x20) 0 1 1), (.pf, .mgt, 0x20, setField (ready.mgtReg 0x20) 4 11 2047),
      (.pf, .mgt, 0x20, setField (ready.mgtReg 0x20) 1 1 1), (.pf, .mgt, 0x28, setField (ready.mgtReg 0x28) 0 16 65535),
      (.fm, .mgt, 0x28, setField (ready.mgtReg 0x28) 16 16 65535)] = true ∧
    permitted ready .pf .mgt 0x18 1 = true ∧ (ready.oneBits .pf .mgt 0x18).getLsbD 0 = true ∧
    ¬ (600 ≤ bits (setField 0#64 4 11 610) 14 4 ∧ bits (setField 0#64 4 11 610) 14 4 ≤ 1200 ∧ bits (setField 0#64 4 11 610) 14 4 % 25 = 0) ∧
    (600 ≤ bits (setField 0#64 4 11 1200) 14 4 ∧ bits (setField 0#64 4 11 1200) 14 4 ≤ 1200 ∧
      bits (setField 0#64 4 11 1200) 14 4 % 25 = 0 ∧ (setField 0#64 4 11 1200).getLsbD 1 = ready.mgt.ilv) ∧
    ∃ m : Mgt, 2999 < m.floorW ∧ inputRating m.fuses < 65535 := by
  refine ⟨by decide, by decide, by decide, by decide, by decide, { ready.mgt with floorW := 3000 }, by decide⟩

theorem witness_EdgeRegisters :
    writable ready [(.pf, .edg 15, 0x78, 0x80000001), (.pf, .edg 0, 0x80, 0x80200), (.pf, .die 3, 0x848, 1),
      (.pf, .die 0, 0x850, 0x80200)] = true ∧
    (∃ v : BitVec 32, (((ready.edge (.hbm 0)).ports.look {} 0).bank0.look 0 0) ≠ v ∧ edgeEntryOk (.hbm 0) v = false) ∧
    (∃ v : BitVec 32, (((shared.edge (.hbm 0)).ports.look {} 0).bank0.look 0 0) ≠ v ∧ edgeEntryOk (.hbm 0) v = true ∧
      eLine v < shared.portLines (.hbm 0) (shared.edge (.hbm 0)).estPort ∧
      shared.edgeActive (.hbm 0) ((shared.edge (.hbm 0)).ports.look {} 0) 0 false = false) ∧
    edgePorts (.hbm 0) ≤ 25 ∧
    (∀ b, ready.edgeActive (.hbm 0) ((ready.edge (.hbm 0)).ports.look {} 0) (ready.edge (.hbm 0)).estPort b = false) ∧
    1 ≤ bits 0x80200#64 9 0 ∧ bits 0x80200#64 9 0 ≤ 512 ∧ 1 ≤ bits 0x80200#64 19 10 ∧ bits 0x80200#64 19 10 ≤ 512 :=
  ⟨by decide, ⟨0x80000000, by decide⟩, ⟨1, by decide⟩, by decide, by decide, by decide⟩

/-- Port 0 UP; and the page records being rewritten. -/
def linked : State := { ready with ports := [(0, { st := .up })] }

theorem witness_FabricRegisters :
    writable ready [(.fm, .die 0, 0x8, 0x2FFF), (.fm, .die 3, 0x50, 0x3F2F), (.fm, .die 0, 0x80038, setField (ready.colReg 0 0x80038) 0 1 1)] = true ∧
    (0x2FFF#64).getLsbD 14 = false ∧
    (permitted ready .pf (.die 3) 0x10 (setField (ready.iraReg 3 0x10) 0 1 1) = true ∧
      (ready.taken .pf (.die 3) 0x10 (setField (ready.iraReg 3 0x10) 0 1 1)).getLsbD 1 = (ready.iod 3).gmSelf) ∧
    (permitted ready .fm (.die 0) 0x10 (setField (ready.iraReg 0 0x10) 1 1 1) = true ∧
      (ready.taken .fm (.die 0) 0x10 (setField (ready.iraReg 0 0x10) 1 1 1)).getLsbD 1 ≠ (ready.iod 0).gmSelf) ∧
    ((ready.iod 3).portSel.toNat < 12 ∧ (ready.oneBits .pf (.die 3) 0x30).getLsbD 0 = true ∧
      (ready.oneBits .pf (.die 3) 0x30).getLsbD 1 = true ∧ (ready.oneBits .pf (.die 3) 0x30).getLsbD 2 = true ∧
      (∀ full, permitted ready .pf (.die 3) 0x30 (pack [(0, 1), (1, b2n full)]) = true) ∧ permitted ready .pf (.die 3) 0x30 4 = true) ∧
    ¬ ((1#64).extractLsb' 0 13 = linked.mgt.devId ∧ (1#64).getLsbD 13 = linked.mgt.devValid) ∧ (linked.port 0).st = .up ∧
    (∀ p, p < 48 → (ready.port p).st ≠ .up) ∧
    (∃ l : DigestLog, l.entries < 32768) ∧ (∃ l : DigestLog, 32768 ≤ l.entries) ∧
    ∃ m : Mgt, m.devRewriting = true ∧ m.devValid = true :=
  ⟨by decide, by decide, by decide, by decide, by decide, by decide, by decide, by decide, ⟨{}, by decide⟩,
    ⟨{ entries := 32768 }, by decide⟩, { ready.mgt with devRewriting := true, devValid := true }, by decide⟩

/-- Tile 20, west of which region 0 sends; its L output takes the west input. -/
def border (arrived sent : Nat) : State := { ready with
  routers := [(20, { bank0 := [(0, 0x0004000000000000)], pp0 := 1, bq := [(bqKey .w false, { arrived := arrived })] })]
  regions := [(0, { ctl := { assigned := true, run := true, tables := true, sched := sent }, clk := { on := true } }),
    (1, { ctl := { assigned := true, run := true, tables := true, sched := 40 }, clk := { on := true } })]
  parts := [(0, { live := true, st := .running, img := some image })] }

def atEdge : State := { ready with regions := [(30, { ctl := { run := true, sched := 1 }, clk := { on := true } })] }

theorem witness_BorderWords :
    (∃ a sent, allowance 20 .w = some a ∧ (border 0 50).senderCount 20 .w false = some sent ∧
      (((border 0 50).router 20).bq.look {} (bqKey .w false)).arrived < sent ∧ (border 0 50).linkDown 20 .w = false ∧
      ((border 0 50).region (regionOf 20)).ctl.run = true ∧
      ((((border 0 50).router 20).bq.look {} (bqKey .w false)).arrive
        (dueWord ((border 0 50).region (regionOf 20)).ctl.sched a (((border 0 50).router 20).slack .w))).2 = false) ∧
    (∃ a sent, allowance 20 .w = some a ∧ (border 400 500).senderCount 20 .w false = some sent ∧
      (((border 400 500).router 20).bq.look {} (bqKey .w false)).arrived < sent ∧
      ((((border 400 500).router 20).bq.look {} (bqKey .w false)).arrive
        (dueWord ((border 400 500).region (regionOf 20)).ctl.sched a (((border 400 500).router 20).slack .w))).2 = true) ∧
    ((border 0 0).linkDown 20 .w = false ∧ ((border 0 0).region (regionOf 20)).planeOn = true ∧
      namesInput (((border 0 0).router 20).fields ((border 0 0).region (regionOf 20)).ctl
        ((border 0 0).region (regionOf 20)).clk.count) (dirNo .w) = true ∧
      ((border 0 0).input 20 .w).2 = true ∧ (border 0 0).inTransit 20 .w = false ∧
      (dirNo .w, ((border 0 0).region (regionOf 20)).ctl.sched) ∉ ((border 0 0).router 20).assessed) ∧
    (edgeOf 19800 .n = some (.hbm 0, 0) ∧ (((atEdge.edge (.hbm 0)).ports.look {} 0).bq).arrived < (atEdge.region (regionOf 19800)).ctl.sched ∧
      (atEdge.region (regionOf 19800)).ctl.run = true ∧ atEdge.linkDown 19800 .n = false ∧
      (((atEdge.edge (.hbm 0)).ports.look {} 0).bq.arrive (atEdge.edgeDue 19800 .n)).2 = false) :=
  ⟨⟨12, 50, by decide⟩, ⟨12, 500, by decide⟩, by decide, by decide⟩

theorem witness_RegionBeats :
    (linked.region 39).clk.on = false ∧ ((border 0 0).region 1).clk.on = true ∧ (border 0 0).announcedDue 1 = false ∧
    (∃ x : Region, x.ctl.atPSwap = some 3 ∧ 3 < x.ctl.sched ∧ x.ctl.run = true) ∧
    ∃ x : Region, x.ctl.atTSwap = some 3 ∧ 3 < x.clk.count ∧ x.planeOn = true := by
  refine ⟨by decide, by decide, by decide, ⟨{ ctl := { atPSwap := some 3, sched := 4, run := true } }, by decide⟩,
    ⟨{ ctl := { atTSwap := some 3 }, clk := { on := true, count := 4 } }, by decide⟩⟩

/-! ## Tokens -/

/-- A heard token as a computed check. -/
def heard (s : State) (r cls kind : Nat) (k : Token) : Bool :=
  decide (r < 40) && k.cls.toNat == cls && k.kind.toNat == kind && (s.region r).planeOn && !reservedToken k &&
    !(s.region r).ctl.isStale k

theorem heard_of {s : State} {r cls kind : Nat} {k : Token} (h : heard s r cls kind k = true) : Heard s r cls kind k := by
  simp only [heard, Bool.and_eq_true, decide_eq_true_eq, beq_iff_eq, Bool.not_eq_true'] at h
  exact ⟨h.1.1.1.1.1, h.1.1.1.1.2, h.1.1.1.2, h.1.1.2, h.1.2, h.2⟩

def groupToken (kind : BitVec 4) : Token := { token 1 kind 0 with group := 7 }

/-- A group of tile 0, whose region has lost its plane, and tile 20. -/
def orphaned : State := { ready with
  regions := [(0, { ctl := { assigned := true, run := true } }),
    (1, { ctl := { assigned := true, run := true }, clk := { on := true } })]
  parts := [(0, { live := true, cx1 := 1, st := .running, img := some { image with barriers := [⟨7, [0, 20]⟩] }, owned := [0, 20] })] }

theorem witness_Barriers :
    heard (inRun {} none) 0 1 0 (groupToken 0) = true ∧
    (heard (inRun {} none) 0 1 1 (groupToken 1) = true ∧ (inRun {} none).bellwether 0 7 = some 0 ∧ regionOf 0 = 0 ∧
      (groupToken 1).src.toNat ∈ (inRun {} none).groupRegions 0 7) ∧
    (¬ (∀ x ∈ orphaned.groupRegions 1 7, x = 1 ∨ ∃ d ∈ ((orphaned.region 1).ctl.bars.look {} 7).done, d.1 = x)) ∧
    (∀ x ∈ (inRun {} none).groupRegions 0 7, x = 0) ∧
    (((inRun {} none).region 0).planeOn = true ∧ reservedToken (groupToken 2) = false ∧
      ((inRun {} none).region 0).ctl.isStale (groupToken 2) = false ∧ 0 ∈ (inRun {} none).members 0 7 ∧
      ((inRun {} none).region 0).ctl.sched ≤ nearBeat ((inRun {} none).region 0).ctl.sched (tokBeat (groupToken 2))) ∧
    orphaned.leadOf 0 = some 0 ∧ orphaned.bellwether 0 7 = some 0 ∧ (orphaned.region (regionOf 0)).planeOn = false ∧
      leastTile ((orphaned.members 0 7).filter fun t => 0 < t && orphaned.routerOk t) = some 20 := by decide

theorem witness_Announcements : heard (inRun {} none) 0 2 0 (token 2 0 0) = true ∧ heard (inRun {} none) 0 2 1 (token 2 1 0) = true ∧
    heard (inRun {} none) 0 2 2 (token 2 2 0) = true ∧ heard (inRun {} none) 0 2 5 (token 2 5 0) = true ∧
    (∃ p : BitVec 96, heard (inRun {} none) 0 2 3 { token 2 3 p with src := 63, scope := 3 } = true ∧
      (tokArg { token 2 3 p with src := 63, scope := 3 }).testBit 0 = true) ∧
    heard ready 0 2 4 { token 2 4 0 with src := 63 } = false ∧
    heard (inRun {} none) 0 2 4 { token 2 4 0 with src := 63, scope := 3 } = true :=
  ⟨by decide, by decide, by decide, by decide, ⟨payOf 0 1 0, by decide⟩, by decide, by decide⟩

/-- Region 0 leading an open run with the hold state given. -/
def holding (c : HenCtl) : State := { ready with
  regions := [(0, { ctl := { c with assigned := true, lead := true, run := true }, clk := { on := true, count := 9 } })] }

theorem witness_HoldRequestsAndBeats : heard (holding {}) 0 2 6 (token 2 6 0) = true ∧ heard (holding {}) 0 2 7 (token 2 7 0) = true ∧
    (((holding {}).region 0).ctl.lead = true ∧ ((holding {}).region 0).ctl.run = true ∧ ((holding {}).region 0).ctl.hstate = .running) ∧
    (let s := holding { atHold := some 4, sched := 4 }
     (s.region 0).ctl.atHold = some 4 ∧ 4 ≤ (s.region 0).ctl.sched ∧ (s.region 0).ctl.held = false ∧ (s.region 0).test.pending = false) ∧
    (let s := holding { hstate := .held, held := true }
     (s.region 0).planeOn = true ∧ (s.region 0).ctl.hstate = .held ∧ (s.region 0).ctl.reasons = 0) ∧
    (let s := holding { atResume := some 9, held := true }
     (s.region 0).ctl.atResume = some 9 ∧ 9 ≤ (s.region 0).clk.count ∧ (s.region 0).ctl.resumes 9 = true ∧ (s.region 0).ctl.held = true) :=
  ⟨by decide, by decide, by decide, ⟨by decide, by decide, by decide, by decide⟩, ⟨by decide, by decide, by decide⟩,
    by decide, by decide, by decide⟩

theorem witness_TokenTraffic :
    (let s := holding { queue := [token 1 0 0, token 4 0 0] }
     (s.region 0).planeOn = true ∧ nextToken (s.region 0).ctl.queue = some (token 1 0 0) ∧ (s.region 0).ctl.lastInject = none) ∧
    (∃ m : Mgt, nextToken m.queue = some (token 4 0 0)) ∧ (∃ g : Edge, nextToken g.queue = some (token 4 0 0)) ∧
    (reservedToken (token 3 0 0xFF) = false ∧ bits (token 3 0 0xFF).pay 15 0 < 0x100) ∧
    (((holding {}).region 0).planeOn = true ∧ reservedToken (token 4 6 0) = false ∧
      ((holding {}).region 0).ctl.isStale (token 4 6 0) = false) :=
  ⟨⟨by decide, by decide, by decide⟩, ⟨{ ready.mgt with queue := [token 4 0 0] }, by decide⟩, ⟨{ queue := [token 4 0 0] }, by decide⟩,
    by decide, by decide⟩

/-- Region 1 follows the lead of region 0; tile 0 contributes to the norms. -/
def normed : State := { ready with
  tiles := [(0, { owned := true, normIndex := some 0 })]
  regions := [(0, { ctl := { assigned := true, lead := true, run := true }, clk := { on := true } }),
    (1, { ctl := { assigned := true, run := true }, clk := { on := true } })]
  parts := [(0, { live := true, cx1 := 1, st := .running, owned := [0], norm := [(5, { ends := [(0, 1)] })]
                  img := some { image with programs := [⟨0, 0, some 0, []⟩], policy := some ⟨false, false, false, false, false, [5], 0⟩ } })] }

theorem witness_NormReports :
    (heard normed 0 7 0 (token 7 0 0) = true ∧ normed.leadOf (normed.region 0).ctl.part = some 0 ∧
      ((normed.part 0).norm.look {} (bits (token 7 0 0).pay 87 80)).occurrence ≤
        ((normed.part 0).norm.look {} (bits (token 7 0 0).pay 87 80)).ends.look 0 (bits (token 7 0 0).pay 78 64) + 1) ∧
    heard normed 0 7 1 (token 7 1 0) = true ∧ heard normed 1 7 0 (token 7 0 0) = true ∧ heard normed 1 7 1 (token 7 1 0) = true ∧
    normed.leadOf (normed.region 1).ctl.part = some 0 ∧
    normed.contributors 0 ≠ [] ∧ ∀ c ∈ normed.contributors 0,
      ((normed.part 0).norm.look {} 5).occurrence ≤ ((normed.part 0).norm.look {} 5).ends.look 0 c.1 := by decide

theorem witness_RegionPhase : Issuing (loaded {} (word 4 3 [(0, 255)])) 0 (word 4 3 [(0, 255)]) (loaded {} (word 4 3 [(0, 255)])) ∧
    wordsOk 4 tokenOk [(3, [(0, 255)])] = true ∧ heard (holding {}) 0 6 0 (token 6 0 255) = true ∧
    (opening.region 0).clk.on = true ∧ (opening.region 0).ctl.atStart = some 5 ∧ 5 ≤ (opening.region 0).clk.count ∧
    (opening.region 0).ctl.assigned = true ∧ (opening.part 0).img = some image ∧ (opening.part 0).st = .starting :=
  ⟨issuing0 _, by decide, by decide, by decide, by decide, by decide, by decide, by decide, by decide⟩

/-! ## Clocks -/

/-- Region 0's clock as given, in an open run. -/
def clocked (k : HenClk) : State := { ready with regions := [(0, { ctl := { assigned := true, run := true }, clk := { k with on := true } })] }

theorem witness_ClockEvents : ready.mgt.pwrOk = true ∧ ready.mgt.darkened = false ∧ ((clocked {}).region 0).clk.on = true ∧
    15 ≤ ((clocked { synth := 15 }).region 0).clk.synth ∧
    (let x := (clocked { count := 4096 }).region 0
     x.clk.count % 4096 = 0 ∧ x.clk.epochAt ≠ some x.clk.count ∧ ready.mgt.fMhz ≤ x.pwr.topMhz ∧ x.clk.lag.le (fracInt 24) = true) ∧
    (let x := (clocked { lag := fracInt 25 }).region 0
     (fracInt 24).lt x.clk.lag = true ∧ x.ctl.assigned = true ∧ x.ctl.run = true ∧ x.ctl.held = false) ∧
    (let x := (clocked { slipOut := true }).region 0
     x.clk.slipOut = true ∧ x.clk.lag.le (fracInt 0) = true) ∧ ((clocked { resyncDue := true }).region 0).clk.resyncDue = true :=
  ⟨by decide, by decide, by decide, by decide, ⟨by decide, by decide, by decide, by decide⟩,
    ⟨by decide, by decide, by decide, by decide⟩, ⟨by decide, by decide⟩, by decide⟩

theorem witness_RateEvents : ((clocked {}).region 0).clk.on = true ∧ 30 ≤ 30 ∧ ((clocked { tripped := true }).region 0).clk.tripped = true ∧
    (∃ m : Mgt, m.fNext = some (1, 825) ∧ 1 ≤ m.nextTick + 1) ∧ (∃ m : Mgt, m.modeWait = true) ∧ ready.anyRun = false ∧
    (ready.mgt.pwrOk = true ∧ ready.mgt.refLost = false) ∧ (∃ m : Mgt, m.refLost = true) ∧
    ∃ m : Mgt, m.fabricLock = true ∧ m.frameTime + 1000000 ≤ m.nextTick :=
  ⟨by decide, by decide, by decide, ⟨{ ready.mgt with fNext := some (1, 825) }, by decide⟩, ⟨{ ready.mgt with modeWait := true }, by decide⟩,
    by decide, by decide, ⟨{ ready.mgt with refLost := true }, by decide⟩,
    { ready.mgt with fabricLock := true, nextTick := 1000000 }, by decide⟩

/-! ## Stacks, edges and pages -/

/-- A descriptor of one line, 1 FILL or 2 DRAIN, with its deadline at beat 600. -/
def desc (addr : Dword) (kind flags : Byte) : OxDesc where
  addr := addr
  start := 0
  deadline := 600
  stageLine := 0
  lines := 1
  kind := kind
  flags := flags
  rsv := 0

/-- HBM site 0 with a share of partition 0, whose run is open at beat 100, and the passes given; page 0 is the partition's. -/
def oxed (d : OxDesc) (ps : List Pass) : State := { ready with
  sites := [(0, { chans := List.range 32, edge := { share0 := { valid := true, mib := 1, descCount := 1, period := 1000 }
                                                    descs := [(0, d)], passes := ps, ports := [(0, { bank0 := [(0, 1)], per0 := 1 })] } })]
  regions := [(30, { ctl := { assigned := true, run := true, tables := true, lead := true, sched := 100 }, clk := { on := true } })]
  parts := [(0, { live := true, cy0 := 3, cy1 := 3, st := .running, img := some image })]
  pages := [(0, pageRecord 0 0 1 0 false)] }

/-- A pass that is due first in the state, and late at beat 100. -/
def dueFirst (s : State) (d : OxDesc) : Bool :=
  let g := s.edge (.hbm 0)
  shareOk (.hbm 0) 0 0 && (g.share 0).valid && decide (0 < (g.share 0).descCount) &&
    decide (s.oxBeat (.hbm 0) (g.share 0).part = some 100) && decide (g.nextPass 0 0 = some (0, 0, 600)) &&
    !g.running 0 0 && !s.passWaits d && decide (s.waiting (.hbm 0) = [(600, 0)]) && decide (600 ≤ 100 + 512) &&
    !g.lateAt.contains (servedKey 0 0, 0)

/-- A local pass due, refused and not, one of another device, and one that is late; the same asking and complete; a line
moved, of a failed channel, kept elsewhere; a miss. -/
theorem witness_OxPasses :
    (dueFirst (oxed (desc 0x200000 1 0) []) (desc 0x200000 1 0) = true ∧ dueFirst (oxed (desc 0x200000 2 0) []) (desc 0x200000 2 0) = true ∧
      dueFirst (oxed (desc 0 2 0) []) (desc 0 2 0) = true ∧ dueFirst (oxed (desc 0 1 1) []) (desc 0 1 1) = true) ∧
    ((oxed (desc 0 1 0) []).memStatus 0 0 false 0 64 = 0 ∧ (oxed (desc 0 1 0) []).memStatus 0 0 true 0x200000 64 = 3) ∧
    (oxRemote (desc 0 1 0) = false ∧ oxRemote (desc 0 1 1) = true ∧ oxFill (desc 0 1 0) = true ∧ oxFill (desc 0 2 0) = false) ∧
    (∀ n ∈ [0, 1], ((oxed (desc 0 1 1) [⟨0, 0, 0, n, []⟩]).edge (.hbm 0)).passes.find?
      (fun p => p.share = 0 && p.desc = 0) = some ⟨0, 0, 0, n, []⟩) ∧ (oxed (desc 0 1 1) [⟨0, 0, 0, 1, []⟩]).inFlight (.hbm 0) 0 0 = 0 ∧
    (let s := oxed (desc 0 1 0) []
     s.ownLine (.hbm 0) 0 = true ∧ s.ownLine (.iod 0) 0 = false ∧
      lineStarts 0 64 = [0] ∧ (s.cell 0).any (fun c => !s.chanFailed c.1 c.2.1) = true ∧
      ((s.modSite 0 fun y => { y with chFailed := -1 }).cell 0).all
        (fun c => (s.modSite 0 fun y => { y with chFailed := -1 }).chanFailed c.1 c.2.1) = true) ∧
    (oxed (desc 0 1 0) []).portMisses (.hbm 0) 0 = some 0 ∧
      (((oxed (desc 0 1 0) []).edge (.hbm 0)).ports.look {} 0).assessed = none := by decide +kernel

/-- HBM site 0 with the request given at the head of its ox's queue. -/
def asked (k : List Line) : State := { oxed (desc 0 1 0) [] with
  sites := [(0, { chans := List.range 32, oxq := { n := 10, items := [k] } })] }

/-- A READ, a WRITE, a masked WRITE and an ATOMIC of the page's owner, and a READ of a free page. -/
theorem witness_RingRequests :
    (∀ k ∈ [[header 0 0 0 0 0 0 0 3 0 0 0], [header 1 1 1 0 0 0 0 0 0 0 0, 1], [header 1 2 1 0 0 0 0 0 0 1 0, 1],
        [header 2 3 0 0 0 0 0 2 8 5 0], [header 0 0 0 0 0 0 0 0 0x200000 0 0]],
      ((asked k).site 0).oxq.items = [k] ∧ (asked k).mustWait (hAddr (headOf k) % 2 ^ 40) (64 * reqLines (headOf k)) = false) ∧
    hCls (header 0 0 0 0 0 0 0 3 0 0 0) = 0 ∧ hCls (header 1 2 1 0 0 0 0 0 0 1 0) = 1 ∧ hCls (header 2 3 0 0 0 0 0 2 8 5 0) = 2 ∧
    (asked []).memStatus 0 0 false 0 256 = 0 ∧ (asked []).memStatus 0 0 false 0x200000 64 = 3 := by decide +kernel

/-- Events at site 0: a channel, a row under repair, idle staging, a page in hand-over and one being freed. -/
def moving (mode : BitVec 2) (zeroing : Bool) : State := { oxed (desc 0 1 0) [] with
  pages := [(0, pageRecord 0 0 mode.toNat 0 true)]
  moves := [⟨0, 5, 1, mode, zeroing, none, [], none, 0⟩] }

theorem witness_StackEvents : hbmFitted ready.mgt.fuses 15 = true ∧ (ready.site 15).chFailed.getLsbD 31 = false ∧
    (∃ y : Site, (31, 0, 7) ∈ y.repairing) ∧
    (∃ y : Site, y.chFailed.getLsbD 31 = false ∧ y.st ≠ .failed ∧ y.st ≠ .absent ∧ 8 < popcount (setBit y.chFailed 31)) ∧
    (∃ y : Site, y.chFailed.getLsbD 31 = true) ∧
    (edgeFitted ready.mgt.fuses (.iod 3) = true ∧ (ready.edge (.iod 3)).share0.valid = false ∧
      (ready.edge (.iod 3)).share1.valid = false ∧ (ready.edge (.iod 3)).blockBad = false) ∧ (ready.site 15).halfSlots = false :=
  ⟨by decide, by decide, ⟨{ repairing := [(31, 0, 7)] }, by decide⟩, ⟨{ chFailed := 0xFF, st := .degraded }, by decide⟩,
    ⟨{ chFailed := -1 }, by decide⟩, by decide, by decide⟩

theorem witness_StackEvents_pages : (∃ m, (moving 2 false).moves.find? (fun m => m.page = 0) = some m ∧
      pgPending ((moving 2 false).page 0) = true ∧ m.zeroing = false ∧ m.mode ≠ 0) ∧
    (∃ m, (moving 0 false).moves.find? (fun m => m.page = 0) = some m ∧ pgPending ((moving 0 false).page 0) = true ∧
      m.zeroing = false ∧ m.mode = 0) ∧
    (∃ m, (moving 0 true).moves.find? (fun m => m.page = 0) = some m ∧ pgPending ((moving 0 true).page 0) = true ∧ m.mode = 0) ∧
    (moving 0 true).passOn 0 = false :=
  ⟨⟨_, rfl, by decide +kernel⟩, ⟨_, rfl, by decide +kernel⟩, ⟨_, rfl, by decide +kernel⟩, by decide +kernel⟩

/-- Two bytes across a line; a byte that the map leaves out. -/
theorem witness_MemoryReads : (∀ i j, i < 2 → j < 2 → ((asked []).cell (255 + i)).isSome = true ∧
      (((asked []).cell (255 + i)).map cellKey = ((asked []).cell (255 + j)).map cellKey → i = j)) ∧
    (∀ i, i < 2 → ((asked []).cell (255 + i)).map cellKey ≠ ((asked []).cell 0).map cellKey) ∧
    (asked []).cell 0x1000000000 = none := by
  refine ⟨?_, by decide +kernel, by decide +kernel⟩
  intro i j hi hj
  revert j; revert i
  decide +kernel

/-! ## The fabric -/

/-- Device 5 is a fabric manager; the request given is at the head of port 0's queue; page 0 is this module's partition 0's. -/
def served (k : List Line) (quiesced : Bool) : State := { oxed (desc 0 1 0) [] with
  mgt := { ready.mgt with fmDevs := 0x8005 }
  iods := [(0, { fq := [(0, { n := 9, items := [k] })], quiesce := quiesced })] }

/-- A memory operation of each code that the checks let by, and its refusal by a quiesced die. -/
theorem witness_FabricRequests_memory :
    ([header 1 0 0 0 0 0 0 3 0 0 0, header 1 1 1 0 0 0 0 0 0 0 0, header 1 2 1 0 0 0 0 0 0 1 0, header 1 3 0 0 0 0 0 0 0 0 0,
        header 1 3 0 0 0 0 0 7 0 0 0].all fun h =>
      let k := h :: List.replicate (hData h) 0
      (served k false).fqHead 0 == some k && ((served k false).iod 0).st != .dark && (served k false).fabricCheck 0 k == 0 &&
        (served k false).locate (hAddr h % 2 ^ 40) == some (0, 0) && ((served k false).site 0).st != .failed &&
        decide (k.length ≤ (served k false).ringCredit 0) && (served k false).ringJoins (.iod 0) (.hbm 0) &&
        (served k true).fabricCheck 0 k == 16) = true := by decide +kernel

/-- A hand-over allowed and refused, a RECLAIM, a read and a write of SCRATCH in the fabric manager's reach. -/
theorem witness_FabricRequests_control :
    ([0, 1].all fun gen => let k := [header 1 4 0 0 0 0 0 0 0 gen 0]
      (served k false).fqHead 0 == some k && (served k false).fabricCheck 0 k == 0 &&
        (served k false).handCheck 0 0 0 gen == 6 * gen) = true ∧
    (let k := [header 1 5 0 5 0 0 0 0 0 0 0]
     ((served k false).fqHead 0 == some k && (served k false).fabricCheck 0 k == 0 && (served k false).mgt.isFm 5 &&
      (served k false).pageMapped 0 && !pgPending ((served k false).page 0) && !(served k false).moving 0) = true) ∧
    ([6, 7].all fun op => let k := [header 1 op 0 5 0 0 0 0 0x1000008 (0x2001 * (op - 6)) 0]
      let s := served k false
      s.fqHead 0 == some k && s.fabricCheck 0 k == 0 && s.mgt.partyOf 5 == .fm && s.ctlAllowed .fm 0x1000008 &&
        blockOf s.mgt.fuses 0x1000008 == some (.die 0, 8) && !s.overreach .fm (.die 0) 8 (BitVec.allOnes 64) 0x2001 &&
        ((s.popFq 0).writeReg .fm (.die 0) 8 (BitVec.allOnes 64) 0x2001).isSome) = true := by
  refine ⟨?_, ?_, ?_⟩ <;> decide +kernel

/-- Port 47 in the state given, with the packets received. -/
def port (x : Port) : State := { ready with
  mgt := { ready.mgt with devId := 3, devValid := true }
  ports := [(47, x)] }

/-- Up to 15 symbol errors, and more; a frame not whole and one of one lane that is. -/
theorem witness_LinkPackets_words :
    (({ st := .up, inService := [8] } : Port).listens && ({ st := .up, inService := [8] } : Port).inService.contains 8) = true ∧
    (({ st := .up, inService := [7, 8], frames := [(0, 8, [])] } : Port).frameFlits 0).isSome = false ∧
    (({ st := .up, inService := [8], frames := [(0, 8, [])] } : Port).frameFlits 0).isSome = true ∧
    (crcGood [1] = false) ∧ (crcGood (sealed [header 3 0 0 0 0 0 0 0 0 0 0]) && decide (hSeq (header 3 0 0 0 0 0 0 0 0 0 0) = 0)) = true := by
  refine ⟨?_, ?_, ?_, ?_, ?_⟩ <;> decide +kernel

/-- A LINK packet of each operation, received. -/
theorem witness_LinkPackets_ops :
    ((List.range 8).all fun op => let k := [header 4 op 0 0 0 0 0 0 0 0 0]
      ((port { st := .up, rx := [(5, k)] }).port 47).rx.find? (fun k => hCls (headOf k.2) = 4 && hOp (headOf k.2) = op) == some (5, k)) = true ∧
    (((port { st := .up, replay := [[header 3 0 0 0 0 0 0 0 0 0 0]] }).port 47).replay.map fun k => hSeq (headOf k)) = [0] ∧
    hAddr (header 4 0 0 0 0 0 0 0 0 0 0) % 65536 = 0 ∧ tsOk 999999 = true ∧ tsOk 1000000 = false ∧
    (((port { st := .up }).noteGm 47 0).mgt.parent = 47 ∨ ((port { st := .up }).noteGm 47 0).mgt.parent ≠ 47) ∧
    (((port { st := .up }).noteGm 47 0x10003).mgt.parent = 47) ∧ ((port { st := .up }).noteGm 47 0).mgt.parent ≠ 47 ∧
    ((port { st := .ready, sentAdmit := true }).port 47).st = .ready ∧ ((port { st := .down }).port 47).st ≠ .up ∧
    ((0 + 65536 - 0 / 2 ^ 16 % 65536) % 65536 = 0) ∧ ((port { st := .down }).port 47).canSend = false := by
  refine ⟨?_, ?_, ?_, ?_, ?_, ?_, ?_, ?_, ?_, ?_, ?_, ?_⟩ <;> decide +kernel

/-- A peer 3 ps ahead, 5 ps away; and one so far ahead that the tick number wraps. -/
theorem witness_TimeOffsets : ([(0, 8, 8, 10), (2 ^ 64 - 2 ^ 20, 0, 0, 2 ^ 64 - 2 ^ 20)] : List (Nat × Nat × Nat × Nat)).all (fun q =>
    tsOk q.1 && tsOk q.2.1 && tsOk q.2.2.1 && tsOk q.2.2.2) = true ∧
    ((tsPs 8 : Int) = tsPs 0 + 5 + 3 ∧ (tsPs 10 : Int) = tsPs 8 - 3 + 5) ∧
    ∀ a ∈ [0, 8, 8, 10], ∀ b ∈ [0, 8, 8, 10], 2 * ((tsPs a : Int) - tsPs b) < tsRange := by decide +kernel

/-- Ports in the states that the events name. -/
theorem witness_PortEvents_links :
    (({ mapAt := some (0, 1), frame := 32767 } : Port).frame + 65536 - 0) % 65536 < 32768 ∧
    ((port { st := .up }).port 47).st = .up ∧ ((port { st := .up }).port 47).retired.getLsbD 8 = false ∧
    (∃ x : Port, x.st = .up ∧ x.retired.getLsbD 8 = false ∧ ({ x with retired := setBit x.retired 8 } : Port).good.length < 4) ∧
    (∃ x : Port, 4 ≤ ({ x with retired := setBit x.retired 8 } : Port).good.length ∧ x.inService.contains 8 = false) ∧
    (∃ x : Port, 4 ≤ ({ x with retired := setBit x.retired 8 } : Port).good.length ∧ x.inService.contains 8 = true) ∧
    (∃ x : Port, x.st = .up ∧ x.acked ≠ x.rxLseq) ∧
    ((port { st := .down }).mgt.ready = true ∧ ((port { st := .down }).port 47).downByDepart = false ∧
      ((port { st := .down }).port 47).failedQual = false ∧ ((port { st := .down }).port 47).autoTime = none ∧
      ((port { st := .down }).iod (dieOf 47)).st ≠ .dark) ∧ (∃ x : Port, x.draining = true) ∧
    (∃ x : Port, x.st = .retraining ∧ x.draining = false) ∧
    (∃ x : Port, x.st = .qualifying ∧ ({ x with retired := laneMask [0, 1, 2, 3, 4, 8] } : Port).good.length < 4 ∧
      4 ≤ ({ x with retired := laneMask [] } : Port).good.length) ∧ ∃ x : Port, x.txq = [] :=
  ⟨by decide, by decide, by decide, ⟨{ st := .up, retired := 0x3F }, by decide⟩, ⟨{}, by decide⟩,
    ⟨{ inService := [0, 1, 2, 8] }, by decide⟩, ⟨{ st := .up, rxLseq := 1 }, by decide⟩, by decide, ⟨{ draining := true }, rfl⟩,
    ⟨{ st := .retraining }, by decide⟩, ⟨{ st := .qualifying }, by decide⟩, {}, rfl⟩

/-- A transit packet with a route and one without, at 30 and 31 HOPS; responses; requests outstanding and expired. -/
def passing (hops : Nat) : State := { port { st := .up, rx := [(0, [setField (header 1 0 0 0 9 0 0 0 0 0 0) 24 8 hops])] } with
  iods := [(3, { route := [(9, 46)], outstanding := [⟨5, 9, 0, .hbm 0, 0, 0, 0, 1, true⟩] })]
  ports := [(46, { st := .up }), (47, { st := .up, rx := [(0, [setField (header 1 0 0 0 9 0 0 0 0 0 0) 24 8 hops])] })] }

theorem witness_PortEvents_packets :
    ([30, 31].all fun n => let s := passing n
      s.mgt.devValid && (s.iod 3).st != .dark && ((s.port 47).rx.find? fun k => 1 ≤ hCls (headOf k.2) && hCls (headOf k.2) ≤ 3 && !s.isOwn (headOf k.2)).isSome &&
        s.routeTo 3 9 == some 46 && s.routeTo 3 8 == none) = true ∧
    (let k := [header 2 0 0 9 3 0 (3 * 16384 + 5) 0 0 0 0]
     ((port { st := .up, rx := [(0, k)] }).port 47).rx.find? (fun q => hCls (headOf q.2) = 2 &&
       (port { st := .up, rx := [(0, k)] }).isOwn (headOf q.2)) == some (0, k)) = true ∧
    ((passing 0).iod 3).outstanding.find? (fun q => q.tag = 5) = some ⟨5, 9, 0, .hbm 0, 0, 0, 0, 1, true⟩ ∧
    ((passing 0).iod 3).outstanding.find? (fun q => q.tag = 6) = none := by
  refine ⟨?_, ?_, ?_, ?_⟩ <;> decide +kernel

/-- A request of port 0, heard 4 ticks ago: in a hand-over, at an ox, in the port's own queue. -/
def overdueIn (moves : List HandOver) (ox fq : List (List Line)) : State := { ready with
  mgt := { ready.mgt with nextTick := 5 }
  ports := [(0, { st := .up, reqs := [(0, 0, 0)] })]
  iods := [(0, { fq := [(0, { n := 9, items := fq })] })]
  sites := [(15, { oxq := { n := 10, items := ox } })]
  moves := moves }

theorem witness_PortEvents_expired :
    (let s := overdueIn [⟨0, 5, 1, 1, false, some 0, [header 1 4 0 0 0 0 0 0 0 0 0], none, 0⟩] [] []
     (s.overdue 0 == some (0, 0, 0) && s.moves.any fun m => m.port == some 0 && hTag (headOf m.req) == 0) = true) ∧
    (let s := overdueIn [] [[ringHead 0 0 1 (header 1 0 0 0 0 0 0 0 0 0 0)]] []
     (s.overdue 0 == some (0, 0, 0) && s.moves.isEmpty &&
       (s.site 15).oxq.items.any fun k => ringKind (headOf k) == 1 && ringWho (headOf k) == 0 && hTag (headOf k) == 0) = true) ∧
    (let s := overdueIn [] [] [[header 1 0 0 0 0 0 0 0 0 0 0]]
     (s.overdue 0 == some (0, 0, 0) && s.moves.isEmpty && ((List.range 16).all fun x => (s.site x).oxq.items.isEmpty) &&
       (((s.iod 0).fq.look { n := 9 } 0).items.any fun k => hTag (headOf k) == 0)) = true) := by
  refine ⟨?_, ?_, ?_⟩ <;> decide +kernel

theorem witness_PortEvents_lanes : (({ badRun := 16 } : Lane).failing 0 = true ∧ ({ badRun := 15 } : Lane).failing 0 = false) ∧
    (({ errs := [(0, 4250001)] } : Lane).failing 0 = true ∧ ({ errs := [(0, 4250000)] } : Lane).failing 0 = false) := by
  decide +kernel

/-! ## Power and heat -/

/-- Region 0's power state at time `now`. -/
def powered (p : HenPwr) (now : Nat) : State := { ready with
  mgt := { ready.mgt with nextTick := now }
  regions := [(0, { pwr := p, clk := { on := true } })] }

theorem witness_RegionPower : (∀ n ∈ [15, 16, 23, 24], popcount (setBit (BitVec.ofNat 64 (2 ^ n - 1)) 63) = n + 1 ∧
      (BitVec.ofNat 64 (2 ^ n - 1)).getLsbD 63 = false) ∧
    ((powered {} 0).region 0).pwr.st ≠ .isolated ∧
    (∃ p : HenPwr, p.reEnabled = true ∧ ((powered p 5).region 0).pwr.reEnabled = true ∧ (powered p 5).now ≤ p.reTime + 1000000) ∧
    (let p : HenPwr := { st := .isolated }
     ((powered p 1000001).region 0).pwr.noReturn = false ∧ p.reEnabled = false ∧ p.tripTime + 1000000 ≤ (powered p 1000001).now) ∧
    (baseAt 100 [(100, 100)] = 100 ∧ 20 * (102 - 98) < 100 ∧ 3 * 100 < 2 * 151 ∧
      ∃ p : HenPwr, 3 ≤ min (p.streak + 1) 15 ∧ p.crack = false) ∧
    (5 * 100 < 2 * 251 ∧ ∃ p : HenPwr, 3 ≤ min (p.streak25 + 1) 15 ∧ p.st ≠ .isolated) ∧
    (let s := powered { rampWait := true } 1001
     (s.region 0).pwr.rampWait = true ∧ ((List.range 40).filter fun q => (s.region q).pwr.ramping).length < 4 ∧
      (s.region 0).pwr.rampSince + 1000 ≤ s.now ∧ s.earlierRamp 0 = false) ∧ ((powered { ramping := true } 0).region 0).pwr.ramping = true := by
  refine ⟨by decide, by decide, ⟨{ reEnabled := true }, by decide⟩, by decide +kernel, ⟨by decide, by decide, by decide, { streak := 2 }, by decide⟩,
    ⟨by decide, { streak25 := 2 }, by decide⟩, by decide +kernel, by decide⟩

theorem witness_RegionPower_ramps : ({ ramping := true } : HenPwr).reason = none ∧
    ({ ramping := true, heatOff := true } : HenPwr).reason = some .heat ∧
    ({ ramping := true, phFailed := -1, st := .isolated } : HenPwr).reason = some .phases := by decide

/-- A dark region of a running partition past its limit. -/
def darkened (c : DarkCause) : State := { ready with
  mgt := { ready.mgt with nextTick := 20000001 }
  regions := [(0, { ctl := { assigned := true }, clk := { on := true }, pwr := { st := .dark, cause := c } })]
  parts := [(0, { live := true, st := .running })] }

theorem witness_RegionHeat_regions :
    (let s := powered { wantDark := some .heat } 0
     (s.region 0).pwr.wantDark = some .heat ∧ (s.region 0).pwr.ramping = false ∧ (s.region 0).ctl.run = false) ∧
    (let s := powered { st := .dark, railUp := true } 0
     (s.region 0).dark = true ∧ (s.region 0).pwr.railUp = true ∧ (s.region 0).clk.lag.le (fracInt 0) = true ∧
      (s.region 0).pwr.reason = none ∧ (s.region 0).pwr.noReturn = false) ∧
    (∃ n, killAfter ((darkened .heat).region 0).pwr = some n ∧ ((darkened .heat).region 0).ctl.assigned = true ∧
      (darkened .heat).running ((darkened .heat).region 0).ctl.part = true ∧
      ((darkened .heat).region 0).pwr.darkTime + n ≤ (darkened .heat).now) ∧
    (∃ p : HenPwr, p.railOff = false ∧ p.heatOff = true ∧ p.st = .dark ∧ p.tripOff = true) ∧
    ((∃ p : HenPwr, p.st = .dark ∧ p.reason = none) ∧ (∃ p : HenPwr, p.st = .dark ∧ p.reason = some .heat) ∧
      (∃ p : HenPwr, p.st ≠ .dark ∧ p.wantDark = none) ∧ (∃ p : HenPwr, p.st ≠ .dark ∧ p.wantDark ≠ none ∧ p.reason = none) ∧
      ∃ p : HenPwr, p.st ≠ .dark ∧ p.wantDark ≠ none ∧ p.reason = some .heat) :=
  ⟨by decide, by decide, ⟨10000000, by decide⟩, ⟨{ heatOff := true, tripOff := true, st := .dark }, by decide⟩,
    ⟨{ st := .dark }, by decide⟩, ⟨{ st := .dark, heatOff := true }, by decide⟩, ⟨{}, by decide⟩,
    ⟨{ wantDark := some .heat }, by decide⟩, { wantDark := some .heat, heatOff := true }, by decide⟩

theorem witness_RegionHeat_module : ((ready.iod 3).hotOnly = false ∧ (ready.iod 3).darkTillBoot = false) ∧
    (ready.mgt.coolantOk = true ∧ ready.mgt.pwrOk = true ∧ 2 ≤ ready.mgt.stage ∧ ready.mgt.stopped = false) ∧
    (∃ m : Mgt, m.coolantOk = false ∧ m.coolantLost = some 0 ∧ 0 + 10000000 ≤ m.nextTick ∧ m.railsOffW = false ∧ m.railsOffE = false) :=
  ⟨by decide, by decide, { ready.mgt with coolantOk := false, coolantLost := some 0, nextTick := 10000000 }, by decide⟩

/-- Region 0 leads a running partition with a duty; its hen holds or not for POWER. -/
def capped (p : HenPwr) : State := { ready with
  mgt := { ready.mgt with nextTick := 10 }
  regions := [(0, { ctl := { assigned := true, lead := true, run := true }, clk := { on := true }, pwr := p })]
  parts := [(0, { live := true, st := .running, img := some image })] }

theorem witness_PowerBudget : (ready.mgt.ready = true ∧ 0 < meas.etaNum ∧ 0 < meas.etaDen ∧ ready.mgt.interval ≠ ready.now / 100 + 1) ∧
    (¬ (ready.mgt.fixedOn = true ∨ (ready.mgt.modeWait = true ∧ ready.mgt.fixed = true) ∨ 100 < ready.now + 2)) ∧
    (heard (capped {}) 0 6 1 (token 6 1 0) = true ∧ bits (token 6 1 0).pay 5 0 = 0) ∧ reservedToken (token 6 2 0) = false ∧
    (heard (capped {}) 0 6 2 (token 6 2 0) = true ∧ ((capped {}).region 0).ctl.lead = true) ∧
    11 * ((capped { budget := 10 }).region 0).pwr.budget < 10 * 12 ∧ (capped {}).leadOf 0 = some 0 ∧
    ((capped { duty := 1 }).running 0 = true ∧ (capped { duty := 1 }).now % 10 = 0 ∧ 0 < ((capped { duty := 1 }).region 0).pwr.duty ∧
      (capped { duty := 1 }).mgt.fixedOn = false ∧ ((capped { duty := 1 }).region 0).pwr.heldPower = false) ∧
    (((capped { duty := 19, heldPower := true }).region 0).pwr.heldPower = true ∧ ((capped { duty := 19, heldPower := true }).region 0).pwr.duty < 20) := by
  refine ⟨?_, ?_, ?_, ?_, ?_, ?_, ?_, ?_, ?_⟩ <;> decide

/-! ## Bring-up -/

/-- A stage of a boot, the controller's firmware running. -/
def booting (stage : Nat) : State := { State.reset with mgt := { State.reset.mgt with stage := stage, pwrOk := true } }

theorem witness_BringUp :
    (State.reset.mgt.stage = 0 ∧ State.reset.mgt.pwrOk = false) ∧
    ((booting 1).mgt.powered = true ∧ (booting 1).mgt.stage = 1 ∧ (booting 1).mgt.stopped = false ∧ (booting 1).mgt.recovery = false) ∧
    ((booting 2).mgt.retry = (booting 2).mgt ∧ ∃ m : Mgt, m.stopped = true ∧ m.retried = false ∧ m.fail = 6) ∧
    (∀ n, n < 10 → 2 ≤ n → (booting n).works n = true) ∧
    ((booting 3).mgt.fuses.checkOk = true ∧ ∃ f : Fuses, f.checkOk = false) ∧
    (∃ q : SeamFindings, (∀ g ∈ q.groups, isSeam g.1 = true) ∧ (∀ w ∈ q.wires, isWire (.bridge w.1 w.2.1 w.2.2) = true) ∧
      q.groups ≠ [] ∧ q.wires ≠ []) ∧
    ((∀ t ∈ noBist.tiles, t < 20000) ∧ ∀ p ∈ noBist.phases, p.1 < 40 ∧ p.2 < 64) ∧ (∃ u : Units, u.bist = some noBist) ∧
    (∃ m : Mgt, m.refLost = true) ∧ (booting 7).mgt.refLost = false ∧
    ((∀ w ∈ goodQual.wires, w.1 < 25) ∧ (∀ c ∈ goodQual.channels, c.1 < 16 ∧ c.2 < 32)) ∧
    (∃ m : Mgt, m.restarts < 2) ∧ ∃ m : Mgt, 2 ≤ m.restarts ∧ (m.slotOf (!m.slot)).failed = true :=
  ⟨by decide, by decide, ⟨by decide, { ready.mgt with stopped := true, fail := 6 }, by decide⟩, by decide,
    ⟨by decide, { fusesReset with west := { checkOk := false } }, by decide⟩,
    ⟨⟨[(seamGroup, 1, false)], [(24, 1, 2255)]⟩, by decide⟩, by decide, ⟨{ bist := some noBist }, rfl⟩,
    ⟨{ ready.mgt with refLost := true }, rfl⟩, by decide, by decide,
    ⟨ready.mgt, by decide⟩, { ready.mgt with restarts := 2, slotB := { failed := true } }, by decide⟩

/-- The rails up, or the region dark: the halves' rails are on before the self-test. -/
theorem witness_BringUp_rails : ∃ s : State, s.works 5 = true ∧ ∀ r, r < 40 → (s.region r).dark = true ∨ (s.region r).pwr.railUp = true :=
  ⟨{ booting 5 with regions := (List.range 40).map fun r => (r, { pwr := { railUp := true } }) }, by decide +kernel⟩

/-- Region 1 takes its ticks from region 0. -/
def rooted : State := { booting 7 with regions := [(1, { clk := { on := true } })] }

theorem witness_BringUp_training : rooted.works 7 = true ∧ capsMatch fusesReset goodTraining = true ∧
    capsMatch fusesReset { goodTraining with west := 0 } = false ∧
    (let f := { fusesReset with west := { step := 0 } }
     capsMatch f { goodTraining with west := halfWord f true } = true ∧ ifLevel f.stepWest ≠ ifLevel f.stepEast) ∧
    ifLevel fusesReset.stepWest = ifLevel fusesReset.stepEast ∧
    rooted.treeReaches [(0, 4, 0), (1, 3, 20)] (rooted.units.trained goodTraining) = true ∧
    rooted.treeReaches [] (rooted.units.trained goodTraining) = false := by decide +kernel

/-- Firmware the opaque authentication accepts or not: in the second and third statement it is a premise on the bytes. -/
theorem witness_FirmwareAndPower :
    (∃ m : Mgt, m.act = .running ∧ m.nextTick < m.actTime + 10000000) ∧ (∃ m : Mgt, m.act = .running ∧ m.actTime + 10000000 ≤ m.nextTick) ∧
    (∃ m : Mgt, m.recovery = true ∧ m.i3c.isSome = true) ∧ ready.mgt.pwrOk = true ∧ (∃ m : Mgt, m.pwrOk = true ∧ m.perstWindow = true) ∧
    (∃ m : Mgt, m.coolantOk = true ∧ m.railsOffW = true) ∧ ready.mgt.ready = true :=
  ⟨⟨{ ready.mgt with act := .running }, by decide⟩, ⟨{ ready.mgt with act := .running, nextTick := 10000000 }, by decide⟩,
    ⟨{ ready.mgt with recovery := true, i3c := some 8 }, by decide⟩, by decide, ⟨{ ready.mgt with perstWindow := true }, by decide⟩,
    ⟨{ ready.mgt with railsOffW := true }, by decide⟩, by decide⟩

/-! ## Collectives and tests -/

/-- An ALL_REDUCE descriptor of one chunk of 16 FP32 elements, WINDOW 0. -/
def allReduce : ColDesc where
  kind := 1
  rop := 0
  fmtIn := 0
  fmtOut := 0
  rnd := 0
  rsv0 := 0
  src := 0
  srcScale := 0
  dst := 0
  dstScale := 0
  count := 16
  start := 0
  period := 0
  windowUs := 0
  rsv1 := 0
  record := 0

/-- Channel 63 of two ranks, this module (3) and device 4 of rank `peer`, with the operations given. -/
def channelTo (peer : Nat) (ops : List ColOp) (done : BitVec 32) (rx : List (Dword × List Line)) : State := { oxed (desc 0 1 0) [] with
  mgt := { ready.mgt with devId := 3, devValid := true, nextTick := 101 }
  chans := [(63, { st := .active, n := 2, rank := 1 - peer, ranks := if peer = 1 then [(3, 0), (4, 0)] else [(4, 0), (3, 0)], descs := [allReduce], ops := ops, done := done })]
  regions := [(0, { ctl := { assigned := true, run := true, lead := true, sched := 100 }, clk := { on := true } })]
  parts := [(0, { live := true, st := .running, img := some image })]
  ports := [(47, { st := .up, rx := rx })] }

/-- The same where this module is rank 0. -/
def channel : List ColOp → BitVec 32 → List (Dword × List Line) → State := channelTo 1

/-- A COL packet of a chunk from a rank, of `n` elements, with the digest given. -/
def colHead (op seq chunk rank n : Nat) (data : List Line) : Line :=
  pack [(0, 3), (8, op), (16, data.length), (32, 4), (48, 3), (112, 63), (128, seq), (160, chunk), (192, rank), (224, n)]
def colPkt (op seq chunk rank n : Nat) (data : List Line) (digest : Dword) : List Line :=
  setField (colHead op seq chunk rank n data) 320 64 digest.toNat :: data

theorem witness_Collectives_pass : (let s := channel [] 0xFFFFFFFF []
    let x := s.chan 63
    x.st == .active && s.oxBeat (.iod x.home) x.part == some 100 && x.nextDue x.passes == some (0, 0) &&
      decide ((x.ops.filter (·.started)).length < 8) && (List.range (dL (x.desc 0))).all fun k =>
        (partsAt 0 0 0 k (dE (x.desc 0)) (dElems (x.desc 0) k)).all fun p => !s.mustWait p.1 p.2) = true := by decide +kernel

/-- A packet taken in as a computed check. -/
def collected (s : State) (p op : Nat) (came : Dword) (k : List Line) : Bool :=
  decide (p < 48) &&
    decide ((s.port p).rx.find? (fun k => hCls (headOf k.2) = 3 && hOp (headOf k.2) = op && s.isOwn (headOf k.2)) = some (came, k)) &&
    !s.colStale (headOf k) && decide (s.colLines (s.chan (cChan (headOf k))).home < 262144) && colDigest k == cDigest (headOf k)

theorem collected_of {s : State} {p op : Nat} {came : Dword} {k : List Line} (h : collected s p op came k = true) :
    ∃ v, Collected s p op came k v := by
  simp only [collected, Bool.and_eq_true, decide_eq_true_eq, beq_iff_eq, Bool.not_eq_true'] at h
  exact ⟨_, h.1.1.1.1, h.1.1.1.2, h.1.1.2, .inl h.1.2, h.2, rfl⟩

/-- Sixteen zero bytes more in a digest. -/
def zeros16 (c : Dword) : Dword :=
  (List.replicate 16 (0 : Byte)).foldl (fun (c : BitVec 64) (b : Byte) => crc64Bits 8 (c ^^^ (b.setWidth 64 <<< 56))) c

/-- The digest of a packet of one line of zeros, found 16 bytes at a time. -/
theorem digest_of {h : Line} {a b c d e : Dword} (ha : crc64 (((lineBytes h).drop 14).take 26) = a)
    (hb : zeros16 a = b)
    (hc : zeros16 b = c)
    (hd : zeros16 c = d)
    (he : zeros16 d = e) :
    colDigest [h, 0] = e := by
  have z : ([0] : List Line).flatMap lineBytes =
      List.replicate 16 0 ++ List.replicate 16 0 ++ List.replicate 16 0 ++ List.replicate 16 0 := by decide +kernel
  unfold colDigest
  rw [show [h, 0].drop 1 = [0] from rfl, z]
  unfold crc64 at ha ⊢
  rw [List.foldl_append, List.foldl_append, List.foldl_append, List.foldl_append, show headOf [h, 0] = h from rfl, ha]
  exact he ▸ hd ▸ hc ▸ hb ▸ rfl

/-- The contribution of rank 1 to the one chunk, and the result of rank 0. -/
def contribution : List Line := colPkt 0 0 0 1 16 [0] 0x69cadb8e956e1168
def result : List Line := colPkt 1 0 0 0 16 [0] 0x877f9cb6dca87d40

theorem contribution_digest : colDigest contribution = 0x69cadb8e956e1168 :=
  digest_of (a := 0xdc01670675f82e8f) (b := 0x2e7f44464e902b11) (c := 0x987f4f2a00bfc010) (d := 0x5bd7c9b55353d1a5)
    (by decide +kernel) (by decide +kernel) (by decide +kernel) (by decide +kernel) (by decide +kernel)
theorem result_digest : colDigest result = 0x877f9cb6dca87d40 :=
  digest_of (a := 0x618ac619365d4402) (b := 0xdaf471bc7cb9a006) (c := 0x8b9408e0c4ebaf61) (d := 0xd66562ad2f87cb6a)
    (by decide +kernel) (by decide +kernel) (by decide +kernel) (by decide +kernel) (by decide +kernel)

/-- Packets of each operation, of an operation under way and of a recorded one. -/
theorem witness_Collectives_packets :
    collected (channel [newOp 0 0] 0xFFFFFFFF [(7, contribution)]) 47 0 7 contribution = true ∧
    collected (channel [] 5 [(7, contribution)]) 47 0 7 contribution = true ∧
    collected (channelTo 0 [newOp 0 0] 0xFFFFFFFF [(7, result)]) 47 1 7 result = true ∧
    collected (channelTo 0 [] 5 [(7, result)]) 47 1 7 result = true ∧
    2 ^ 31 ≤ ((channel [] 5 []).chan 63).ahead 0 := by
  unfold collected
  rw [contribution_digest, result_digest]
  decide +kernel

/-- A roster and a notice: neither carries data here. -/
theorem witness_Collectives_notices :
    (let k := colPkt 2 0 0 1 0 [] (colDigest [colHead 2 0 0 1 0 []])
     collected (channel [newOp 0 0] 0xFFFFFFFF [(7, k)]) 47 2 7 k = true) ∧
    (let k := colPkt 3 0 0 0 0 [] (colDigest [colHead 3 0 0 0 0 []])
     collected (channelTo 0 [newOp 0 0] 0xFFFFFFFF [(7, k)]) 47 3 7 k = true) := by
  refine ⟨?_, ?_⟩ <;> decide +kernel

/-- Contributions and results that their descriptor fits, and not; stale packets and one of a wrong digest. -/
theorem witness_Collectives_contents :
    (let x := (channel [newOp 0 0] 0xFFFFFFFF []).chan 63
     x.ahead 0 < 2 ^ 31 ∧ (x.op 0).isSome = true ∧ x.owner 0 = x.rank ∧ dKind (x.desc 0) = 1 ∧ dL (x.desc 0) = 1 ∧
      ((channelTo 0 [] 0 []).chan 63).owner 0 = cRank (headOf result) ∧ cRank (headOf result) ≠ ((channelTo 0 [] 0 []).chan 63).rank ∧
      colFits 0 (dElems allReduce 0) (chunkLines 0 (dElems allReduce 0)) (headOf contribution) = true ∧
      colFits 0 (dElems allReduce 0) (chunkLines 0 (dElems allReduce 0)) (headOf result) = true ∧
      colFits 0 (dElems allReduce 0) (chunkLines 0 (dElems allReduce 0)) (headOf (colPkt 0 0 0 1 15 [] 0)) = false) ∧
    ((channel [] 0xFFFFFFFF []).colStale (headOf (colPkt 0 64 0 1 16 [0] 0)) = true ∧
      (channel [] 0xFFFFFFFF []).colStale (headOf (colPkt 0 0 0 0 16 [0] 0)) = true) ∧
    (let k := colPkt 0 0 0 1 16 [] 0
     (channel [] 0xFFFFFFFF []).colStale (headOf k) = false ∧ colDigest k ≠ cDigest (headOf k)) ∧
    (lateAfter 0 0 (dWindow allReduce) = true ∧ lateAfter 0 0 (dWindow { allReduce with windowUs := 1 }) = false) := by
  refine ⟨?_, ?_, ?_, ?_⟩ <;> decide +kernel

/-- A chunk with both contributions; one without a result 101 µs after its start. -/
theorem witness_Collectives_chunks :
    (let o := { newOp 0 0 with opened := [(0, 0)], contribs := [⟨0, 0, 64, [], 0, 0⟩, ⟨0, 1, 64, [], 0, 0⟩] }
     let x := (channel [o] 0xFFFFFFFF []).chan 63
     (x.op 0 == some o && o.opened.find? (fun q => q.1 = 0) == some (0, 0) && !o.closed.contains 0 &&
      (o.contribs.filter (fun q => q.chunk = 0)).length == x.n) = true) ∧
    (let o := { newOp 0 0 with started := true }
     let x := (channel [o] 0xFFFFFFFF []).chan 63
     (x.op 0 == some o && (x.keys (x.desc 0)).contains 0 && !o.missing.contains 0 && o.results.isEmpty) = true) ∧
    lateAfter ((channel [] 0 []).chanTime 63) 0 (giveUpAfter allReduce) = true := by
  refine ⟨?_, ?_, ?_⟩ <;> decide +kernel

/-- The module at a device time, tile 0 with the test state given. -/
def tested (st : TestSt) (now : Nat) : State := { ready with
  mgt := { ready.mgt with nextTick := now }
  tiles := [(0, { test := { st := st } })]
  regions := [(0, { clk := { on := true } })] }

/-- Region 0 in a run with a step period and a fallow entry that names tile 0. -/
def stepping : State := { ready with
  tiles := [(0, { owned := true, test := { st := .due } })]
  regions := [(0, { ctl := { assigned := true, lead := true, run := true, sched := 1000 }, clk := { on := true }, test := { coord := true } })]
  parts := [(0, { live := true, st := .running, owned := [0]
                  img := some { image with stepPeriod := 12000000, fallow := [⟨0, 0, 0, 19, 24, 0, false, 1000, 0, 100⟩] } })] }

theorem witness_InFieldTests :
    (((tested .current 0).region (regionOf 0)).dark = false ∧ ((tested .current 0).region (regionOf 0)).planeOn = true ∧
      residueAgrees 8 [1] = true ∧ residueAgrees 8 [2] = false ∧ residueAgrees (-1) [3, 3] = true) ∧
    (((tested .testing 0).modTile 0 fun x => { x with test := { x.test with routers := true } }).tile 0).test.routers = true ∧
    ((tested .current 72000000000).mgt.originSet = true ∧ (tested .current 72000000000).tileState 0 = 0 ∧
      (tested .current 72000000000).lastTest 0 + 20 * 3600000000 ≤ (tested .current 72000000000).now) ∧
    ((tested .due 82800000000).lastTest 0 + 23 * 3600000000 ≤ (tested .due 82800000000).now ∧ ((tested .due 82800000000).tile 0).test.st = .due) ∧
    ((tested .overdue 86400000000).lastTest 0 + 24 * 3600000000 ≤ (tested .overdue 86400000000).now ∧
      ((tested .overdue 86400000000).tile 0).test.st = .overdue) ∧
    ((tested .due 0).mgt.ready = true ∧ ((tested .due 0).region (regionOf 0)).ctl.assigned = false ∧ ((tested .due 0).tile 0).st = .idle ∧
      isDue ((tested .due 0).tile 0).test.st = true) ∧
    ((tested .testing 0).modClk 0 fun k => { k with count := 1920000 }).tile 0 = (tested .testing 0).tile 0 ∧
    ((((tested .testing 0).modClk 0 fun k => { k with count := 1920000 }).region (regionOf 0)).clk.count = 1920000 ∧
      ((tested .testing 0).tile 0).test.beganAt + 1920000 ≤ 1920000 ∧ ((tested .testing 0).tile 0).test.st = .testing) := by
  refine ⟨?_, ?_, ?_, ?_, ?_, ?_, ?_, ?_⟩ <;> decide +kernel

theorem witness_InFieldTests_runs :
    (stepping.part (stepping.region 0).ctl.part).img.map (fun i => (i.fallow.map (·.region), decide (0 < i.stepPeriod), occurs 1000 0 1000)) =
      some ([0], true, true) ∧ (stepping.region 0).ctl.run = true ∧ (stepping.region 0).ctl.held = false ∧
    permitted ready .fm (.rgn 39) 0x600 1 = true ∧ (ready.oneBits .fm (.rgn 39) 0x600).getLsbD 0 = true ∧ (ready.region 39).ctl.assigned = false ∧
    permitted stepping .fm (.rgn 0) 0x600 1 = true ∧ (stepping.oneBits .fm (.rgn 0) 0x600).getLsbD 0 = true ∧
    stepping.running (stepping.region 0).ctl.part = true ∧
    (∀ q ∈ stepping.partRegions (stepping.region 0).ctl.part, (stepping.region q).test.pending = false) ∧
    (0 < 12000000 ∧ occurs 40000000 12000000 100000000 = true ∧ 89500000 + 96 ≤ 100000000) ∧
    reservedToken (token 5 0 0) = false ∧ reservedToken (token 5 3 39) = false ∧ heard stepping 0 5 1 (token 5 1 0) = true ∧
    heard stepping 0 5 2 (token 5 2 0) = true := by
  refine ⟨?_, ?_, ?_, ?_, ?_, ?_, ?_, ?_, ?_, ?_, ?_, ?_, ?_, ?_, ?_⟩ <;> decide +kernel

/-- The pause point of the example of chapter 13. -/
theorem test_pause_point : pausePoint 40000000 12000000 89500000 = 100000000 := by decide

/-! ## Reports -/

/-- The units with the seam group's spare used or not, bad wires, and the wrong beats given; a second has passed. -/
def wired (used : Bool) (bad : List WireId) (doubles : List (Nat × Nat × Nat)) : State := { ready with
  mgt := { ready.mgt with nextTick := 1000001 }
  units := { seamUsed := if used then [seamGroup] else [], badWires := bad, doubles := doubles } }

theorem witness_UnitsAndReports_wires : let w : WireId := .seam seamGroup 1
    ([wired false [] [], wired true [] [], wired true [.seam seamGroup 2] []].all fun s =>
      isWire w && wireFitted s.mgt.fuses w && !s.wireDown w && s.units.carries w == some w && !s.units.badWires.contains w) = true ∧
    ((wired false [] []).units.spareFree w = true ∧ (wired true [] []).units.spareFree w = false ∧
      (wired true [] []).units.groupFailing w = false ∧ (wired true [.seam seamGroup 2] []).units.groupFailing w = true) ∧
    (64 ≤ ((wired false [] []).units.correct w 1000001 64).inSecond w 1000001 ∧
      ((wired false [] []).units.correct w 1000001 63).inSecond w 1000001 < 64) ∧
    w ∈ (wired true [w] []).units.badWires ∧
    ((wired false [] [((checkGroup w).1, (checkGroup w).2, 1)]).now ≤ 1 + 1000000) ∧
    (0 + 1000000 < (wired false [] [((checkGroup w).1, (checkGroup w).2, 0)]).now) := by
  refine ⟨?_, ?_, ?_, ?_, ?_, ?_⟩ <;> decide +kernel

theorem witness_UnitsAndReports : ready.mgt.ready = true ∧ (ready.region 39).henBad = false ∧ (ready.region 39).missedPolls < 2 ∧
    (∃ x : Region, x.henBad = false ∧ 2 ≤ x.missedPolls) ∧ 19 ∉ ready.units.segments ∧ ready.units.southBad = false ∧
    ((0xFFFFFFFD#32).toNat % 2 = 1 ∧ (0xFFFFFFFC#32).toNat % 2 = 0 ∧ (0xFFFFFFFC#32).toNat < 0xFFFFFFFE) ∧
    (∃ m : Mgt, ∃ c cs, m.cperHeld = c :: cs ∧ c.time + 1000000 ≤ m.nextTick) ∧
    ((tested .current 0).region 0).planeOn = true ∧ (∃ x : Region, x.tlm.fill = true) ∧ ∃ x : Region, x.tlm.fill = false :=
  ⟨by decide, by decide, by decide, ⟨{ missedPolls := 2 }, by decide⟩, by decide, by decide, by decide,
    ⟨{ ready.mgt with nextTick := 1000000, cperHeld := [⟨0, 0, 0, 0, 0, 0, 0, 0, false, 0, 0, 0, false, 0, 0, 0⟩] }, _, _, rfl, by decide⟩,
    by decide, ⟨{ tlm := { fill := true } }, rfl⟩, {}, rfl⟩

/-- A map is published where none is out, and found unchanged where the present one is. -/
def mapped : State := { ready with mgt := { ready.mgt with pub := some ready.floor } }

theorem mapped_floor : mapped.relock.floor = ready.floor := by
  have l : mapped.relock.floor.lanes = ready.floor.lanes := by decide +kernel
  have a : mapped.relock.tileByte = ready.tileByte := by funext n; rfl
  have b : mapped.relock.linkByte = ready.linkByte := by funext n; rfl
  have c : mapped.relock.regRec = ready.regRec := by funext n; rfl
  have d : mapped.relock.siteRec = ready.siteRec := by funext n; rfl
  have e : mapped.relock.iodRec = ready.iodRec := by funext n; rfl
  have f : mapped.relock.mgt.numLevel = ready.mgt.numLevel := rfl
  have g : mapped.relock.floor.changedAt = ready.floor.changedAt := rfl
  simp only [State.floor] at l g ⊢
  rw [a, b, c, d, e, f, l, g]

theorem witness_UnitsAndReports_map : ready.relock.mgt.pub ≠ some ready.relock.floor ∧
    mapped.relock.mgt.pub = some mapped.relock.floor :=
  ⟨by show (none : Option Floor) ≠ _; exact nofun, congrArg some mapped_floor.symm⟩

/-- A mailbox request of `n` bytes waits. -/
def mailed (op n : Nat) (bytes : List (Nat × Byte)) (keys : Tab (Option KeySlot)) : State := { ready with
  mgt := { ready.mgt with mboxBusy := true, keys := keys, mbox0 := (0, BitVec.ofNat 8 op) :: (2, BitVec.ofNat 8 n) :: bytes, mboxFill := true } }

theorem witness_MailboxRequests :
    (permitted ready .pf .mgt 0x50 1 = true ∧ (ready.oneBits .pf .mgt 0x50).getLsbD 0 = true) ∧
    ([(1, 6), (2, 0), (3, 3), (4, 4), (5, 0), (6, 1)].all fun q => let s := mailed q.1 q.2 [] []
      s.mgt.mboxBusy && mbxNum s.mgt.drainBank 0 2 == q.1 && mbxNum s.mgt.drainBank 2 2 == q.2) = true ∧
    (leNat ((mailed 1 6 [] []).mgt.mbxBytes 4 2) = 0 ∧ leNat ((mailed 1 6 [(12, 255)] []).mgt.mbxBytes 4 2) = 255) ∧
    ((mailed 3 3 [] []).mgt.mbxBytes 0 3).all (fun x => decide (x.toNat ≤ 1)) = true ∧
    ((mailed 3 3 [(10, 2)] []).mgt.mbxBytes 0 3).any (fun x => decide (1 < x.toNat)) = true ∧
    (∀ i, i < 16 → (mailed 6 1 [] []).mgt.keys.look none i = none) ∧
    (mailed 6 1 [] [(15, some ⟨[1], .admin, 0⟩)]).mgt.keys.look none 15 ≠ none := by
  refine ⟨?_, ?_, ?_, ?_, ?_, ?_, ?_⟩ <;> decide +kernel

/-! ## The host -/

/-- A ring entry. -/
def entry (opcode : Byte) (window : Byte) (hostOff devOff : Dword) (length arg : BitVec 32) (arg2 : Dword) : SqEntry where
  opcode := opcode
  flags := 0
  cid := 7
  window := window
  rsv0 := 0
  hostOff := hostOff
  devOff := devOff
  length := length
  arg := arg
  arg2 := arg2
  rsv1 := 0
  phase := 1

/-- Function `f` with its rings on and the queue and state given, an image loaded or not in its partition. -/
def ringed (f : Nat) (x : Fn) (q : Part) : State := { oxed (desc 0 1 0) [] with
  mgt := ready.mgt
  fns := [(f, { x with enabled := true, ring := some 0, sqOn := true, cqOn := true })]
  parts := [(f - 1, q)] }

/-- The state after the entry at the head is taken. -/
def taken (f : Nat) (x : Fn) (q : Part) : State := (ringed f x q).modFn f fun y => { y with queue := [] }

theorem starts (f : Nat) (x : Fn) (p : Part) (e : SqEntry) (hf : f ≤ 16) (hs : x.mayStart ⟨e, 1, none⟩ = true) :
    Starts (ringed f { x with queue := [⟨e, 1, none⟩] } p) e.opcode.toNat f ⟨e, 1, none⟩ (taken f { x with queue := [⟨e, 1, none⟩] } p) where
  fn := hf
  opcode := rfl
  accepted := rfl
  may := by
    have : (ringed f { x with queue := [⟨e, 1, none⟩] } p).fn f =
        { x with queue := [⟨e, 1, none⟩], enabled := true, ring := some 0, sqOn := true, cqOn := true } := by
      simp [State.fn, ringed, Tab.look]
    rw [this]; exact hs
  head := ⟨[], by simp [State.fn, ringed, Tab.look], rfl⟩

/-- A ring that is full with completions waiting, and one with room. -/
theorem witness_FullCompletionRing : ({ cqTail := 15, cqHead := 0 } : Fn).cqFull = true ∧
    (∃ x : Fn, ∃ e es, x.waitCq = e :: es ∧ x.cqFull = true) ∧ ∃ x : Fn, ∃ e es, x.waitCq = e :: es ∧ x.cqFull = false ∧ x.cqOn = true :=
  ⟨by decide, ⟨{ cqTail := 15, waitCq := [⟨0, 0, 0, 0, 0, 0⟩] }, _, _, rfl, by decide⟩,
    { cqOn := true, waitCq := [⟨0, 0, 0, 0, 0, 0⟩] }, _, _, rfl, by decide, rfl⟩

theorem witness_HostRings :
    writable ready [(.pf, .page 16, 0x10, setField (ready.pageReg 16 0x10) 0 12 4095), (.vf 16, .page 16, 0x20, setField (ready.pageReg 16 0x20) 0 12 4095),
      (.pf, .page 0, 0x18, setField (ready.pageReg 0 0x18) 4 1 1), (.vf 1, .page 1, 0x08, setField (ready.pageReg 1 0x08) 4 1 1)] = true ∧
    (ready.writeRing 0 true (ready.taken .pf (.page 0) 0x18 (setField (ready.pageReg 0 0x18) 4 1 1))).isSome = true ∧
    ((addrOf .mgt 0x18 < 2 ^ 40) ∧ permitted ready .pf .mgt 0x18 1 = true ∧ (ready.writeReg .pf .mgt 0x18 (BitVec.allOnes 64) 1).isSome = true) ∧
    ((ready.reach 1 8).1 ≠ 0) ∧ ((ready.reach (addrOf .mgt 0x20) 8).1 = 0 ∧
      ready.mayRead (.vf 1) (ready.reach (addrOf (.die 0) 0x8) 8).2.1 0x8 = false) ∧
    (({} : Fn).sqSize = 16 ∧ (3 + ({} : Fn).cqSize - 0) % 16 ≤ (5 + ({} : Fn).cqSize - 0) % 16 ∧ (5 + 16 - 0) % 16 < (6 + 16 - 0) % 16) ∧
    (4 ≤ bits (0x14#64) 3 0 ∧ bits (0x1C#64) 3 0 ≤ 12 ∧ (0x14#64).getLsbD 4 = true ∧ ({} : Fn).sqOn = false) ∧
    (let x : Fn := { sqOn := true, cqOn := true, sqTail := 1 }
     x.sqOn = true ∧ x.sqHead ≠ x.sqTail ∧ x.cqFull = false) := by
  refine ⟨?_, ?_, ?_, ?_, ?_, ?_, ?_, ?_⟩ <;> decide +kernel

theorem witness_HostCommands_windows :
    (let e := entry 1 63 0x1000 0 0 0 (2 ^ 48)
     Starts (ringed 16 { queue := [⟨e, 1, none⟩] } {}) 1 16 ⟨e, 1, none⟩ (taken 16 { queue := [⟨e, 1, none⟩] } {}) ∧
      e.window.toNat ≤ 63 ∧ e.hostOff.toNat % 4096 = 0 ∧ e.arg2.toNat ≠ 0 ∧ e.arg2.toNat ≤ 2 ^ 48) ∧
    ((taken 16 {} {}).fn 16).windows.look none 63 = none ∧
    (entry 1 63 0 0 0 0 (2 ^ 48 + 1)).arg2.toNat > 2 ^ 48 ∧ (entry 1 63 0 0 0 0 0).arg2.toNat = 0 ∧
    (let e := entry 2 63 0 0 0 0 0
     Starts (ringed 16 { queue := [⟨e, 1, none⟩], windows := [(63, some (0, 64))] } {}) 2 16 ⟨e, 1, none⟩
      (taken 16 { queue := [⟨e, 1, none⟩], windows := [(63, some (0, 64))] } {})) ∧
    ((taken 16 { windows := [(63, some (0, 64))] } {}).fn 16).windows.look none 63 = some (0, 64) :=
  ⟨⟨starts 16 {} {} _ (by decide) (by decide), by decide, by decide, by decide, by decide⟩, by decide, by decide, by decide,
    starts 16 { windows := [(63, some (0, 64))] } {} _ (by decide) (by decide), by decide⟩

/-- Partition 2 of the example of chapter 14: window 5, and pages 0 to 2,047 and 4,095 as far as they matter. -/
def windowed : State := { oxed (desc 0 1 0) [] with
  fns := [(3, { windows := [(5, some (0x4000000000, 0x100000000))] })]
  pages := [(0, pageRecord 0 2 1 0 false), (4095, pageRecord 0 2 1 0 false), (4096, pageRecord 0 3 1 0 false)] }

theorem test_dma_checks :
    windowed.dmaRefused 3 (entry 3 5 2 0 0xFFFFFFFF 0 0) true = some (2, 0, 0x100000001) ∧
    windowed.dmaRefused 3 (entry 3 5 0 0 0 0 0) true = some (1, 4, 0) ∧
    windowed.dmaRefused 3 (entry 3 5 0 0x1FFE00000 0x400000 0 0) true = some (33, 0, 0x200000000) ∧
    windowed.dmaRefused 3 (entry 3 5 0 0 64 0 0) true = none := by
  refine ⟨?_, ?_, ?_, ?_⟩ <;> decide +kernel

/-- A DMA in progress, one whose bytes all moved, one stopped, and one with an uncorrectable line. -/
def dmaAt (length moved : Nat) (stop : Option (Nat × Nat)) (bad : Option Nat) : Dma where
  cid := 7
  head := 1
  toDevice := true
  window := 5
  host := 0
  devOff := 0
  length := length
  asked := moved
  moved := moved
  stop := stop
  bad := bad

/-- DMAs that pass and fail; one in progress, those that have ended; a hand-over allowed, one refused. -/
theorem witness_HostCommands_moves :
    (∀ op ∈ [3#8, 4#8], ∀ n ∈ [0#32, 64#32], let e := entry op 5 0 0 n 0 0
      Starts (ringed 3 { queue := [⟨e, 1, none⟩], windows := [(5, some (0, 64))] } {}) op.toNat 3 ⟨e, 1, none⟩
        (taken 3 { queue := [⟨e, 1, none⟩], windows := [(5, some (0, 64))] } {})) ∧
    (∀ d ∈ [dmaAt 64 64 none none, dmaAt 128 64 (some (1, 64)) none, dmaAt 64 64 none (some 0)],
      (({ windowed with fns := [(3, { dmas := [d] })] } : State).fn 3).dmas.find? (fun d => d.cid.toNat = 7 && d.ended) = some d) ∧
    (let s : State := { windowed with fns := [(3, { dmas := [dmaAt 128 64 none none] })] }
     (s.fn 3).dmas.find? (fun d => d.cid.toNat = 7 && d.ended) = none ∧
      (s.fn 3).dmas.find? (fun d => d.cid.toNat = 7) = some (dmaAt 128 64 none none)) ∧
    (let e := entry 8 0 0 0 0 0 0
     Starts (ringed 1 { queue := [⟨e, 1, none⟩] } {}) 8 1 ⟨e, 1, none⟩ (taken 1 { queue := [⟨e, 1, none⟩] } {})) ∧
    (taken 1 {} {}).handCheck 0 0 0 0 = 0 ∧ (taken 1 {} {}).handCheck 1 0 0 0 = 1 := by
  refine ⟨?_, ?_, ⟨rfl, rfl⟩, ?_, ?_, ?_⟩
  · intro op h n k
    simp only [List.mem_cons, List.not_mem_nil, or_false] at h k
    rcases h with rfl | rfl <;> rcases k with rfl | rfl <;>
      exact starts 3 { windows := [(5, some (0, 64))] } {} (entry _ 5 0 0 _ 0 0) (by decide) (by decide)
  · intro d h
    simp only [List.mem_cons, List.not_mem_nil, or_false] at h
    rcases h with rfl | rfl | rfl <;> rfl
  · exact starts 1 {} {} _ (by decide) (by decide)
  · decide +kernel
  · decide +kernel

/-- An end of the host's memory in a command that starts before the host's bytes are written. -/
theorem witness_HostCommands_host (s : State) : s.hostBytes [] = s := by
  cases s; rfl

theorem witness_HostCommands_runs :
    (let e := entry 5 5 0 0 64 0 0
     Starts (ringed 1 { queue := [⟨e, 1, none⟩] } { live := true }) 5 1 ⟨e, 1, none⟩ (taken 1 { queue := [⟨e, 1, none⟩] } { live := true }) ∧
      ((ringed 1 {} { live := true }).fn 1).busy = none ∧ ((ringed 1 {} { live := true }).part 0).st = .empty ∧
      (({ windowed with fns := [(1, { windows := [(5, some (0, 64))] })] }).fn 1).windows.look none 5 = some (0, 64) ∧ e.length.toNat ≠ 0 ∧
      e.hostOff.toNat + e.length.toNat ≤ 64) ∧
    (let s := ringed 1 { busy := some ⟨entry 5 5 0 0 64 0 0, 1, none⟩ } { live := true, st := .loading }
     (s.fn 1).busy = some ⟨entry 5 5 0 0 64 0 0, 1, none⟩ ∧ (s.part 0).st = .loading) ∧
    (∀ q ∈ [({ live := true } : Part), { live := true, st := .running, img := some image }, { live := true, st := .loaded, img := some image }],
      Starts (ringed 1 { queue := [⟨entry 6 0 0 0 0 0 0, 1, none⟩] } q) 6 1 ⟨entry 6 0 0 0 0 0 0, 1, none⟩
        (taken 1 { queue := [⟨entry 6 0 0 0 0 0 0, 1, none⟩] } q) ∧
      Starts (ringed 1 { queue := [⟨entry 7 0 0 0 0 0 0, 1, none⟩] } q) 7 1 ⟨entry 7 0 0 0 0 0 0, 1, none⟩
        (taken 1 { queue := [⟨entry 7 0 0 0 0 0 0, 1, none⟩] } q)) ∧
    ((taken 1 {} { live := true, st := .loaded, img := some image }).unfit 0 image = none) := by
  refine ⟨⟨starts 1 {} _ _ (by decide) (by decide), by decide, by decide, by decide, by decide, by decide⟩, ⟨rfl, rfl⟩, ?_, by decide +kernel⟩
  intro q _
  exact ⟨starts 1 {} q _ (by decide) (by decide), starts 1 {} q _ (by decide) (by decide)⟩

/-- PART_CREATE of the whole module free, in use, and of a live partition; reset and destruction; the reset of a run. -/
theorem witness_Partitions :
    (let a : BitVec 32 := pack [(0, 15), (8, 0), (12, 0), (16, 9), (20, 3)]
     bits a 7 4 = 0 ∧ bits a 15 14 = 0 ∧ bits a 31 22 = 0 ∧ bits a 11 8 ≤ bits a 19 16 ∧ bits a 19 16 ≤ 9 ∧ bits a 13 12 ≤ bits a 21 20) ∧
    (let e := entry 0x10 0 0 0 0 (pack [(0, 15), (16, 9), (20, 3)]) 0
     Starts (ringed 0 { queue := [⟨e, 1, none⟩] } {}) 0x10 0 ⟨e, 1, none⟩ (taken 0 { queue := [⟨e, 1, none⟩] } {})) ∧
    (rectRegions 0 0 9 3).all (fun r => !(ready.region r).ctl.assigned) = true ∧ (ready.part 15).live = false ∧
    (rectRegions 0 0 9 3).find? (fun r => (shared.region r).ctl.assigned) = some 0 ∧ ((ringed 16 {} { live := true }).part 15).live = true ∧
    (∀ op ∈ [0x11#8, 0x12#8], ∀ a ∈ [15#32, 31#32], let e := entry op 0 0 0 0 a 0
      Starts (ringed 0 { queue := [⟨e, 1, none⟩] } { live := true }) op.toNat 0 ⟨e, 1, none⟩
        (taken 0 { queue := [⟨e, 1, none⟩] } { live := true })) ∧
    (bits 15#32 31 4 = 0 ∧ bits 31#32 31 4 ≠ 0) ∧
    ((((inRun {} none).abortRing 1).abandonLoad 0 10).part 0).st = .running ∧
    ((ready.fn 1).ring = none ∧ (ready.fn 0).fabric = none ∧ ∀ p, p < 16 → (ready.part p).live = false) ∧
    (ready.mgt.perstLow = false ∧ State.reset.mgt.perstLow = true ∧ ready.mgt.pwrOk = true ∧ ready.mgt.perstWindow = false ∧
      State.reset.mgt.pwrOk = false) := by
  refine ⟨by decide, starts 0 {} {} _ (by decide) (by decide), by decide, by decide, by decide, by decide, ?_, by decide,
    by decide +kernel, by decide, by decide⟩
  intro op h a k
  simp only [List.mem_cons, List.not_mem_nil, or_false] at h k
  rcases h with rfl | rfl <;> rcases k with rfl | rfl <;> exact starts 0 {} _ (entry _ 0 0 0 0 _ 0) (by decide) (by decide)

/-- Session 31 of a role, finished or not, with the enrolled keys given. -/
def inSession (x : Session) (keys : Tab (Option KeySlot)) (f : Fn) : State := { ready with
  mgt := { ready.mgt with keys := keys, nextTick := 20000000 }
  sessions := [(31, some x)]
  fns := [(16, f)] }

def session (role : Role) (finished : Bool) : Session where
  slot := 0
  role := role
  mask := 0x8000
  finished := finished
  lastTime := 0
  keyGen := 0

theorem in_session (role : Role) (keys : Tab (Option KeySlot)) (f : Fn) : InSession (inSession (session role true) keys f) 31 (session role true) :=
  ⟨by decide, rfl, rfl⟩

def adminKey : Option KeySlot := some ⟨[1], .admin, 0⟩

/-- Sessions of each role, BIND allowed, denied and busy, and the key messages with one and two ADMIN keys. -/
theorem witness_SpdmSessions :
    ((inSession (session .admin true) [] {}).session 31 ≠ none ∧ (inSession (session .admin true) [] {}).session 0 = none ∧
      (inSession (session .admin true) [] {}).mgt.keySlot [1] = none ∧
      (inSession (session .admin true) [(15, adminKey)] {}).mgt.keySlot [1] = some (15, ⟨[1], .admin, 0⟩) ∧
      (session .tenant false).finished = false ∧ (session .tenant true).lastTime + 20000000 ≤ (inSession (session .tenant true) [] {}).now) ∧
    (∀ r, InSession (inSession (session r true) [] {}) 31 (session r true)) ∧
    ((session .tenant true).mayBind 16 false = true ∧ (session .tenant true).mayBind 1 false = false ∧ (session .fabric true).mayBind 0 true = true ∧
      (session .admin true).mayBind 0 false = true ∧ (session .fabric true).mayBind 0 false = false) ∧
    (((inSession (session .tenant true) [] {}).heard 31).fn 16).ring = none ∧ (((inSession (session .tenant true) [] { ring := some 30 }).heard 31).fn 16).ring = some 30 ∧
    (((inSession (session .tenant true) [] { ring := some 31 }).heard 31).fn 16).ring = some 31 ∧
    (let m := ((inSession (session .admin true) [(0, adminKey)] {}).heard 31).mgt
     m.isAdmin 0 = true ∧ m.otherAdmin 0 = false ∧ m.isAdmin 15 = false) ∧
    (let m := ((inSession (session .admin true) [(0, adminKey), (15, adminKey)] {}).heard 31).mgt
     m.isAdmin 15 = true ∧ m.otherAdmin 15 = true) ∧
    (∀ m y, m < 32 → ((inSession (session .admin true) [(0, adminKey), (15, adminKey)] {}).heard 31).session m = some y → y.slot ≠ 15) := by
  refine ⟨by decide, fun r => in_session r [] {}, by decide, by decide, by decide, by decide, by decide, by decide, ?_⟩
  intro m y _ h
  have e : ((inSession (session .admin true) [(0, adminKey), (15, adminKey)] {}).heard 31).sessions =
      [(31, some { session .admin true with lastTime := 20000000 })] := by decide
  simp only [State.session, e, Tab.look] at h
  split at h
  · cases h; decide
  · cases h

/-! ## The machine -/

theorem witness_StepRunsFront : ({ State.reset with pending := [.powerGood, .refLost] } : State).pending = .powerGood :: [.refLost] := rfl

theorem witness_IdleStep : State.reset.pending = [] := rfl

theorem witness_WellFormedRuns : wellFormed (.nop 19999) = true ∧ wellFormed (.nop 20000) = false := by decide

theorem witness_EveryStepKeeps : State.reset.memWf ∧ ∃ t, step { State.reset with pending := [.refLost] } = .next t :=
  ⟨by decide, _, rfl⟩

/-! ## The other clauses of the statements with several -/

/-- The dump of tile 0 with its window registered and gone, and while tiles are left. -/
theorem witness_RunEnds_dump :
    (let s : State := { dumping with fns := [(1, { windows := [(0, some (4096, 471040))] })] }
     (s.tile 0).st = .scrub ∧ (s.part 0).dump = 1 ∧ (s.region (regionOf 0)).dark = false ∧
      (s.fn 1).windows.look none (s.part 0).dumpWindow = some (4096, 471040)) ∧
    (dumping.region (regionOf 0)).dark = false ∧ (dumping.fn 1).windows.look none (dumping.part 0).dumpWindow = none ∧
    0 ∈ (dumping.part 0).owned.filter fun t => (dumping.tile t).st == .scrub && !(dumping.tile t).dumped := by decide

/-- Ox and fabric queues with a request, and without. -/
theorem witness_QueueRegisters_items :
    (ready.site 0).oxq.items = [] ∧ ((ready.iod 3).fq.look { n := 9 } 11).items = [] ∧
    (({ ready with sites := [(0, { oxq := { n := 9, items := [[0]] } })] } : State).site 0).oxq.items = [[0]] ∧
    ((({ ready with iods := [(3, { fq := [(11, { n := 9, items := [[0]] })] })] } : State).iod 3).fq.look { n := 9 } 11).items ≠ [] := by
  refine ⟨rfl, rfl, rfl, ?_⟩
  decide

/-- Region 0's partition uses its tables; routers of tile 0 with the periods and banks of reset. -/
def tabled (run : Bool) : State := { ready with
  regions := [(0, { ctl := { assigned := true, tables := true, run := run } })]
  parts := [(0, { live := true, st := if run then .running else .loaded, img := some image })] }

/-- A write that names a way outside the partition, and one to a bank in use. -/
theorem witness_RouterRegisters_entries :
    (let ch := fun (s : State) (o : Nat) => o < 5 ∧ (if (s.router 0).transit o then false else true) = true ∧
        entryField 0x5000#64 o ≠ entryField 0#64 o
     let good := fun (s : State) (o : Nat) =>
        (s.router 0).validField (fun i => s.inTransit 0 (dirOf i)) o (entryField 0x5000#64 o) = true
     (((ready.router 0).bank (ready.router 0).selBank).look 0 (ready.router 0).selPos.toNat = 0) ∧
      ((∀ o, o < 5 → ch ready o → good ready o) ∧ ch ready 1 ∧ (ready.router 0).transit 1 = false ∧
        ready.confined 0 1 (entryField 0x5000#64 1) = false) ∧
      (∀ o, o < 5 → ch (tabled false) o → good (tabled false) o ∧
        (tabled false).confined 0 o (entryField 0x5000#64 o) = true) ∧ ch (tabled false) 1 ∧
        (tabled false).bankActive 0 1 ((tabled false).router 0).selBank = true) := by decide

/-- Periods out of range, periods of tables in use, slack in a run, and transit outputs of links in use. -/
theorem witness_RouterRegisters_refused :
    ((ready.router 0).pp0 ≠ bits 0#64 9 0 ∧ ¬ (1 ≤ bits 0#64 9 0 ∧ bits 0#64 9 0 ≤ 512)) ∧
    (bits 513#64 9 0 ≠ (ready.router 0).pp0 ∧ ¬ (1 ≤ bits 513#64 9 0 ∧ bits 513#64 9 0 ≤ 512)) ∧
    ((ready.router 0).pp0 ≠ bits 256#64 9 0 ∧ (tabled false).bankActive 0 1 false = true ∧
      ((tabled false).router 0).transit 1 = false) ∧
    (((tabled true).region 0).ctl.assigned && (tabled true).running ((tabled true).region 0).ctl.part) = true ∧
    ((tabled true).router 0).slackN ≠ (1#64).extractLsb' 0 6 ∧
    ((tabled true).router 0).tOut.getLsbD 1 ≠ (2#4).getLsbD 1 ∧ (tabled true).imageOn (regionOf 0) = true ∧
    ((tabled true).router 20).tOut.getLsbD 3 ≠ (8#4).getLsbD 3 ∧ neighbour 20 (dirOf 3) = some 19 ∧
    (tabled true).imageOn (regionOf 19) = true := by decide

/-- Region 0 leading an open run in the hold state given. -/
def held (h : HoldSt) (beat : Nat) : State := { ready with
  regions := [(0, { ctl := { assigned := true, lead := true, run := true, hstate := h, holdBeat := beat, sched := 8 }, clk := { on := true, count := 9 } })] }

theorem witness_HoldRegisters_states :
    (ready.region 0).ctl.lead = false ∧
    (∀ h, ((held h 9).region 0).ctl.lead = true ∧ ((held h 9).region 0).ctl.run = true ∧ ((held h 9).region 0).ctl.hstate = h) ∧
    (∀ r, r < 40 → ((held .running 9).region r).clk.count ≤ 9) ∧ ((held .running 9).region 0).clk.count = 9 := by
  refine ⟨by decide, fun h => by cases h <;> decide, by decide, by decide⟩

/-- A port that an edge has not, an entry beyond a share, a bank in use; and the settings of a port. -/
theorem witness_EdgeRegisters_refused :
    (let s := ready.modEdge (.hbm 0) fun g => { g with estPort := 25 }
     edgePorts (.hbm 0) ≤ (s.edge (.hbm 0)).estPort) ∧
    (edgeEntryOk (.hbm 0) 1 = true ∧ ready.portLines (.hbm 0) 0 ≤ eLine 1 ∧ (1 : BitVec 32) ≠ 0) ∧
    (let s : State := { shared with regions := [(30, { ctl := { assigned := true, tables := true } })] }
     edgeEntryOk (.hbm 0) 1 = true ∧ eLine 1 < s.portLines (.hbm 0) 0 ∧
      s.edgeActive (.hbm 0) ((s.edge (.hbm 0)).ports.look {} 0) 0 false = true) ∧
    (let s : State := { shared with regions := [(30, { ctl := { assigned := true, tables := true } })] }
     ((s.edge (.hbm 0)).ports.look {} 0).per0 ≠ bits 0x80100#64 9 0 ∧
      s.edgeActive (.hbm 0) ((s.edge (.hbm 0)).ports.look {} 0) 0 false = true) ∧
    ¬ (((ready.edge (.hbm 0)).ports.look {} 0).per0 = bits 0#64 9 0 ∨ (1 ≤ bits 0#64 9 0 ∧ bits 0#64 9 0 ≤ 512)) := by
  decide

/-- A port in each state that a retraining or a retirement finds; identities kept, changed and refused. -/
theorem witness_FabricRegisters_ports :
    (∀ st, (({ ready with ports := [(0, { st := st })] } : State).port 0).st = st) ∧
    ((0#64).extractLsb' 0 13 = ready.mgt.devId ∧ (0#64).getLsbD 13 = ready.mgt.devValid) ∧
    (bits 0x3F2F#64 5 0 < 48 ∧ bits 0x3F2F#64 13 8 = 63) ∧ ¬ (bits 48#64 5 0 < 48 ∨ bits 48#64 5 0 = 63) := by
  refine ⟨fun st => by cases st <;> rfl, by decide, by decide, by decide⟩

/-- Region 30's edge port of stack 0 with a READ's answer on the way; and a WRITE whose word has not come. -/
def edged (tables : Bool) : State := { atEdge with
  sites := [(0, { edge := { share0 := { valid := true, mib := 1 }, ports := [(0, { bank0 := [(0, 2)] })] } })]
  regions := [(30, { ctl := { assigned := true, run := true, tables := tables, sched := 40 }, clk := { on := true } })]
  parts := [(0, { live := true, cx1 := 9, cy1 := 3, st := .running, img := some image })] }

theorem witness_BorderWords_edge :
    edgeOf 19800 .n = some (.hbm 0, 0) ∧ ((edged true).region (regionOf 19800)).ctl.tables = true ∧
    ((edged true).region (regionOf 19800)).ctl.held = false ∧ ((edged true).edge (.hbm 0)).shareOf 0 ≠ none ∧
    eOp (((edged true).edge (.hbm 0)).ports.look {} 0).entry = 2 ∧
    ((((edged true).edge (.hbm 0)).ports.look {} 0).bq.present ((edged true).edgeDue 19800 .n) ((edged true).linkDown 19800 .n)).2 = true := by
  decide

/-- A transit input's arrival: words of a running region 0 on the transit link to tile 20. -/
theorem witness_BorderWords_transit :
    (let s : State := { border 0 50 with routers := [(19, { tOut := 2 }), (20, {})] }
     ∃ a sent, allowance 20 .w = some a ∧ s.senderCount 20 .w true = some sent ∧
      ((s.router 20).bq.look {} (bqKey .w true)).arrived ≤ sent ∧ s.linkDown 20 .w = false ∧ s.inTransit 20 .w = true) :=
  ⟨12, 0, by decide⟩

/-- A group of tiles 0 and 20 over regions 0 and 1, of which one, or neither, has reported; a tile of neither. -/
def spread : State := { ready with
  regions := [(0, { ctl := { assigned := true, run := true, lead := true }, clk := { on := true } }),
    (1, { ctl := { assigned := true, run := true }, clk := { on := true } }), (2, { ctl := { assigned := true, run := true }, clk := { on := true } })]
  parts := [(0, { live := true, cx1 := 2, st := .running, img := some { image with barriers := [⟨7, [0, 20]⟩] }, owned := [0, 20] })] }

theorem witness_Barriers_spread :
    ((spread.region 0).ctl.bars.look {} 7).done = [] ∧ spread.groupRegions 0 7 = [0, 1] ∧
    ¬ (∀ x ∈ spread.groupRegions 0 7, ∃ d ∈ [(0, 5)], d.1 = x) ∧ (∀ x ∈ spread.groupRegions 0 7, ∃ d ∈ [(0, 5), (1, 6)], d.1 = x) ∧
    (∀ m ∈ spread.members 2 7, regionOf m ≠ 2) ∧
    (21 ∉ spread.members 1 7 ∧ regionOf 21 = 1 ∧ 20 ∈ spread.members 1 7 ∧ regionOf 20 = 1) ∧
    ((spread.region 2).planeOn = true ∧ reservedToken (groupToken 2) = false ∧ (spread.region 2).ctl.isStale (groupToken 2) = false) ∧
    (let s : State := { spread with
        regions := [(0, { ctl := { assigned := true, run := true, lead := true } })]
        parts := [(0, { live := true, st := .running, img := some image, owned := [0] })] }
     s.leadOf 0 = some 0 ∧ s.bellwether 0 7 = some 0 ∧ (s.region (regionOf 0)).planeOn = false ∧
      leastTile ((s.members 0 7).filter fun t => 0 < t && s.routerOk t) = none) := by
  refine ⟨rfl, ?_, ?_, ?_, ?_, ?_, ?_, ?_⟩ <;> decide

theorem witness_Announcements_others :
    (heard (inRun {} none) 0 2 3 { token 2 3 0 with src := 63, scope := 3 } = true ∧
      (tokArg { token 2 3 0 with src := 63, scope := 3 }).testBit 0 = false) ∧
    (heard (inRun {} none) 0 2 4 (token 2 4 0) = true ∧ (token 2 4 0).src ≠ 63) := by decide

theorem witness_HoldRequestsAndBeats_others :
    ((ready.region 0).ctl.lead = false) ∧
    (let s := (holding { atHold := some 4, sched := 4 }).modRegion 0 fun x => { x with test := { x.test with pending := true } }
     (s.region 0).ctl.atHold = some 4 ∧ (s.region 0).ctl.run = true ∧ (s.region 0).ctl.held = false ∧ (s.region 0).test.pending = true) ∧
    (let s := holding { atResume := some 9, atHold := some 40 }
     (s.region 0).ctl.atResume = some 9 ∧ (s.region 0).ctl.resumes 9 = true ∧ (s.region 0).ctl.held = false ∧
      (s.region 0).ctl.atHold ≠ none) ∧
    (let s := holding { atResume := some 9 }
     (s.region 0).ctl.atResume = some 9 ∧ (s.region 0).ctl.resumes 9 = true ∧ (s.region 0).ctl.held = false ∧
      (s.region 0).ctl.atHold = none) := by decide

theorem witness_TokenTraffic_others :
    (let s := (holding { queue := [token 1 0 0], lastInject := some 0 }).modClk 0 fun k => { k with count := 16 }
     ∀ b, (s.region 0).ctl.lastInject = some b → b + 16 ≤ (s.region 0).clk.count) ∧
    mayInject none (ready.edgeCount (.iod 0)) = true ∧ mayInject (some 0) (some 15) = false ∧ mayInject (some 0) (some 16) = true ∧
    (reservedToken (token 3 0 0x100) = false ∧ 256 ≤ bits (token 3 0 0x100).pay 15 0 ∧ bits (token 3 0 0x12F).pay 15 0 < 304) ∧
    reservedToken (token 4 6 0) = false := by
  refine ⟨?_, by decide, by decide, by decide, by decide, by decide⟩
  intro s b h
  cases (h : some 0 = some b)
  decide

/-- A contributor that has ended its program with no report on the way, in an occurrence that others have reported. -/
theorem witness_NormReports_part :
    (let s : State := { normed with
        tiles := [(0, { owned := true, normIndex := some 0, st := .halted })]
        parts := [(0, { normed.part 0 with norm := [(5, { pairs := [(1, 1, 3, 0, 0)], ends := [] })] })] }
     s.contributors 0 ≠ [] ∧ (((s.part 0).norm.look {} 5).pairs.filter fun q => q.1 = ((s.part 0).norm.look {} 5).occurrence) ≠ [] ∧
      ∃ c ∈ s.contributors 0, ¬ ((s.part 0).norm.look {} 5).occurrence ≤ ((s.part 0).norm.look {} 5).ends.look 0 c.1 ∧
        (s.tile c.2).over = true ∧
        ((s.part 0).norm.look {} 5).ends.look 0 c.1 + s.normOnWay 0 5 c.1 < ((s.part 0).norm.look {} 5).occurrence) ∧
    normed.leadOf (normed.region 1).ctl.part = some 0 := by decide

theorem witness_ClockEvents_off : ((clocked {}).region 39).clk.on = false ∧ (0 : Nat) ≠ 39 := by decide

theorem witness_RateEvents_fixed :
    (∃ m : Mgt, m.modeWait = true ∧ m.fixed = true ∧ m.fMhz ≠ m.fixedMhz ∧ ∃ k, m.fNext = some (k, m.fixedMhz)) ∧
    (∃ m : Mgt, m.modeWait = true ∧ m.fixed = true ∧ m.fMhz ≠ m.fixedMhz ∧ ∀ k, m.fNext ≠ some (k, m.fixedMhz)) ∧
    (∃ m : Mgt, m.modeWait = true ∧ m.fixed = false) ∧ ∃ k : HenClk, k.tripped = false ∧ k.rising = true :=
  ⟨⟨{ ready.mgt with modeWait := true, fixed := true, fMhz := 600, fixedMhz := 825, fNext := some (2, 825) }, rfl, rfl, by decide, 2, rfl⟩,
    ⟨{ ready.mgt with modeWait := true, fixed := true, fMhz := 600, fixedMhz := 825, fNext := none }, rfl, rfl, by decide, fun _ h => by cases h⟩,
    ⟨{ ready.mgt with modeWait := true, fixed := false }, rfl, rfl⟩, { rising := true }, rfl, rfl⟩

/-- Requests refused: a device that is QUIESCED, no manager, a page beyond the map, a page that is PENDING. -/
theorem witness_FabricRequests_refused :
    (let k := [header 1 4 0 0 0 0 0 0 0 0 0]
     (served k true).fqHead 0 = some k ∧ (served k true).fabricCheck 0 k = 16) ∧
    (let k := [header 1 5 0 4 0 0 0 0 0 0 0]
     (served k true).fabricCheck 0 k = 16 ∧ (served k false).fabricCheck 0 k = 0 ∧ (served k false).mgt.isFm 4 = false) ∧
    (let k := [header 1 5 0 5 0 0 0 0 0xFFFFE00000 0 0]
     (served k false).fabricCheck 0 k = 0 ∧ (served k false).mgt.isFm 5 = true ∧ (served k false).pageMapped (0xFFFFE00000 / 2 ^ 21) = false) ∧
    (let k := [header 1 5 0 5 0 0 0 0 0 0 0]
     let s := { served k false with pages := [(0, pageRecord 0 0 1 0 true)] }
     s.fqHead 0 = some k ∧ s.fabricCheck 0 k = 0 ∧ s.mgt.isFm 5 = true ∧ s.pageMapped 0 = true ∧ pgPending (s.page 0) = true) := by
  refine ⟨?_, ?_, ?_, ?_⟩ <;> decide +kernel

/-- Control requests refused: by the device, by the party, for an address of nothing, for fields of another. -/
theorem witness_FabricRequests_control_refused :
    (let k := [header 1 7 0 5 0 0 0 0 (2 ^ 53) 0x2001 0]
     (served k false).fqHead 0 = some k ∧ (served k false).fabricCheck 0 k = 19) ∧
    (let k := [header 1 6 0 4 0 0 0 0 0x1000008 0 0]
     (served k false).fabricCheck 0 k = 0 ∧ (served k false).ctlAllowed ((served k false).mgt.partyOf 4) 0x1000008 = false) ∧
    (let k := [header 1 6 0 5 0 0 0 0 0x30 0 0]
     (served k false).fabricCheck 0 k = 0 ∧ (served k false).ctlAllowed .fm 0xFFFFFFFF8 = true ∧
      blockOf (served k false).mgt.fuses 0xFFFFFFFF8 = none) := by
  refine ⟨?_, ?_, ?_⟩ <;> decide +kernel

/-- Packets refused by their link, out of order ahead and behind, and of a port that is not UP. -/
theorem witness_LinkPackets_orders :
    hCls (header 4 7 0 0 0 0 0 0 0 0 0) = 4 ∧ hOp (header 4 7 0 0 0 0 0 0 0 0 0) < 8 ∧ 8 ≤ hOp (header 4 8 0 0 0 0 0 0 0 0 0) ∧
    4 < hCls (header 5 0 0 0 0 0 0 0 0 0 0) ∧ ((port { st := .ready }).port 47).st ≠ .up ∧
    (hSeq (header 3 0 0 0 0 0 0 0 0 0 0) + 65536 - ((port { st := .up }).port 47).rxLseq) % 65536 = 0 ∧
    32768 ≤ (hSeq (header 3 0 0 0 0 0 0 0 0 0 0) + 65536 - ((port { st := .up, rxLseq := 1 }).port 47).rxLseq) % 65536 ∧
    (let a := (hSeq (header 3 0 0 0 0 0 0 0 0 0 0) + 65536 - ((port { st := .up, rxLseq := 65535 }).port 47).rxLseq) % 65536
     a ≠ 0 ∧ a < 32768) := by
  refine ⟨?_, ?_, ?_, ?_, ?_, ?_, ?_, ?_⟩ <;> decide +kernel

/-- A partition in each state that a reset finds. -/
theorem witness_Partitions_reset :
    (∀ st, (({ ready with parts := [(0, { live := true, st := st })] } : State).part 0).st = st) ∧
    ∀ st ∈ [RunSt.starting, .running, .loaded, .ending, .empty],
      let s : State := { ready with parts := [(0, { live := true, st := st })] }
      ((((s.abortRing 1).abandonLoad 0 10).modPart 0 fun x => { x with aborting := true }).part 0).st = st := by
  refine ⟨fun st => rfl, ?_⟩
  intro st h
  simp only [List.mem_cons, List.not_mem_nil, or_false] at h
  rcases h with rfl | rfl | rfl | rfl | rfl <;> rfl

/-- A load that waits for the end of a run, one that waits no more, and one that has waited too long. -/
theorem witness_HostCommands_waits :
    (let s : State := { ringed 1 {} { live := true, st := .ending, owned := [0] } with tiles := [(0, { st := .scrub, owned := true })] }
     (s.emptied 0).loadWaits 0 = true) ∧
    (let s := ringed 1 { busy := some ⟨entry 5 5 0 0 64 0 0, 1, none⟩ } { live := true, loadSince := some 0 }
     (s.fn 1).busy = some ⟨entry 5 5 0 0 64 0 0, 1, none⟩ ∧ (s.part 0).loadSince ≠ none ∧ (s.emptied 0).loadWaits 0 = false) ∧
    (let s : State := { ringed 1 { busy := some ⟨entry 5 5 0 0 64 0 0, 1, none⟩ } { live := true, st := .ending, loadSince := some 0 } with
       mgt := { ready.mgt with nextTick := 10000000 } }
     (s.fn 1).busy = some ⟨entry 5 5 0 0 64 0 0, 1, none⟩ ∧ (s.part 0).st ≠ .loading ∧ (s.part 0).loadSince = some 0 ∧
      0 + 10000000 ≤ s.now) ∧
    ∃ st info, ready.imageRefused 0 64 (present image) = some (st, info) := by
  refine ⟨by decide, by decide, by decide, ?_⟩
  match h : ready.imageRefused 0 64 (present image) with
  | some (st, info) => exact ⟨st, info, rfl⟩
  | none => exact absurd h (by decide)

/-! ## Pins (chapter 15) -/

theorem test_contacts : contact true 1 = .presentN ∧ contact true 3 = .perstN ∧ contact false 4 = .faultN ∧ contact false 7 = .refclkP ∧
    contact false 10 = .petP 0 ∧ contact true 56 = .perN 15 ∧ contact false 9 = .gnd ∧ contact false 60 = .gnd := by decide

theorem test_pin_levels : ready.mgt.drives .presentN = .low ∧ State.reset.mgt.drives .pwrOk = .low ∧ ready.mgt.drives .pwrOk = .high ∧
    fibreGroup 47 = 3 ∧ fibrePosition 47 8 = 27 ∧ fibrePosition 12 0 = 1 := by decide

end Sys2Proof.Tests
end

section
/-!
PROOFS. The range checks of the scalar class (R54): the first check that fails of a word in order (R418), and from it
the fault of each branch, jump, loop and scalar memory word.
-/
namespace Sys2Proof.Machine

/-! ## The first failing check (R418) -/

@[simp] theorem firstFault_pass (c : Nat) (l : List (Bool × Nat)) : firstFault ((true, c) :: l) = firstFault l := rfl

@[simp] theorem firstFault_fail (c : Nat) (l : List (Bool × Nat)) : firstFault ((false, c) :: l) = some c := rfl

/-! ## The checks of well-formed words whose target, loop end or address is out of range (R54) -/

section
variable {w : Dword} (hok : scalarOk w = true)
include hok

theorem firstFault_jumpChecks_of_far (ht : 6144 ≤ sTgt w) (sela : Bool) (x : Tile) :
    firstFault (jumpChecks sela w x) = some cAddrRange := by
  have hfar : ¬ sTgt w < 6144 := by omega
  simp [jumpChecks, hok, hfar]

/-- The order of loop ends is not judged at an end out of range, so that the range is what fails (R53). -/
theorem firstFault_loopChecks_of_far (ht : 6144 ≤ sTgt w) (count : Tile → Dword → Nat) (sela : Bool) (x : Tile) :
    firstFault (loopChecks count sela w x) = some cAddrRange := by
  have hfar : ¬ sTgt w < 6144 := by omega
  simp [loopChecks, hok, ht, hfar]

theorem firstFault_memChecks_of_bad {x : Tile} (ha : ¬ (wordAddr x w % 4 = 0 ∧ wordAddr x w < 393216)) (sela : Bool) :
    firstFault (memChecks sela w x) = some cAddrRange := by
  have hbad : decide (wordAddr x w % 4 = 0 ∧ wordAddr x w < 393216) = false := decide_eq_false ha
  simp only [memChecks, hok, hbad, firstFault_pass, firstFault_fail]

end

/-! ## The meanings of the words with a range to check -/

theorem exec_lds (t : Nat) (s : State) : exec (.lds t) s = execLds t s := rfl
theorem exec_sts (t : Nat) (s : State) : exec (.sts t) s = execSts t s := rfl
theorem exec_br (t : Nat) (s : State) : exec (.br t) s = execBr t s := rfl
theorem exec_bz (t : Nat) (s : State) : exec (.bz t) s = execBz t s := rfl
theorem exec_jmp (t : Nat) (s : State) : exec (.jmp t) s = execJmp t s := rfl
theorem exec_loop (t : Nat) (s : State) : exec (.loop t) s = execLoop t s := rfl
theorem exec_loopi (t : Nat) (s : State) : exec (.loopi t) s = execLoopi t s := rfl

/-! ## The statement -/

/-- Settles O11: of a well-formed word the check of R54 is the first to fail, whatever the word would do if it passed. -/
theorem rangeFaults : Obligations.RangeFaults := by
  intro s u n w issued hcls hok
  refine ⟨fun ht => ?targets, fun ha => ?addresses⟩
  case targets =>
    have jumps := firstFault_jumpChecks_of_far hok ht (u.sela (regionOf n)) (u.tile n)
    have loops := fun count => firstFault_loopChecks_of_far hok ht count (u.sela (regionOf n)) (u.tile n)
    refine ⟨fun br => ?_, fun bz => ?_, fun jmp => ?_, fun loop => ?_, fun loopi => ?_⟩
    · rw [exec_br, execBr, issueTile_fault issued rfl hcls br jumps]
    · rw [exec_bz, execBz, issueTile_fault issued rfl hcls bz jumps]
    · rw [exec_jmp, execJmp, issueTile_fault issued rfl hcls jmp jumps]
    · rw [exec_loop, execLoop, issueTile_fault issued rfl hcls loop (loops _)]
    · rw [exec_loopi, execLoopi, issueTile_fault issued rfl hcls loopi (loops _)]
  case addresses =>
    have bad := firstFault_memChecks_of_bad hok ha (u.sela (regionOf n))
    refine ⟨fun lds => ?_, fun sts => ?_⟩
    · rw [exec_lds, execLds, issueTile_fault issued rfl hcls lds bad]
    · rw [exec_sts, execSts, issueTile_fault issued rfl hcls sts bad]

end Sys2Proof.Machine
end

section
/-!
PROOFS. The phase of a region (R320): what TPHASE adds to the tokens in flight, what a hen makes of a PHASE token, and
what of a region a run start leaves, the completions that it may write being none of a region's business.
-/
namespace Sys2Proof.Machine

theorem exec_tphase (t : Nat) (s : State) : exec (.tphase t) s = execTphase t s := rfl
theorem exec_phase (r : Nat) (k : Token) (s : State) : exec (.phase r k) s = execPhase r k s := rfl
theorem exec_runStartBeat (r : Nat) (s : State) : exec (.runStartBeat r) s = execRunStartBeat r s := rfl

/-! ## TPHASE: the tokens it sends -/

theorem tokenFault_of {w : Dword} (h : tokenOk w = true) (t : Nat) (s : State) (f : State → State) :
    tokenFault w t s f = f s := if_pos h

/-- What a tile sends is in flight to the hen of its own region (R167). -/
theorem token_mem_tileSend (s : State) (t : Nat) (cls kind : BitVec 4) (group : Nat) (pay : BitVec 96) :
    (.hen (regionOf t), tileToken s t cls kind group pay) ∈ (s.tileSend t cls kind group pay).flight :=
  List.mem_append_right _ (List.mem_singleton_self _)

/-- A token does not tell of the tile's own state. -/
theorem tileToken_modTile (s : State) (t m : Nat) (f : Tile → Tile) (cls kind : BitVec 4) (group : Nat) (pay : BitVec 96) :
    tileToken (s.modTile m f) t cls kind group pay = tileToken s t cls kind group pay := rfl

theorem flight_subset_tileSend (s : State) (t : Nat) (cls kind : BitVec 4) (group : Nat) (pay : BitVec 96) :
    s.flight ⊆ (s.tileSend t cls kind group pay).flight := List.subset_append_left ..

/-- A norm report takes nothing out of flight. -/
theorem flight_subset_normReport (s : State) (t ph index : Nat) : s.flight ⊆ (s.normReport t ph index).flight := by
  unfold State.normReport
  rw [State.modTile_eq, State.setTile_flight]
  refine List.Subset.trans ?pairs (flight_subset_tileSend ..)
  exact forAll_keep (s.flight ⊆ ·.flight) _ s
    (fun _ _ _ sent => List.Subset.trans sent (flight_subset_tileSend ..)) (List.Subset.refl _)

/-- A TPHASE sends its PHASE token, whether or not a norm report follows. -/
theorem execTphase_sends {s u : State} {n : Nat} {w : Dword} (issued : Issuing s n w u) (cls : wCls w = 4)
    (op : wOp w = 3) (ok : tokenOk w = true) : ∃ t, execTphase n s = .next t ∧
      (.hen (regionOf n), tileToken u n 6 0 0 (BitVec.ofNat 96 (bits w 7 0))) ∈ t.flight := by
  rw [execTphase, issueWord_run issued rfl cls op, tokenFault_of ok]
  refine ⟨_, rfl, ?_⟩
  have sent := fun f : Tile → Tile => token_mem_tileSend (u.modTile n f) n 6 0 0 (BitVec.ofNat 96 (bits w 7 0))
  simp only [tileToken_modTile] at sent
  dsimp only
  split
  · split
    · exact flight_subset_normReport _ _ _ _ (sent _)
    · exact sent _
  · exact sent _

/-! ## What a hen makes of a PHASE token -/

theorem execPhase_heard {s : State} {r : Nat} {k : Token} (heard : Heard s r 6 0 k) : execPhase r k s =
    .next ((s.landed (.hen r) k).modPwr r fun p => { p with phase := bits k.pay 7 0 }) :=
  henToken_run heard _

/-! ## The completion of a ring command leaves the regions -/

theorem complete_regions (s : State) (f : Nat) (e : CqEntry) : (s.complete f e).regions = s.regions := by
  unfold State.complete
  dsimp only
  split <;> rfl

theorem unregDone_regions (s : State) (f : Nat) : (s.unregDone f).regions = s.regions := by
  unfold State.unregDone
  refine List.foldlRecOn (motive := fun u : State => u.regions = s.regions) _ _ rfl fun u kept w _ => ?_
  split
  · split
    · exact kept
    · rw [complete_regions, State.modFn_eq, State.setFn_regions, kept]
  · exact kept

theorem rejects_regions (s : State) (f n : Nat) : (s.rejects f n).regions = s.regions := by
  induction n generalizing s with
  | zero => rfl
  | succ n ih =>
    unfold State.rejects
    dsimp only
    split
    · rfl
    · split
      · split
        · rfl
        · rw [ih, complete_regions, State.modFn_eq, State.setFn_regions]
      · rfl

theorem finish_regions (s : State) (f : Nat) (e : CqEntry) : (s.finish f e).regions = s.regions := by
  unfold State.finish State.ringOn
  dsimp only
  rw [rejects_regions, unregDone_regions, complete_regions, State.modFn_eq, State.setFn_regions]

/-! ## Run start -/

/-- Where a run opens the region's phase is 0. -/
theorem openRegion_phase (s : State) (p r : Nat) (i : Image) : ((s.openRegion p r i).region r).pwr.phase = 0 := by
  unfold State.openRegion
  dsimp only
  rw [forAll_same (fun u => (u.region r).pwr.phase) (by intro n u; simp)]
  simp

theorem forAll_modChan_regions (l : List Nat) (f : Chan → Chan) (s : State) :
    (forAll l s fun c u => u.modChan c f).regions = s.regions :=
  forAll_same (f := fun c u => u.modChan c f) State.regions (fun _ _ => rfl) l s

/-- At its run-start beat a region opens; what else the command does in the lead region is no change of a region. -/
theorem execRunStartBeat_regions {s : State} {r k : Nat} {i : Image} (hr : r < 40) (clock : (s.region r).clk.on = true)
    (start : (s.region r).ctl.atStart = some k) (come : k ≤ (s.region r).clk.count)
    (assigned : (s.region r).ctl.assigned = true) (image : (s.part (s.region r).ctl.part).img = some i)
    (status : (s.part (s.region r).ctl.part).st = .starting ∨ (s.part (s.region r).ctl.part).st = .running) :
    ∃ t, execRunStartBeat r s = .next t ∧ t.regions = (s.openRegion (s.region r).ctl.part r i).regions := by
  rw [execRunStartBeat, onUnit_of (by simpa using hr)]
  refine ⟨_, rfl, ?_⟩
  simp only [start, image]
  rw [due_of (by simp [clock, come, assigned, status])]
  split
  · rfl
  · split
    · rw [finish_regions, forAll_modChan_regions, State.modPart_eq, State.setPart_regions]
    · rw [forAll_modChan_regions, State.modPart_eq, State.setPart_regions]

/-- Settles O35: the token of a TPHASE is the first that it sends, a PHASE token that is heard sets the phase, and at run
start the region opens with phase 0. -/
theorem regionPhase : Obligations.RegionPhase := by
  refine ⟨fun s u n w issued cls op ok => ?sends, fun s r k heard => ?hears,
    fun s r k i hr clock start come assigned image st => ?opens⟩
  case sends => exact execTphase_sends issued cls op ok
  case hears => exact execPhase_heard heard
  case opens =>
    obtain ⟨t, runs, regions⟩ := execRunStartBeat_regions hr clock start come assigned image st
    refine ⟨t, runs, ?_⟩
    rw [State.region, regions, ← State.region, openRegion_phase]

end Sys2Proof.Machine
end

section
/-!
PROOFS. The completion ring (R373, R374): a full ring writes nothing and fetches nothing, and with room the completions
that waited go out oldest first.
-/
namespace Sys2Proof.Machine

/-! ## What a full completion ring holds back -/

theorem cqFull_iff (x : Fn) : x.cqFull = true ↔ (x.cqTail + 1) % 2 ^ x.cqLog = x.cqHead := decide_eq_true_iff

theorem fetchRing_of_cqFull {s : State} {f : Nat} (full : (s.fn f).cqFull = true) (n : Nat) : s.fetchRing f n = s := by
  cases n with
  | zero => rfl
  | succ n => simp only [State.fetchRing, full, Bool.or_true, if_true]

theorem complete_of_cqFull {s : State} {f : Nat} (full : (s.fn f).cqFull = true) (e : CqEntry) :
    s.complete f e = s.modFn f fun x => { x with waitCq := x.waitCq ++ [e] } := by
  simp only [State.complete, full, Bool.true_or, if_true]

theorem drainCq_of_cqFull {s : State} {f : Nat} (full : (s.fn f).cqFull = true) (n : Nat) : s.drainCq f n = s := by
  cases n with
  | zero => rfl
  | succ n =>
    unfold State.drainCq
    dsimp only
    split
    case h_1 => rfl
    case h_2 => rw [full, Bool.true_or, if_pos rfl]

/-! ## What goes out once there is room -/

theorem drainCq_of_room {s : State} {f : Nat} {e : CqEntry} {es : List CqEntry} (waits : (s.fn f).waitCq = e :: es)
    (room : (s.fn f).cqFull = false) (on : (s.fn f).cqOn = true) (n : Nat) : s.drainCq f (n + 1) =
      ((s.modFn f fun x => { x with waitCq := es }).complete f e).drainCq f n := by
  simp only [State.drainCq, waits, room, on, Bool.not_true, Bool.or_self, Bool.false_eq_true, if_false]

/-- Settles O56: with the ring full neither a fetch nor the writing of waiting completions changes the state, and a new
completion waits behind the others; with room the oldest that waits is written and the rest go on waiting. -/
theorem fullCompletionRing : Obligations.FullCompletionRing := by
  refine ⟨cqFull_iff, fun s f n full => ?fetch, fun s f e full => ?joins, fun s f n e es waits => ⟨fun full => ?held,
    fun room on => ?written⟩⟩
  case fetch => exact fetchRing_of_cqFull full n
  case joins => exact complete_of_cqFull full e
  case held => exact drainCq_of_cqFull full n
  case written => exact drainCq_of_room waits room on n

end Sys2Proof.Machine
end

section
/-!
PROOFS. The meaning of each command, by its name: what an arm of the table of meanings is.
-/
namespace Sys2Proof.Machine

theorem exec_nop (t : Nat) (s : State) : exec (.nop t) s = execNop t s := rfl
theorem exec_mov (t : Nat) (s : State) : exec (.mov t) s = execMov t s := rfl
theorem exec_add (t : Nat) (s : State) : exec (.add t) s = execAdd t s := rfl
theorem exec_sub (t : Nat) (s : State) : exec (.sub t) s = execSub t s := rfl
theorem exec_mul (t : Nat) (s : State) : exec (.mul t) s = execMul t s := rfl
theorem exec_and (t : Nat) (s : State) : exec (.and t) s = execAnd t s := rfl
theorem exec_or (t : Nat) (s : State) : exec (.or t) s = execOr t s := rfl
theorem exec_xor (t : Nat) (s : State) : exec (.xor t) s = execXor t s := rfl
theorem exec_shl (t : Nat) (s : State) : exec (.shl t) s = execShl t s := rfl
theorem exec_shr (t : Nat) (s : State) : exec (.shr t) s = execShr t s := rfl
theorem exec_sra (t : Nat) (s : State) : exec (.sra t) s = execSra t s := rfl
theorem exec_min (t : Nat) (s : State) : exec (.min t) s = execMin t s := rfl
theorem exec_max (t : Nat) (s : State) : exec (.max t) s = execMax t s := rfl
theorem exec_cmplt (t : Nat) (s : State) : exec (.cmplt t) s = execCmplt t s := rfl
theorem exec_cmpeq (t : Nat) (s : State) : exec (.cmpeq t) s = execCmpeq t s := rfl
theorem exec_cmpltu (t : Nat) (s : State) : exec (.cmpltu t) s = execCmpltu t s := rfl
theorem exec_rdlc (t : Nat) (s : State) : exec (.rdlc t) s = execRdlc t s := rfl
theorem exec_halt (t : Nat) (s : State) : exec (.halt t) s = execHalt t s := rfl
theorem exec_vadd (t : Nat) (s : State) : exec (.vadd t) s = execVadd t s := rfl
theorem exec_vsub (t : Nat) (s : State) : exec (.vsub t) s = execVsub t s := rfl
theorem exec_vmul (t : Nat) (s : State) : exec (.vmul t) s = execVmul t s := rfl
theorem exec_vfma (t : Nat) (s : State) : exec (.vfma t) s = execVfma t s := rfl
theorem exec_vmax (t : Nat) (s : State) : exec (.vmax t) s = execVmax t s := rfl
theorem exec_vmin (t : Nat) (s : State) : exec (.vmin t) s = execVmin t s := rfl
theorem exec_vabs (t : Nat) (s : State) : exec (.vabs t) s = execVabs t s := rfl
theorem exec_vneg (t : Nat) (s : State) : exec (.vneg t) s = execVneg t s := rfl
theorem exec_vbcst (t : Nat) (s : State) : exec (.vbcst t) s = execVbcst t s := rfl
theorem exec_vcvtn (t : Nat) (s : State) : exec (.vcvtn t) s = execVcvtn t s := rfl
theorem exec_vcvtw (t : Nat) (s : State) : exec (.vcvtw t) s = execVcvtw t s := rfl
theorem exec_vexp2 (t : Nat) (s : State) : exec (.vexp2 t) s = execVexp2 t s := rfl
theorem exec_vrcp (t : Nat) (s : State) : exec (.vrcp t) s = execVrcp t s := rfl
theorem exec_vrsq (t : Nat) (s : State) : exec (.vrsq t) s = execVrsq t s := rfl
theorem exec_vsum (t : Nat) (s : State) : exec (.vsum t) s = execVsum t s := rfl
theorem exec_vld (t : Nat) (s : State) : exec (.vld t) s = execVld t s := rfl
theorem exec_vst (t : Nat) (s : State) : exec (.vst t) s = execVst t s := rfl
theorem exec_vnorm (t : Nat) (s : State) : exec (.vnorm t) s = execVnorm t s := rfl
theorem exec_vsel (t : Nat) (s : State) : exec (.vsel t) s = execVsel t s := rfl
theorem exec_acfg (t : Nat) (s : State) : exec (.acfg t) s = execAcfg t s := rfl
theorem exec_aloadb (t : Nat) (s : State) : exec (.aloadb t) s = execAloadb t s := rfl
theorem exec_amul (t : Nat) (s : State) : exec (.amul t) s = execAmul t s := rfl
theorem exec_adrain (t : Nat) (s : State) : exec (.adrain t) s = execAdrain t s := rfl
theorem exec_azero (t : Nat) (s : State) : exec (.azero t) s = execAzero t s := rfl
theorem exec_xout (t : Nat) (s : State) : exec (.xout t) s = execXout t s := rfl
theorem exec_xin (t : Nat) (s : State) : exec (.xin t) s = execXin t s := rfl
theorem exec_tarr (t : Nat) (s : State) : exec (.tarr t) s = execTarr t s := rfl
theorem exec_twait (t : Nat) (s : State) : exec (.twait t) s = execTwait t s := rfl
theorem exec_tsync (t : Nat) (s : State) : exec (.tsync t) s = execTsync t s := rfl
theorem exec_traise (t : Nat) (s : State) : exec (.traise t) s = execTraise t s := rfl
theorem exec_pipePendingStart (t : Nat) (q : PipeId) (s : State) :
    exec (.pipePendingStart t q) s = execPipePendingStart t q s := rfl
theorem exec_barrierTimeout (t : Nat) (s : State) : exec (.barrierTimeout t) s = execBarrierTimeout t s := rfl
theorem exec_resumeIssue (t : Nat) (s : State) : exec (.resumeIssue t) s = execResumeIssue t s := rfl
theorem exec_runComplete (p : Nat) (s : State) : exec (.runComplete p) s = execRunComplete p s := rfl
theorem exec_endBeat (r : Nat) (s : State) : exec (.endBeat r) s = execEndBeat r s := rfl
theorem exec_scrubComplete (t : Nat) (s : State) : exec (.scrubComplete t) s = execScrubComplete t s := rfl
theorem exec_flush (w : Party) (q : QueueId) (s : State) : exec (.flush w q) s = execFlush w q s := rfl
theorem exec_pop (w : Party) (q : QueueId) (s : State) : exec (.pop w q) s = execPop w q s := rfl
theorem exec_rtrStData (w : Party) (t : Nat) (v : Dword) (s : State) :
    exec (.rtrStData w t v) s = execRtrStData w t v s := rfl
theorem exec_rtrPeriod (w : Party) (t : Nat) (v : Dword) (s : State) :
    exec (.rtrPeriod w t v) s = execRtrPeriod w t v s := rfl
theorem exec_rtrSlack (w : Party) (t : Nat) (v : Dword) (s : State) :
    exec (.rtrSlack w t v) s = execRtrSlack w t v s := rfl
theorem exec_tOut (w : Party) (t : Nat) (v : Dword) (s : State) : exec (.tOut w t v) s = execTOut w t v s := rfl
theorem exec_borderWordArrival (t : Nat) (side : Dir) (kind : BorderKind) (s : State) :
    exec (.borderWordArrival t side kind) s = execBorderWordArrival t side kind s := rfl
theorem exec_borderWordLate (t : Nat) (side : Dir) (edge : Bool) (s : State) :
    exec (.borderWordLate t side edge) s = execBorderWordLate t side edge s := rfl
theorem exec_partitionSwapBeat (r : Nat) (s : State) :
    exec (.partitionSwapBeat r) s = execPartitionSwapBeat r s := rfl
theorem exec_transitSwapBeat (r : Nat) (s : State) : exec (.transitSwapBeat r) s = execTransitSwapBeat r s := rfl
theorem exec_routerPlaneFeedLoss (r : Nat) (s : State) :
    exec (.routerPlaneFeedLoss r) s = execRouterPlaneFeedLoss r s := rfl
theorem exec_routerPlaneFeedReturn (r : Nat) (own : Bool) (s : State) :
    exec (.routerPlaneFeedReturn r own) s = execRouterPlaneFeedReturn r own s := rfl
theorem exec_expressTokenInject (n : NodeId) (s : State) :
    exec (.expressTokenInject n) s = execExpressTokenInject n s := rfl
theorem exec_arrive (r : Nat) (k : Token) (s : State) : exec (.arrive r k) s = execArrive r k s := rfl
theorem exec_regionDone (r : Nat) (k : Token) (s : State) : exec (.regionDone r k) s = execRegionDone r k s := rfl
theorem exec_release (t : Nat) (k : Token) (s : State) : exec (.release t k) s = execRelease t k s := rfl
theorem exec_bellwetherElection (p g : Nat) (s : State) :
    exec (.bellwetherElection p g) s = execBellwetherElection p g s := rfl
theorem exec_hold (r : Nat) (k : Token) (s : State) : exec (.hold r k) s = execHold r k s := rfl
theorem exec_holdBeat (r : Nat) (s : State) : exec (.holdBeat r) s = execHoldBeat r s := rfl
theorem exec_resume (r : Nat) (k : Token) (s : State) : exec (.resume r k) s = execResume r k s := rfl
theorem exec_resumeBeat (r : Nat) (s : State) : exec (.resumeBeat r) s = execResumeBeat r s := rfl
theorem exec_pSwap (r : Nat) (k : Token) (s : State) : exec (.pSwap r k) s = execPSwap r k s := rfl
theorem exec_tSwap (r : Nat) (k : Token) (s : State) : exec (.tSwap r k) s = execTSwap r k s := rfl
theorem exec_runStartToken (r : Nat) (k : Token) (s : State) :
    exec (.runStartToken r k) s = execRunStartToken r k s := rfl
theorem exec_runStop (r : Nat) (k : Token) (s : State) : exec (.runStop r k) s = execRunStop r k s := rfl
theorem exec_holdReq (r : Nat) (k : Token) (s : State) : exec (.holdReq r k) s = execHoldReq r k s := rfl
theorem exec_resumeReq (r : Nat) (k : Token) (s : State) : exec (.resumeReq r k) s = execResumeReq r k s := rfl
theorem exec_resumeAnnounce (r : Nat) (s : State) : exec (.resumeAnnounce r) s = execResumeAnnounce r s := rfl
theorem exec_hostHold (w : Party) (r : Nat) (s : State) : exec (.hostHold w r) s = execHostHold w r s := rfl
theorem exec_hostResume (w : Party) (r : Nat) (s : State) : exec (.hostResume w r) s = execHostResume w r s := rfl
theorem exec_fmHold (w : Party) (r : Nat) (s : State) : exec (.fmHold w r) s = execFmHold w r s := rfl
theorem exec_fmResume (w : Party) (r : Nat) (s : State) : exec (.fmResume w r) s = execFmResume w r s := rfl
theorem exec_creditToken (k : Token) (s : State) : exec (.creditToken k) s = execCreditToken k s := rfl
theorem exec_faultToken (n : NodeId) (k : Token) (s : State) : exec (.faultToken n k) s = execFaultToken n k s := rfl
theorem exec_normPair (r : Nat) (k : Token) (s : State) : exec (.normPair r k) s = execNormPair r k s := rfl
theorem exec_normEnd (r : Nat) (k : Token) (s : State) : exec (.normEnd r k) s = execNormEnd r k s := rfl
theorem exec_normRecordEmit (p phase : Nat) (s : State) :
    exec (.normRecordEmit p phase) s = execNormRecordEmit p phase s := rfl
theorem exec_roosterTick (dead : List (Nat × Nat)) (amps : List (Nat × Nat)) (s : State) :
    exec (.roosterTick dead amps) s = execRoosterTick dead amps s := rfl
theorem exec_tickMiss (r : Nat) (s : State) : exec (.tickMiss r) s = execTickMiss r s := rfl
theorem exec_epochMark (r : Nat) (s : State) : exec (.epochMark r) s = execEpochMark r s := rfl
theorem exec_slipRecovered (r : Nat) (s : State) : exec (.slipRecovered r) s = execSlipRecovered r s := rfl
theorem exec_resync (r : Nat) (s : State) : exec (.resync r) s = execResync r s := rfl
theorem exec_droopTrip (r mv : Nat) (s : State) : exec (.droopTrip r mv) s = execDroopTrip r mv s := rfl
theorem exec_droopClear (r : Nat) (s : State) : exec (.droopClear r) s = execDroopClear r s := rfl
theorem exec_fChange (s : State) : exec .fChange s = execFChange s := rfl
theorem exec_fixed (w : Party) (on : Bool) (s : State) : exec (.fixed w on) s = execFixed w on s := rfl
theorem exec_fixedMhz (w : Party) (mhz : Nat) (s : State) : exec (.fixedMhz w mhz) s = execFixedMhz w mhz s := rfl
theorem exec_fixedClockApply (s : State) : exec .fixedClockApply s = execFixedClockApply s := rfl
theorem exec_refLost (s : State) : exec .refLost s = execRefLost s := rfl
theorem exec_refRestored (s : State) : exec .refRestored s = execRefRestored s := rfl
theorem exec_fabricLockLoss (s : State) : exec .fabricLockLoss s = execFabricLockLoss s := rfl
theorem exec_oxPassStart (e : EdgeId) (sh i : Nat) (s : State) :
    exec (.oxPassStart e sh i) s = execOxPassStart e sh i s := rfl
theorem exec_oxPassComplete (e : EdgeId) (sh i : Nat) (bad : List Nat) (s : State) :
    exec (.oxPassComplete e sh i bad) s = execOxPassComplete e sh i bad s := rfl
theorem exec_oxLatePoint (e : EdgeId) (sh i : Nat) (s : State) :
    exec (.oxLatePoint e sh i) s = execOxLatePoint e sh i s := rfl
theorem exec_stagingMiss (e : EdgeId) (ep : Nat) (s : State) :
    exec (.stagingMiss e ep) s = execStagingMiss e ep s := rfl
theorem exec_edgEstData (w : Party) (x : Nat) (v : Dword) (s : State) :
    exec (.edgEstData w x v) s = execEdgEstData w x v s := rfl
theorem exec_edgEstPort (w : Party) (x : Nat) (v : Dword) (s : State) :
    exec (.edgEstPort w x v) s = execEdgEstPort w x v s := rfl
theorem exec_iraEstData (w : Party) (d : Nat) (v : Dword) (s : State) :
    exec (.iraEstData w d v) s = execIraEstData w d v s := rfl
theorem exec_iraEstPort (w : Party) (d : Nat) (v : Dword) (s : State) :
    exec (.iraEstPort w d v) s = execIraEstPort w d v s := rfl
theorem exec_ringRead (x : Nat) (bad : List Nat) (s : State) : exec (.ringRead x bad) s = execRingRead x bad s := rfl
theorem exec_ringWrite (x : Nat) (s : State) : exec (.ringWrite x) s = execRingWrite x s := rfl
theorem exec_ringAtomic (x : Nat) (bad : Bool) (s : State) :
    exec (.ringAtomic x bad) s = execRingAtomic x bad s := rfl
theorem exec_hbmEccPoll (x : Nat) (reports : List EccReport) (s : State) :
    exec (.hbmEccPoll x reports) s = execHbmEccPoll x reports s := rfl
theorem exec_hbmChannelFail (x c : Nat) (s : State) : exec (.hbmChannelFail x c) s = execHbmChannelFail x c s := rfl
theorem exec_handoverComplete (page : Nat) (s : State) :
    exec (.handoverComplete page) s = execHandoverComplete page s := rfl
theorem exec_pageZeroingComplete (page : Nat) (s : State) :
    exec (.pageZeroingComplete page) s = execPageZeroingComplete page s := rfl
theorem exec_devId (w : Party) (v : Dword) (s : State) : exec (.devId w v) s = execDevId w v s := rfl
theorem exec_devidRewriteComplete (s : State) : exec .devidRewriteComplete s = execDevidRewriteComplete s := rfl
theorem exec_iraRoute (w : Party) (d : Nat) (v : Dword) (s : State) :
    exec (.iraRoute w d v) s = execIraRoute w d v s := rfl
theorem exec_quiesce (w : Party) (d : Nat) (on : Bool) (s : State) :
    exec (.quiesce w d on) s = execQuiesce w d on s := rfl
theorem exec_gmSelf (w : Party) (on : Bool) (s : State) : exec (.gmSelf w on) s = execGmSelf w on s := rfl
theorem exec_codewordReceived (port lane frame : Nat) (errs : CodeErrors) (flits : List Line) (s : State) :
    exec (.codewordReceived port lane frame errs flits) s = execCodewordReceived port lane frame errs flits s := rfl
theorem exec_load (port : Nat) (s : State) : exec (.load port) s = execLoad port s := rfl
theorem exec_store (port : Nat) (s : State) : exec (.store port) s = execStore port s := rfl
theorem exec_storeMasked (port : Nat) (s : State) : exec (.storeMasked port) s = execStoreMasked port s := rfl
theorem exec_atomicSwap (port : Nat) (s : State) : exec (.atomicSwap port) s = execAtomicSwap port s := rfl
theorem exec_atomicCas (port : Nat) (s : State) : exec (.atomicCas port) s = execAtomicCas port s := rfl
theorem exec_atomicAdd (port : Nat) (s : State) : exec (.atomicAdd port) s = execAtomicAdd port s := rfl
theorem exec_atomicAnd (port : Nat) (s : State) : exec (.atomicAnd port) s = execAtomicAnd port s := rfl
theorem exec_atomicOr (port : Nat) (s : State) : exec (.atomicOr port) s = execAtomicOr port s := rfl
theorem exec_atomicXor (port : Nat) (s : State) : exec (.atomicXor port) s = execAtomicXor port s := rfl
theorem exec_atomicMaxu (port : Nat) (s : State) : exec (.atomicMaxu port) s = execAtomicMaxu port s := rfl
theorem exec_atomicMinu (port : Nat) (s : State) : exec (.atomicMinu port) s = execAtomicMinu port s := rfl
theorem exec_irantHandover (port : Nat) (s : State) : exec (.irantHandover port) s = execIrantHandover port s := rfl
theorem exec_reclaim (port : Nat) (s : State) : exec (.reclaim port) s = execReclaim port s := rfl
theorem exec_ctlRead (port : Nat) (s : State) : exec (.ctlRead port) s = execCtlRead port s := rfl
theorem exec_ctlWrite (port : Nat) (s : State) : exec (.ctlWrite port) s = execCtlWrite port s := rfl
theorem exec_rsp (port : Nat) (s : State) : exec (.rsp port) s = execRsp port s := rfl
theorem exec_requestExpired (port : Nat) (s : State) :
    exec (.requestExpired port) s = execRequestExpired port s := rfl
theorem exec_requestTimeout (d tag : Nat) (s : State) :
    exec (.requestTimeout d tag) s = execRequestTimeout d tag s := rfl
theorem exec_transitForward (port : Nat) (s : State) :
    exec (.transitForward port) s = execTransitForward port s := rfl
theorem exec_ack (port : Nat) (s : State) : exec (.ack port) s = execAck port s := rfl
theorem exec_nak (port : Nat) (s : State) : exec (.nak port) s = execNak port s := rfl
theorem exec_credit (port : Nat) (s : State) : exec (.credit port) s = execCredit port s := rfl
theorem exec_timeSync (port : Nat) (t2 : Dword) (t3 : Dword) (s : State) :
    exec (.timeSync port t2 t3) s = execTimeSync port t2 t3 s := rfl
theorem exec_timeResp (port : Nat) (t4 : Dword) (s : State) :
    exec (.timeResp port t4) s = execTimeResp port t4 s := rfl
theorem exec_depart (port : Nat) (s : State) : exec (.depart port) s = execDepart port s := rfl
theorem exec_admitted (port : Nat) (s : State) : exec (.admitted port) s = execAdmitted port s := rfl
theorem exec_laneMap (port : Nat) (s : State) : exec (.laneMap port) s = execLaneMap port s := rfl
theorem exec_laneSwitch (port : Nat) (s : State) : exec (.laneSwitch port) s = execLaneSwitch port s := rfl
theorem exec_laneRetire (port lane : Nat) (s : State) :
    exec (.laneRetire port lane) s = execLaneRetire port lane s := rfl
theorem exec_portSignalLoss (port : Nat) (s : State) :
    exec (.portSignalLoss port) s = execPortSignalLoss port s := rfl
theorem exec_ackTimer (port : Nat) (s : State) : exec (.ackTimer port) s = execAckTimer port s := rfl
theorem exec_creditTimer (port : Nat) (s : State) : exec (.creditTimer port) s = execCreditTimer port s := rfl
theorem exec_timeSyncTimer (port : Nat) (t1 : Dword) (s : State) :
    exec (.timeSyncTimer port t1) s = execTimeSyncTimer port t1 s := rfl
theorem exec_retrain (w : Party) (d : Nat) (full : Bool) (s : State) :
    exec (.retrain w d full) s = execRetrain w d full s := rfl
theorem exec_retire (w : Party) (d : Nat) (s : State) : exec (.retire w d) s = execRetire w d s := rfl
theorem exec_autoRetrain (port : Nat) (s : State) : exec (.autoRetrain port) s = execAutoRetrain port s := rfl
theorem exec_replayDrainEnd (port : Nat) (s : State) :
    exec (.replayDrainEnd port) s = execReplayDrainEnd port s := rfl
theorem exec_portTrainingComplete (trained : PortTraining) (s : State) :
    exec (.portTrainingComplete trained) s = execPortTrainingComplete trained s := rfl
theorem exec_portQualificationComplete (port : Nat) (badLanes : List Nat) (s : State) :
    exec (.portQualificationComplete port badLanes) s = execPortQualificationComplete port badLanes s := rfl
theorem exec_colPassDue (c i : Nat) (s : State) : exec (.colPassDue c i) s = execColPassDue c i s := rfl
theorem exec_contrib (port : Nat) (s : State) : exec (.contrib port) s = execContrib port s := rfl
theorem exec_chunkClose (c seq ch : Nat) (s : State) :
    exec (.chunkClose c seq ch) s = execChunkClose c seq ch s := rfl
theorem exec_result (port : Nat) (s : State) : exec (.result port) s = execResult port s := rfl
theorem exec_roster (port : Nat) (s : State) : exec (.roster port) s = execRoster port s := rfl
theorem exec_lateNotice (port : Nat) (s : State) : exec (.lateNotice port) s = execLateNotice port s := rfl
theorem exec_chunkGiveUp (c seq ch : Nat) (s : State) :
    exec (.chunkGiveUp c seq ch) s = execChunkGiveUp c seq ch s := rfl
theorem exec_freeze (w : Party) (on : Bool) (s : State) : exec (.freeze w on) s = execFreeze w on s := rfl
theorem exec_powerGood (s : State) : exec .powerGood s = execPowerGood s := rfl
theorem exec_controllerFirmware (s : State) : exec .controllerFirmware s = execControllerFirmware s := rfl
theorem exec_halfAlwaysOnPower (ok : Bool) (s : State) :
    exec (.halfAlwaysOnPower ok) s = execHalfAlwaysOnPower ok s := rfl
theorem exec_fuseMaps (s : State) : exec .fuseMaps s = execFuseMaps s := rfl
theorem exec_seamAndBridgeRepair (found : SeamFindings) (s : State) :
    exec (.seamAndBridgeRepair found) s = execSeamAndBridgeRepair found s := rfl
theorem exec_bist (found : BistFindings) (s : State) : exec (.bist found) s = execBist found s := rfl
theorem exec_floorPlanMerge (s : State) : exec .floorPlanMerge s = execFloorPlanMerge s := rfl
theorem exec_linkTraining (found : TrainFindings) (s : State) :
    exec (.linkTraining found) s = execLinkTraining found s := rfl
theorem exec_refclk (s : State) : exec .refclk s = execRefclk s := rfl
theorem exec_errorRateQualification (found : QualFindings) (s : State) :
    exec (.errorRateQualification found) s = execErrorRateQualification found s := rfl
theorem exec_publication (s : State) : exec .publication s = execPublication s := rfl
theorem exec_stageTimeout (s : State) : exec .stageTimeout s = execStageTimeout s := rfl
theorem exec_watchdogExpiry (s : State) : exec .watchdogExpiry s = execWatchdogExpiry s := rfl
theorem exec_activate (w : Party) (s : State) : exec (.activate w) s = execActivate w s := rfl
theorem exec_activationHealthy (s : State) : exec .activationHealthy s = execActivationHealthy s := rfl
theorem exec_activationTimeout (s : State) : exec .activationTimeout s = execActivationTimeout s := rfl
theorem exec_busbarShutdown (s : State) : exec .busbarShutdown s = execBusbarShutdown s := rfl
theorem exec_phaseFail (r ph : Nat) (s : State) : exec (.phaseFail r ph) s = execPhaseFail r ph s := rfl
theorem exec_trip (r : Nat) (s : State) : exec (.trip r) s = execTrip r s := rfl
theorem exec_blockReenable (r : Nat) (s : State) : exec (.blockReenable r) s = execBlockReenable r s := rfl
theorem exec_dropMeasurement (r drop : Nat) (load : PhaseCurrent) (s : State) :
    exec (.dropMeasurement r drop load) s = execDropMeasurement r drop load s := rfl
theorem exec_rampRecheck (r loaded : Nat) (s : State) :
    exec (.rampRecheck r loaded) s = execRampRecheck r loaded s := rfl
theorem exec_rampWaitLong (r : Nat) (s : State) : exec (.rampWaitLong r) s = execRampWaitLong r s := rfl
theorem exec_rampComplete (r : Nat) (s : State) : exec (.rampComplete r) s = execRampComplete r s := rfl
theorem exec_retentionEntry (r : Nat) (s : State) : exec (.retentionEntry r) s = execRetentionEntry r s := rfl
theorem exec_retentionExit (r : Nat) (s : State) : exec (.retentionExit r) s = execRetentionExit r s := rfl
theorem exec_darkRunKill (r : Nat) (s : State) : exec (.darkRunKill r) s = execDarkRunKill r s := rfl
theorem exec_budgetInterval (m : PowerMeas) (s : State) : exec (.budgetInterval m) s = execBudgetInterval m s := rfl
theorem exec_report (n : NodeId) (k : Token) (s : State) : exec (.report n k) s = execReport n k s := rfl
theorem exec_overBudgetReport (r amps : Nat) (m : PowerMeas) (s : State) :
    exec (.overBudgetReport r amps m) s = execOverBudgetReport r amps m s := rfl
theorem exec_budget (r : Nat) (k : Token) (s : State) : exec (.budget r k) s = execBudget r k s := rfl
theorem exec_dutySubperiod (p : Nat) (s : State) : exec (.dutySubperiod p) s = execDutySubperiod p s := rfl
theorem exec_dutyHoldEnd (p : Nat) (s : State) : exec (.dutyHoldEnd p) s = execDutyHoldEnd p s := rfl
theorem exec_hostCapW (w : Party) (watts : Nat) (s : State) :
    exec (.hostCapW w watts) s = execHostCapW w watts s := rfl
theorem exec_fmCapW (w : Party) (watts : Nat) (s : State) : exec (.fmCapW w watts) s = execFmCapW w watts s := rfl
theorem exec_floorRecompute (m : PowerMeas) (s : State) : exec (.floorRecompute m) s = execFloorRecompute m s := rfl
theorem exec_derate (r temp : Nat) (s : State) : exec (.derate r temp) s = execDerate r temp s := rfl
theorem exec_heatOff (r : Nat) (s : State) : exec (.heatOff r) s = execHeatOff r s := rfl
theorem exec_heatReturn (r : Nat) (s : State) : exec (.heatReturn r) s = execHeatReturn r s := rfl
theorem exec_thermTrip (r : Nat) (s : State) : exec (.thermTrip r) s = execThermTrip r s := rfl
theorem exec_thermTripRailOff (r : Nat) (s : State) : exec (.thermTripRailOff r) s = execThermTripRailOff r s := rfl
theorem exec_iodHot (d : Nat) (s : State) : exec (.iodHot d) s = execIodHot d s := rfl
theorem exec_iodCool (d : Nat) (s : State) : exec (.iodCool d) s = execIodCool d s := rfl
theorem exec_iodTrip (d : Nat) (s : State) : exec (.iodTrip d) s = execIodTrip d s := rfl
theorem exec_hbmHot (x : Nat) (s : State) : exec (.hbmHot x) s = execHbmHot x s := rfl
theorem exec_coolantLoss (s : State) : exec .coolantLoss s = execCoolantLoss s := rfl
theorem exec_coolantRailCheck (westRose : Bool) (eastRose : Bool) (s : State) :
    exec (.coolantRailCheck westRose eastRose) s = execCoolantRailCheck westRose eastRose s := rfl
theorem exec_coolantDepart (s : State) : exec .coolantDepart s = execCoolantDepart s := rfl
theorem exec_coolantReturn (s : State) : exec .coolantReturn s = execCoolantReturn s := rfl
theorem exec_moduleReset (s : State) : exec .moduleReset s = execModuleReset s := rfl
theorem exec_residueMismatch (t : Nat) (router : Bool) (unit : Nat) (residue : ResidueCheck) (s : State) :
    exec (.residueMismatch t router unit residue) s = execResidueMismatch t router unit residue s := rfl
theorem exec_tileDue (t : Nat) (s : State) : exec (.tileDue t) s = execTileDue t s := rfl
theorem exec_tileOverdue (t : Nat) (s : State) : exec (.tileOverdue t) s = execTileOverdue t s := rfl
theorem exec_tileLapsed (t : Nat) (s : State) : exec (.tileLapsed t) s = execTileLapsed t s := rfl
theorem exec_idleRegionTest (t : Nat) (s : State) : exec (.idleRegionTest t) s = execIdleRegionTest t s := rfl
theorem exec_fallowWindow (r i : Nat) (s : State) : exec (.fallowWindow r i) s = execFallowWindow r i s := rfl
theorem exec_iftComplete (t : Nat) (o : TestOutcome) (routerOk : Bool) (s : State) :
    exec (.iftComplete t o routerOk) s = execIftComplete t o routerOk s := rfl
theorem exec_grant (w : Party) (r : Nat) (s : State) : exec (.grant w r) s = execGrant w r s := rfl
theorem exec_testOverdue (k : Token) (s : State) : exec (.testOverdue k) s = execTestOverdue k s := rfl
theorem exec_testGrant (r : Nat) (k : Token) (s : State) : exec (.testGrant r k) s = execTestGrant r k s := rfl
theorem exec_testDone (r : Nat) (k : Token) (s : State) : exec (.testDone r k) s = execTestDone r k s := rfl
theorem exec_testLapsed (k : Token) (s : State) : exec (.testLapsed k) s = execTestLapsed k s := rfl
theorem exec_wireRetire (corrected : WireCorrections) (s : State) :
    exec (.wireRetire corrected) s = execWireRetire corrected s := rfl
theorem exec_doubleWireError (wire : WireId) (s : State) :
    exec (.doubleWireError wire) s = execDoubleWireError wire s := rfl
theorem exec_henPoll (r : Nat) (ok : Bool) (s : State) : exec (.henPoll r ok) s = execHenPoll r ok s := rfl
theorem exec_ringSegmentFail (seg : Nat) (s : State) :
    exec (.ringSegmentFail seg) s = execRingSegmentFail seg s := rfl
theorem exec_controlCrossingFail (south : Bool) (s : State) :
    exec (.controlCrossingFail south) s = execControlCrossingFail south s := rfl
theorem exec_mapPublication (s : State) : exec .mapPublication s = execMapPublication s := rfl
theorem exec_cperMergeRelease (s : State) : exec .cperMergeRelease s = execCperMergeRelease s := rfl
theorem exec_telemetrySwap (r : Nat) (m : TlmMeas) (s : State) :
    exec (.telemetrySwap r m) s = execTelemetrySwap r m s := rfl
theorem exec_doorbell (w : Party) (s : State) : exec (.doorbell w) s = execDoorbell w s := rfl
theorem exec_fdlRead (s : State) : exec .fdlRead s = execFdlRead s := rfl
theorem exec_configRead (s : State) : exec .configRead s = execConfigRead s := rfl
theorem exec_configWrite (s : State) : exec .configWrite s = execConfigWrite s := rfl
theorem exec_fwWrite (s : State) : exec .fwWrite s = execFwWrite s := rfl
theorem exec_fwCommit (s : State) : exec .fwCommit s = execFwCommit s := rfl
theorem exec_keyBootstrap (s : State) : exec .keyBootstrap s = execKeyBootstrap s := rfl
theorem exec_ilv (w : Party) (on : Bool) (s : State) : exec (.ilv w on) s = execIlv w on s := rfl
theorem exec_tail (w : Party) (f tail : Nat) (host : List (Nat × Byte)) (s : State) :
    exec (.tail w f tail host) s = execTail w f tail host s := rfl
theorem exec_head (w : Party) (f head : Nat) (s : State) : exec (.head w f head) s = execHead w f head s := rfl
theorem exec_enable (w : Party) (f : Nat) (cq : Bool) (on : Bool) (s : State) :
    exec (.enable w f cq on) s = execEnable w f cq on s := rfl
theorem exec_windowReg (f : Nat) (s : State) : exec (.windowReg f) s = execWindowReg f s := rfl
theorem exec_windowUnreg (f : Nat) (s : State) : exec (.windowUnreg f) s = execWindowUnreg f s := rfl
theorem exec_dmaH2d (f : Nat) (s : State) : exec (.dmaH2d f) s = execDmaH2d f s := rfl
theorem exec_dmaD2h (f : Nat) (s : State) : exec (.dmaD2h f) s = execDmaD2h f s := rfl
theorem exec_dmaComplete (f cid : Nat) (host : List (Nat × Byte)) (s : State) :
    exec (.dmaComplete f cid host) s = execDmaComplete f cid host s := rfl
theorem exec_imageLoad (f : Nat) (img : Image) (s : State) : exec (.imageLoad f img) s = execImageLoad f img s := rfl
theorem exec_imageLoadComplete (p : Nat) (s : State) :
    exec (.imageLoadComplete p) s = execImageLoadComplete p s := rfl
theorem exec_runStart (f : Nat) (s : State) : exec (.runStart f) s = execRunStart f s := rfl
theorem exec_runKill (f : Nat) (s : State) : exec (.runKill f) s = execRunKill f s := rfl
theorem exec_handover (f : Nat) (s : State) : exec (.handover f) s = execHandover f s := rfl
theorem exec_partCreate (s : State) : exec .partCreate s = execPartCreate s := rfl
theorem exec_partReset (s : State) : exec .partReset s = execPartReset s := rfl
theorem exec_partDestroy (s : State) : exec .partDestroy s = execPartDestroy s := rfl
theorem exec_flrVf (f : Nat) (s : State) : exec (.flrVf f) s = execFlrVf f s := rfl
theorem exec_flrPf (s : State) : exec .flrPf s = execFlrPf s := rfl
theorem exec_perstFall (s : State) : exec .perstFall s = execPerstFall s := rfl
theorem exec_perstRise (s : State) : exec .perstRise s = execPerstRise s := rfl
theorem exec_certificateRetrieval (slot : Nat) (s : State) :
    exec (.certificateRetrieval slot) s = execCertificateRetrieval slot s := rfl
theorem exec_challenge (nonce : List Byte) (s : State) : exec (.challenge nonce) s = execChallenge nonce s := rfl
theorem exec_signedMeasurements (slot : Nat) (s : State) :
    exec (.signedMeasurements slot) s = execSignedMeasurements slot s := rfl
theorem exec_keyExchange (sess : Nat) (key : List Byte) (s : State) :
    exec (.keyExchange sess key) s = execKeyExchange sess key s := rfl
theorem exec_finish (sess : Nat) (s : State) : exec (.finish sess) s = execFinish sess s := rfl
theorem exec_heartbeat (sess : Nat) (s : State) : exec (.heartbeat sess) s = execHeartbeat sess s := rfl
theorem exec_keyUpdate (sess : Nat) (s : State) : exec (.keyUpdate sess) s = execKeyUpdate sess s := rfl
theorem exec_endSession (sess : Nat) (s : State) : exec (.endSession sess) s = execEndSession sess s := rfl
theorem exec_sessionTimeout (sess : Nat) (s : State) :
    exec (.sessionTimeout sess) s = execSessionTimeout sess s := rfl
theorem exec_bind (sess f : Nat) (fabric : Bool) (s : State) :
    exec (.bind sess f fabric) s = execBind sess f fabric s := rfl
theorem exec_unbind (sess f : Nat) (fabric : Bool) (s : State) :
    exec (.unbind sess f fabric) s = execUnbind sess f fabric s := rfl
theorem exec_keyEnroll (sess slot : Nat) (key : List Byte) (role : Role) (mask : BitVec 16) (s : State) :
    exec (.keyEnroll sess slot key role mask) s = execKeyEnroll sess slot key role mask s := rfl
theorem exec_keyRemove (sess slot : Nat) (s : State) :
    exec (.keyRemove sess slot) s = execKeyRemove sess slot s := rfl
theorem exec_imageKeyEnroll (sess slot : Nat) (key : List Byte) (s : State) :
    exec (.imageKeyEnroll sess slot key) s = execImageKeyEnroll sess slot key s := rfl
theorem exec_imageKeyRemove (sess slot : Nat) (s : State) :
    exec (.imageKeyRemove sess slot) s = execImageKeyRemove sess slot s := rfl
theorem exec_registerWrite (w : Party) (addr size : Nat) (v : Dword) (s : State) :
    exec (.registerWrite w addr size v) s = execRegisterWrite w addr size v s := rfl
theorem exec_regionBeat (r : Nat) (s : State) : exec (.regionBeat r) s = execRegionBeat r s := rfl
theorem exec_partitionSwapRequest (p beat : Nat) (s : State) :
    exec (.partitionSwapRequest p beat) s = execPartitionSwapRequest p beat s := rfl
theorem exec_transitSwapRequest (regions : BitVec 40) (beat : Nat) (s : State) :
    exec (.transitSwapRequest regions beat) s = execTransitSwapRequest regions beat s := rfl
theorem exec_perstNDelayEnd (s : State) : exec .perstNDelayEnd s = execPerstNDelayEnd s := rfl
theorem exec_dumpComplete (t : Nat) (ok : Bool) (s : State) :
    exec (.dumpComplete t ok) s = execDumpComplete t ok s := rfl
theorem exec_hbmSoftRepairComplete (x c bank : Nat) (row : Nat) (s : State) :
    exec (.hbmSoftRepairComplete x c bank row) s = execHbmSoftRepairComplete x c bank row s := rfl
theorem exec_stagingBlockTest (e : EdgeId) (ok : Bool) (s : State) :
    exec (.stagingBlockTest e ok) s = execStagingBlockTest e ok s := rfl
theorem exec_hbmStackCool (x : Nat) (s : State) : exec (.hbmStackCool x) s = execHbmStackCool x s := rfl
theorem exec_commandedShutdown (s : State) : exec .commandedShutdown s = execCommandedShutdown s := rfl
theorem exec_spdmRecoveryImage (fw : List Byte) (s : State) :
    exec (.spdmRecoveryImage fw) s = execSpdmRecoveryImage fw s := rfl
theorem exec_negotiateAlgorithms (offer : List Byte) (s : State) :
    exec (.negotiateAlgorithms offer) s = execNegotiateAlgorithms offer s := rfl
theorem exec_entdaa (address : BitVec 7) (s : State) : exec (.entdaa address) s = execEntdaa address s := rfl

end Sys2Proof.Machine
end

section
/-!
PROOFS. What no command does (`Keeps`): for each command the promise of the state it runs on is carried through the
operations of its meaning, and so through every command.
-/
namespace Sys2Proof.Machine

/-! ## The commands -/

theorem execBorderWordArrival_keeps {t : Nat} {side : Dir} {kind : BorderKind} {s u : State}
    (ran : execBorderWordArrival t side kind s = .next u) : Keeps s u := by
  have h := Keeps.refl s
  refine Keeps.onUnit ?_ ran
  split
  · exact h.arriveRouter
  · exact h.arriveRouter
  · exact h.arriveEdge

theorem execTransitSwapBeat_keeps {r : Nat} {s u : State} (ran : execTransitSwapBeat r s = .next u) : Keeps s u := by
  have h := Keeps.refl s
  refine Keeps.onUnit ?_ ran
  dsimp only
  split
  · exact h.due fun _ h1 => h1.modCtl.forAll fun _ _ h2 => h2.modRouter
  · exact h

theorem execPartitionSwapBeat_keeps {r : Nat} {s u : State}
    (ran : execPartitionSwapBeat r s = .next u) : Keeps s u := by
  have h := Keeps.refl s
  refine Keeps.onUnit ?_ ran
  dsimp only
  split
  · exact h.due fun _ h1 => (h1.modCtl.forAll fun _ _ h2 => h2.modRouter).onPorts
  · exact h

theorem execStagingMiss_keeps {e : EdgeId} {ep : Nat} {s u : State}
    (ran : execStagingMiss e ep s = .next u) : Keeps s u := by
  have h := Keeps.refl s
  refine Keeps.onUnit ?_ ran
  split
  · exact h.stagingMissAt
  · exact h

theorem execBorderWordLate_keeps {t : Nat} {side : Dir} {edge : Bool} {s u : State}
    (ran : execBorderWordLate t side edge s = .next u) : Keeps s u := by
  have h := Keeps.refl s
  refine Keeps.onUnit ?_ ran
  refine Keeps.ite ?_ (h.due fun _ h1 => h1.lateWord)
  split
  · exact h.due fun _ h1 => h1.lateEdge
  · exact h

theorem execTarr_keeps {t : Nat} {s u : State} (ran : execTarr t s = .next u) : Keeps s u := by
  refine Keeps.issueWord (fun _ _ h1 => ?_) (fun _ _ h1 => ?_) ran
  · exact h1.tokenFault fun _ h2 => h2.arriveAt.modTile
  · exact h1.tileFault

theorem execTwait_keeps {t : Nat} {s u : State} (ran : execTwait t s = .next u) : Keeps s u := by
  refine Keeps.issueWord (fun _ _ h1 => ?_) (fun _ _ h1 => ?_) ran
  · exact h1.tokenFault fun _ h2 => h2.modTile
  · exact h1.tileFault

theorem execTsync_keeps {t : Nat} {s u : State} (ran : execTsync t s = .next u) : Keeps s u := by
  refine Keeps.issueWord (fun _ _ h1 => ?_) (fun _ _ h1 => ?_) ran
  · exact h1.tokenFault fun _ h2 => h2.arriveAt.modTile
  · exact h1.tileFault

theorem execTphase_keeps {t : Nat} {s u : State} (ran : execTphase t s = .next u) : Keeps s u := by
  refine Keeps.issueWord (fun _ _ h1 => ?_) (fun _ _ h1 => ?_) ran
  · refine Keeps.tokenFault h1 (fun _ h2 => ?_)
    dsimp only
    split
    · exact .ite h2.modTile.tileSend.normReport h2.modTile.tileSend
    · exact h2.modTile.tileSend
  · exact h1.tileFault

theorem execTraise_keeps {t : Nat} {s u : State} (ran : execTraise t s = .next u) : Keeps s u := by
  refine Keeps.issueWord (fun _ _ h1 => ?_) (fun _ _ h1 => ?_) ran
  · exact h1.tokenFault fun _ h2 => h2.tileFault
  · exact h1.tileFault

theorem execPipePendingStart_keeps {t : Nat} {q : PipeId} {s u : State}
    (ran : execPipePendingStart t q s = .next u) : Keeps s u := by
  have h := Keeps.refl s
  refine Keeps.onUnit ?_ ran
  exact h.due fun _ h1 => h1.modTile

theorem execBarrierTimeout_keeps {t : Nat} {s u : State} (ran : execBarrierTimeout t s = .next u) : Keeps s u := by
  have h := Keeps.refl s
  refine Keeps.onUnit ?_ ran
  split
  · exact h.due fun _ h1 => h1.modTile.tileFault
  · exact h

theorem execResumeIssue_keeps {t : Nat} {s u : State} (ran : execResumeIssue t s = .next u) : Keeps s u := by
  have h := Keeps.refl s
  refine Keeps.onUnit ?_ ran
  exact h.due fun _ h1 => h1.modTile

theorem execRegionBeat_keeps {r : Nat} {s u : State} (ran : execRegionBeat r s = .next u) : Keeps s u := by
  have h := Keeps.refl s
  refine Keeps.onUnit ?_ ran
  exact h.due fun _ h1 => h1.beatOf

theorem execRoosterTick_keeps {dead amps : List (Nat × Nat)} {s u : State}
    (ran : execRoosterTick dead amps s = .next u) : Keeps s u := by
  have h := Keeps.refl s
  refine Keeps.onUnit ?_ ran
  exact h.due fun _ h1 => (h1.ofMgt (Mgt.tickOn_keeps _)).forAll fun _ _ h2 => .ite h2.modClk (Keeps.ite h2.realTick h2)

theorem execTickMiss_keeps {r : Nat} {s u : State} (ran : execTickMiss r s = .next u) : Keeps s u := by
  have h := Keeps.refl s
  refine Keeps.onUnit ?_ ran
  exact h.due fun _ h1 => h1.modClk.countWaits

theorem execEpochMark_keeps {r : Nat} {s u : State} (ran : execEpochMark r s = .next u) : Keeps s u := by
  have h := Keeps.refl s
  refine Keeps.onUnit ?_ ran
  refine Keeps.due h fun _ h1 => ?_
  exact (fun k : Keeps s _ => Keeps.ite (Keeps.ite (Keeps.ite k k.modClk.askLead) k.modClk) k)
    (Keeps.ite h1.modClk.modClk h1.modClk)

theorem execSlipRecovered_keeps {r : Nat} {s u : State} (ran : execSlipRecovered r s = .next u) : Keeps s u := by
  have h := Keeps.refl s
  refine Keeps.onUnit ?_ ran
  exact h.due fun _ h1 => h1.modClk.askLead

theorem execResync_keeps {r : Nat} {s u : State} (ran : execResync r s = .next u) : Keeps s u := by
  have h := Keeps.refl s
  refine Keeps.onUnit ?_ ran
  exact h.due fun _ h1 => ((((Keeps.ite ((Keeps.ite h1.flushBorders.jumpPorts h1.flushBorders).forAll fun _ _ h2 =>
    h2.modTile) (Keeps.ite h1.flushBorders.jumpPorts h1.flushBorders)).modRegion).passedAll).raise).foldl fun _ _ h2 =>
      h2.raise

theorem execDroopTrip_keeps {r mv : Nat} {s u : State} (ran : execDroopTrip r mv s = .next u) : Keeps s u := by
  have h := Keeps.refl s
  refine Keeps.onUnit ?_ ran
  exact h.due fun _ h1 => h1.modRegion

theorem execDroopClear_keeps {r : Nat} {s u : State} (ran : execDroopClear r s = .next u) : Keeps s u := by
  have h := Keeps.refl s
  refine Keeps.onUnit ?_ ran
  exact h.due fun _ h1 => h1.modClk

theorem execFChange_keeps {s u : State} (ran : execFChange s = .next u) : Keeps s u := by
  have h := Keeps.refl s
  refine Keeps.onUnit ?_ ran
  split
  · exact h.due fun _ h1 => h1.modMgt rfl rfl
  · exact h

theorem execFixedClockApply_keeps {s u : State} (ran : execFixedClockApply s = .next u) : Keeps s u := by
  have h := Keeps.refl s
  refine Keeps.onUnit ?_ ran
  exact h.due fun _ h1 => h1.modMgt (by split <;> rfl) (by split <;> rfl)

theorem execRefLost_keeps {s u : State} (ran : execRefLost s = .next u) : Keeps s u := by
  have h := Keeps.refl s
  refine Keeps.onUnit ?_ ran
  exact h.due fun _ h1 => (h1.modMgt rfl rfl).raiseEdge

theorem execRefRestored_keeps {s u : State} (ran : execRefRestored s = .next u) : Keeps s u := by
  have h := Keeps.refl s
  refine Keeps.onUnit ?_ ran
  exact h.due fun _ h1 => h1.modMgt rfl rfl

theorem execFabricLockLoss_keeps {s u : State} (ran : execFabricLockLoss s = .next u) : Keeps s u := by
  have h := Keeps.refl s
  refine Keeps.onUnit ?_ ran
  exact h.due fun _ h1 => (h1.modMgt rfl rfl).raiseEdge

theorem execCperMergeRelease_keeps {s u : State} (ran : execCperMergeRelease s = .next u) : Keeps s u := by
  have h := Keeps.refl s
  refine Keeps.onUnit ?_ ran
  split
  · exact h
  · exact h.due fun _ h1 => (h1.modMgt rfl rfl).exportCper

theorem execExpressTokenInject_keeps {n : NodeId} {s u : State} (ran : execExpressTokenInject n s = .next u) :
    Keeps s u := by
  have h := Keeps.refl s
  unfold execExpressTokenInject at ran
  cases n <;> refine Keeps.onUnit ?_ ran
  case hen =>
    dsimp only
    split
    · exact h.due fun _ h1 => h1.modCtl.inject
    · exact h
  case tile => exact h
  case site => exact h.edgeInject
  case iod => exact h.edgeInject
  case mc =>
    dsimp only
    split
    · exact h.due fun _ h1 => (h1.modMgt rfl rfl).inject
    · exact h

theorem execArrive_keeps {r : Nat} {k : Token} {s u : State} (ran : execArrive r k s = .next u) : Keeps s u := by
  refine Keeps.henToken (fun _ h1 => ?_) ran
  exact .ite h1.modBar.modBar.sendDone h1.modBar

theorem execRegionDone_keeps {r : Nat} {k : Token} {s u : State}
    (ran : execRegionDone r k s = .next u) : Keeps s u := by
  refine Keeps.henToken (fun _ h1 => ?_) ran
  dsimp only
  split
  · exact h1.due fun _ h2 => h2.collect
  · exact h1

theorem execRelease_keeps {t : Nat} {k : Token} {s u : State} (ran : execRelease t k s = .next u) : Keeps s u := by
  have h := Keeps.refl s
  refine Keeps.onUnit ?_ ran
  exact h.due fun _ h1 => h1.receive fun _ h2 => .ite h2.modBar (h2.due fun _ h3 => (Keeps.ite h3.modBar.henError
    h3.modBar).modTile)

theorem execBellwetherElection_keeps {p g : Nat} {s u : State}
    (ran : execBellwetherElection p g s = .next u) : Keeps s u := by
  have h := Keeps.refl s
  refine Keeps.onUnit ?_ ran
  split
  · exact h
  · split
    · exact h
    · refine Keeps.due h (fun _ h1 => ?_)
      split
      · exact h1
      · exact (h1.forAll fun _ _ h2 => h2.modBar).forAll fun _ _ h2 => h2.sendDone

theorem execHold_keeps {r : Nat} {k : Token} {s u : State} (ran : execHold r k s = .next u) : Keeps s u := by
  refine Keeps.henToken (fun _ h1 => ?_) ran
  exact .ite h1.modCtl.henError h1.modCtl

theorem execResume_keeps {r : Nat} {k : Token} {s u : State} (ran : execResume r k s = .next u) : Keeps s u := by
  refine Keeps.henToken (fun _ h1 => ?_) ran
  exact .ite h1.modCtl.henError h1.modCtl

theorem execPSwap_keeps {r : Nat} {k : Token} {s u : State} (ran : execPSwap r k s = .next u) : Keeps s u := by
  refine Keeps.henToken (fun _ h1 => ?_) ran
  exact .ite h1.modCtl.henError h1.modCtl

theorem execTSwap_keeps {r : Nat} {k : Token} {s u : State} (ran : execTSwap r k s = .next u) : Keeps s u := by
  refine Keeps.henToken (fun _ h1 => ?_) ran
  exact h1.due fun _ h2 => .ite h2.modCtl.henError h2.modCtl

theorem execRunStartToken_keeps {r : Nat} {k : Token} {s u : State}
    (ran : execRunStartToken r k s = .next u) : Keeps s u := by
  refine Keeps.henToken (fun _ h1 => ?_) ran
  exact .ite h1.stale (Keeps.ite h1.modCtl.henError h1.modCtl)

theorem execRunStop_keeps {r : Nat} {k : Token} {s u : State} (ran : execRunStop r k s = .next u) : Keeps s u := by
  refine Keeps.henToken (fun _ h1 => ?_) ran
  exact .ite h1.modCtl.henError h1.modCtl

theorem execHoldReq_keeps {r : Nat} {k : Token} {s u : State} (ran : execHoldReq r k s = .next u) : Keeps s u := by
  refine Keeps.henToken (fun _ h1 => ?_) ran
  exact h1.holdRequest

theorem execResumeReq_keeps {r : Nat} {k : Token} {s u : State}
    (ran : execResumeReq r k s = .next u) : Keeps s u := by
  refine Keeps.henToken (fun _ h1 => ?_) ran
  exact h1.resumeRequest

theorem execResumeAnnounce_keeps {r : Nat} {s u : State} (ran : execResumeAnnounce r s = .next u) : Keeps s u := by
  have h := Keeps.refl s
  refine Keeps.onUnit ?_ ran
  exact h.due fun _ h1 => h1.modCtl.announce

theorem execHoldBeat_keeps {r : Nat} {s u : State} (ran : execHoldBeat r s = .next u) : Keeps s u := by
  have h := Keeps.refl s
  refine Keeps.onUnit ?_ ran
  dsimp only
  split
  · exact h.due fun _ h1 => h1.modCtl.due fun _ h2 => .ite h2.pauseDone h2.startTests
  · exact h

theorem execResumeBeat_keeps {r : Nat} {s u : State} (ran : execResumeBeat r s = .next u) : Keeps s u := by
  have h := Keeps.refl s
  refine Keeps.onUnit ?_ ran
  dsimp only
  split
  · refine Keeps.due h (fun _ h1 => ?_)
    refine Keeps.ite h1.modCtl ?_
    split
    · exact h1.modCtl.henError
    · exact h1.modCtl
  · exact h

theorem execPartitionSwapRequest_keeps {p beat : Nat} {s u : State}
    (ran : execPartitionSwapRequest p beat s = .next u) : Keeps s u := by
  have h := Keeps.refl s
  refine Keeps.onUnit ?_ ran
  split
  · exact h.due fun _ h1 => h1.announcePSwap
  · exact h

theorem execTransitSwapRequest_keeps {regions : BitVec 40} {beat : Nat} {s u : State}
    (ran : execTransitSwapRequest regions beat s = .next u) : Keeps s u := by
  have h := Keeps.refl s
  refine Keeps.onUnit ?_ ran
  exact h.due fun _ h1 => h1.mcQueue

theorem execNormPair_keeps {r : Nat} {k : Token} {s u : State} (ran : execNormPair r k s = .next u) : Keeps s u := by
  refine Keeps.normToken (fun _ _ h1 => ?_) ran
  exact h1.modNorm

theorem execNormEnd_keeps {r : Nat} {k : Token} {s u : State} (ran : execNormEnd r k s = .next u) : Keeps s u := by
  refine Keeps.normToken (fun _ _ h1 => ?_) ran
  exact h1.modNorm

theorem execNormRecordEmit_keeps {p phase : Nat} {s u : State}
    (ran : execNormRecordEmit p phase s = .next u) : Keeps s u := by
  have h := Keeps.refl s
  refine Keeps.onUnit ?_ ran
  exact h.due fun _ h1 => (h1.forAll fun _ _ h2 => h2.emitNorm).modNorm

theorem execTileDue_keeps {t : Nat} {s u : State} (ran : execTileDue t s = .next u) : Keeps s u := by
  refine Keeps.testAge (fun _ h1 => ?_) ran
  exact h1.moveTest

theorem execTileOverdue_keeps {t : Nat} {s u : State} (ran : execTileOverdue t s = .next u) : Keeps s u := by
  refine Keeps.testAge (fun _ h1 => ?_) ran
  exact h1.moveTest

theorem execTileLapsed_keeps {t : Nat} {s u : State} (ran : execTileLapsed t s = .next u) : Keeps s u := by
  refine Keeps.testAge (fun _ h1 => ?_) ran
  exact h1.moveTest

theorem execFaultToken_keeps {n : NodeId} {k : Token} {s u : State} (ran : execFaultToken n k s = .next u) :
    Keeps s u := by
  have h := Keeps.refl s
  unfold execFaultToken at ran
  cases n <;> refine Keeps.onUnit ?_ ran
  case hen => exact h.due fun _ h1 => h1.receive fun _ h2 => h2.takeFault
  case mc => exact h.due fun _ h1 => .ite h1.landed.reservedAtMc h1.landed.takeFault
  case tile | site | iod => exact h

theorem execResidueMismatch_keeps {t : Nat} {router : Bool} {unit : Nat} {residue : ResidueCheck} {s u : State}
    (ran : execResidueMismatch t router unit residue s = .next u) : Keeps s u := by
  have h := Keeps.refl s
  refine Keeps.onUnit ?_ ran
  exact h.due fun _ h1 => h1.modTile.raise

theorem execIdleRegionTest_keeps {t : Nat} {s u : State} (ran : execIdleRegionTest t s = .next u) : Keeps s u := by
  have h := Keeps.refl s
  refine Keeps.onUnit ?_ ran
  exact h.due fun _ h1 => h1.startTests

theorem execFallowWindow_keeps {r i : Nat} {s u : State} (ran : execFallowWindow r i s = .next u) : Keeps s u := by
  have h := Keeps.refl s
  refine Keeps.onUnit ?_ ran
  dsimp only
  split
  · split
    · exact h.due fun _ h1 => h1.startTests
    · exact h
  · exact h

theorem execIftComplete_keeps {t : Nat} {o : TestOutcome} {routerOk : Bool} {s u : State}
    (ran : execIftComplete t o routerOk s = .next u) : Keeps s u := by
  have h := Keeps.refl s
  refine Keeps.onUnit ?_ ran
  refine Keeps.due h (fun _ h1 => ?_)
  refine Keeps.due ?_ (fun _ h2 => h2.modTest.pauseDone)
  split
  · exact (Keeps.ite h1 h1.routerBad).modTile
  · exact (Keeps.ite h1 h1.routerBad).endTest

theorem execTestGrant_keeps {r : Nat} {k : Token} {s u : State}
    (ran : execTestGrant r k s = .next u) : Keeps s u := by
  refine Keeps.henToken (fun _ h1 => ?_) ran
  exact h1.modTest

theorem execTestDone_keeps {r : Nat} {k : Token} {s u : State} (ran : execTestDone r k s = .next u) : Keeps s u := by
  refine Keeps.henToken (fun _ h1 => ?_) ran
  exact h1.due fun _ h2 => .ite ((h2.modTest.forAll fun _ _ h3 => h3.modTest).askLead) h2.modTest

theorem execBudgetInterval_keeps {m : PowerMeas} {s u : State}
    (ran : execBudgetInterval m s = .next u) : Keeps s u := by
  have h := Keeps.refl s
  refine Keeps.onUnit ?_ ran
  exact h.due fun _ h1 => (h1.excess.modMgt rfl rfl).budgeter

theorem execFloorRecompute_keeps {m : PowerMeas} {s u : State}
    (ran : execFloorRecompute m s = .next u) : Keeps s u := by
  have h := Keeps.refl s
  refine Keeps.onUnit ?_ ran
  exact h.due fun _ h1 => h1.modMgt rfl rfl

theorem execReport_keeps {n : NodeId} {k : Token} {s u : State} (ran : execReport n k s = .next u) : Keeps s u := by
  have h := Keeps.refl s
  unfold execReport at ran
  cases n
  case hen =>
    refine Keeps.henToken (fun _ h1 => ?_) ran
    exact .ite (h1.due fun _ h2 => h2.leadReport) h1.stale
  case mc =>
    refine Keeps.onUnit ?_ ran
    exact h.due fun _ h1 => .ite h1.landed.reservedAtMc (h1.landed.modMgt rfl rfl)
  case tile | site | iod => exact Keeps.onUnit h ran

theorem execOverBudgetReport_keeps {r amps : Nat} {m : PowerMeas} {s u : State}
    (ran : execOverBudgetReport r amps m s = .next u) : Keeps s u := by
  have h := Keeps.refl s
  refine Keeps.onUnit ?_ ran
  exact h.due fun _ h1 => (h1.report.modMgt rfl rfl).budgeter

theorem execBudget_keeps {r : Nat} {k : Token} {s u : State} (ran : execBudget r k s = .next u) : Keeps s u := by
  refine Keeps.henToken (fun _ h1 => ?_) ran
  exact h1.due fun _ h2 => h2.modPwr

theorem execPhase_keeps {r : Nat} {k : Token} {s u : State} (ran : execPhase r k s = .next u) : Keeps s u := by
  refine Keeps.henToken (fun _ h1 => ?_) ran
  exact h1.modPwr

theorem execDutySubperiod_keeps {p : Nat} {s u : State} (ran : execDutySubperiod p s = .next u) : Keeps s u := by
  have h := Keeps.refl s
  refine Keeps.onUnit ?_ ran
  split
  · exact h.due fun _ h1 => h1.modPwr.holdRequest
  · exact h

theorem execDutyHoldEnd_keeps {p : Nat} {s u : State} (ran : execDutyHoldEnd p s = .next u) : Keeps s u := by
  have h := Keeps.refl s
  refine Keeps.onUnit ?_ ran
  split
  · exact h.due fun _ h1 => h1.modPwr.leadReport
  · exact h

theorem execRetentionEntry_keeps {r : Nat} {s u : State} (ran : execRetentionEntry r s = .next u) : Keeps s u := by
  have h := Keeps.refl s
  refine Keeps.onUnit ?_ ran
  dsimp only
  split
  · exact h.due fun _ h1 => h1.modPwr.abandonTests
  · exact h

theorem execRampRecheck_keeps {r loaded : Nat} {s u : State}
    (ran : execRampRecheck r loaded s = .next u) : Keeps s u := by
  have h := Keeps.refl s
  refine Keeps.onUnit ?_ ran
  exact h.due fun _ h1 => h1.modPwr

theorem execRampWaitLong_keeps {r : Nat} {s u : State} (ran : execRampWaitLong r s = .next u) : Keeps s u := by
  have h := Keeps.refl s
  refine Keeps.onUnit ?_ ran
  exact h.due fun _ h1 => h1.pwrNote.forAll fun _ _ h2 => h2.modPwr

theorem execRampComplete_keeps {r : Nat} {s u : State} (ran : execRampComplete r s = .next u) : Keeps s u := by
  have h := Keeps.refl s
  refine Keeps.onUnit ?_ ran
  exact h.due fun _ h1 => h1.modPwr.forAll fun _ _ h2 => .ite h2 h2.modPwr

theorem execRetentionExit_keeps {r : Nat} {s u : State} (ran : execRetentionExit r s = .next u) : Keeps s u := by
  have h := Keeps.refl s
  refine Keeps.onUnit ?_ ran
  exact h.due fun _ h1 => .ite h1.modPwr.report h1.modPwr

theorem execTrip_keeps {r : Nat} {s u : State} (ran : execTrip r s = .next u) : Keeps s u := by
  have h := Keeps.refl s
  refine Keeps.onUnit ?_ ran
  exact h.due fun _ h1 => h1.pwrError.isolate.modPwr

theorem execBlockReenable_keeps {r : Nat} {s u : State} (ran : execBlockReenable r s = .next u) : Keeps s u := by
  have h := Keeps.refl s
  refine Keeps.onUnit ?_ ran
  exact h.due fun _ h1 => h1.modPwr.modPwr.feedCheck.feedCheck.requestRamp

theorem execPhaseFail_keeps {r ph : Nat} {s u : State} (ran : execPhaseFail r ph s = .next u) : Keeps s u := by
  have h := Keeps.refl s
  refine Keeps.onUnit ?_ ran
  refine Keeps.due h fun _ h1 => ?_
  have marked := fun f => (h1.modPwr (n := r) (f := f)).addLog (kind := 7) (finding := 2) (index := phaseIndex r ph)
  exact .ite (marked _).pwrError.cper.requestDark (marked _).pwrError.cper

theorem execDropMeasurement_keeps {r drop : Nat} {load : PhaseCurrent} {s u : State}
    (ran : execDropMeasurement r drop load s = .next u) : Keeps s u := by
  have h := Keeps.refl s
  refine Keeps.onUnit ?_ ran
  exact h.due fun _ h1 => .ite (((Keeps.ite h1.modPwr.modPwr.pwrError.cper h1.modPwr).pwrError).isolate) (Keeps.ite
    h1.modPwr.modPwr.pwrError.cper h1.modPwr)

theorem execDarkRunKill_keeps {r : Nat} {s u : State} (ran : execDarkRunKill r s = .next u) : Keeps s u := by
  have h := Keeps.refl s
  refine Keeps.onUnit ?_ ran
  dsimp only
  split
  · exact h.due fun _ h1 => h1.announceStop
  · exact h

theorem execDerate_keeps {r temp : Nat} {s u : State} (ran : execDerate r temp s = .next u) : Keeps s u := by
  have h := Keeps.refl s
  refine Keeps.onUnit ?_ ran
  exact .ite h.modPwr h.modPwr.pwrError

theorem execHeatOff_keeps {r : Nat} {s u : State} (ran : execHeatOff r s = .next u) : Keeps s u := by
  have h := Keeps.refl s
  refine Keeps.onUnit ?_ ran
  exact h.pwrError.requestDark

theorem execHeatReturn_keeps {r : Nat} {s u : State} (ran : execHeatReturn r s = .next u) : Keeps s u := by
  have h := Keeps.refl s
  refine Keeps.onUnit ?_ ran
  exact h.due fun _ h1 => h1.modPwr.reasonGone

theorem execThermTrip_keeps {r : Nat} {s u : State} (ran : execThermTrip r s = .next u) : Keeps s u := by
  have h := Keeps.refl s
  refine Keeps.onUnit ?_ ran
  exact h.pwrError.requestDark

theorem execThermTripRailOff_keeps {r : Nat} {s u : State}
    (ran : execThermTripRailOff r s = .next u) : Keeps s u := by
  have h := Keeps.refl s
  refine Keeps.onUnit ?_ ran
  exact h.due fun _ h1 => h1.railsOff

theorem execTelemetrySwap_keeps {r : Nat} {m : TlmMeas} {s u : State}
    (ran : execTelemetrySwap r m s = .next u) : Keeps s u := by
  have h := Keeps.refl s
  refine Keeps.onUnit ?_ ran
  exact h.due fun _ h1 => h1.modRegion.report

theorem execCodewordReceived_keeps {port lane frame : Nat} {errs : CodeErrors} {flits : List Line} {s u : State}
    (ran : execCodewordReceived port lane frame errs flits s = .next u) : Keeps s u := by
  have h := Keeps.refl s
  refine Keeps.onUnit ?_ ran
  refine Keeps.due h (fun _ h1 => ?_)
  dsimp only
  split
  · exact h1.modPort
  · exact ((h1.modPort.modPort.foldl fun _ _ h2 => .ite h2.takeFlit.sendNak h2.takeFlit).foldl fun _ _ h2 =>
      h2.takeFlit).repeatMap

theorem execAck_keeps {port : Nat} {s u : State} (ran : execAck port s = .next u) : Keeps s u := by
  refine Keeps.linkRow (fun _ _ h1 => ?_) ran
  exact h1.modPort.pump

theorem execNak_keeps {port : Nat} {s u : State} (ran : execNak port s = .next u) : Keeps s u := by
  refine Keeps.linkRow (fun _ _ h1 => ?_) ran
  exact h1.due fun _ h2 => h2.modPort

theorem execCredit_keeps {port : Nat} {s u : State} (ran : execCredit port s = .next u) : Keeps s u := by
  refine Keeps.linkRow (fun _ _ h1 => ?_) ran
  exact h1.modPort.pump

theorem execAckTimer_keeps {port : Nat} {s u : State} (ran : execAckTimer port s = .next u) : Keeps s u := by
  have h := Keeps.refl s
  refine Keeps.onUnit ?_ ran
  exact h.due fun _ h1 => h1.sendLink.modPort

theorem execCreditTimer_keeps {port : Nat} {s u : State} (ran : execCreditTimer port s = .next u) : Keeps s u := by
  have h := Keeps.refl s
  refine Keeps.onUnit ?_ ran
  exact h.due fun _ h1 => h1.sendCredit

theorem execTimeSync_keeps {port : Nat} {t2 t3 : Dword} {s u : State}
    (ran : execTimeSync port t2 t3 s = .next u) : Keeps s u := by
  refine Keeps.linkRow (fun _ _ h1 => ?_) ran
  exact h1.due fun _ h2 => h2.noteGm.sendLink

theorem execTimeResp_keeps {port : Nat} {t4 : Dword} {s u : State}
    (ran : execTimeResp port t4 s = .next u) : Keeps s u := by
  refine Keeps.linkRow (fun _ _ h1 => ?_) ran
  exact h1.due fun _ h2 => .ite h2.noteGm.takeOffset h2.noteGm

theorem execTimeSyncTimer_keeps {port : Nat} {t1 : Dword} {s u : State}
    (ran : execTimeSyncTimer port t1 s = .next u) : Keeps s u := by
  have h := Keeps.refl s
  refine Keeps.onUnit ?_ ran
  exact h.due fun _ h1 => h1.sendLink

theorem execAdmitted_keeps {port : Nat} {s u : State} (ran : execAdmitted port s = .next u) : Keeps s u := by
  refine Keeps.linkRow (fun _ _ h1 => ?_) ran
  exact .ite h1.modPort.becomeUp h1.modPort

theorem execLaneMap_keeps {port : Nat} {s u : State} (ran : execLaneMap port s = .next u) : Keeps s u := by
  refine Keeps.linkRow (fun _ _ h1 => ?_) ran
  exact h1.due fun _ h2 => h2.modPort

theorem execLaneSwitch_keeps {port : Nat} {s u : State} (ran : execLaneSwitch port s = .next u) : Keeps s u := by
  have h := Keeps.refl s
  refine Keeps.onUnit ?_ ran
  dsimp only
  split
  · exact h.due fun _ h1 => h1.modPort
  · exact h

theorem execReplayDrainEnd_keeps {port : Nat} {s u : State}
    (ran : execReplayDrainEnd port s = .next u) : Keeps s u := by
  have h := Keeps.refl s
  refine Keeps.onUnit ?_ ran
  exact h.due fun _ h1 => h1.modPort

theorem execPortTrainingComplete_keeps {trained : PortTraining} {s u : State}
    (ran : execPortTrainingComplete trained s = .next u) : Keeps s u := by
  have h := Keeps.refl s
  refine Keeps.onUnit ?_ ran
  exact h.due fun _ h1 => h1.modPort

theorem execPortQualificationComplete_keeps {port : Nat} {badLanes : List Nat} {s u : State}
    (ran : execPortQualificationComplete port badLanes s = .next u) : Keeps s u := by
  have h := Keeps.refl s
  refine Keeps.onUnit ?_ ran
  exact h.due fun _ h1 => h1.qualified

theorem execTransitForward_keeps {port : Nat} {s u : State} (ran : execTransitForward port s = .next u) :
    Keeps s u := by
  have h := Keeps.refl s
  refine Keeps.onUnit ?_ ran
  refine Keeps.due h fun _ h1 => ?_
  dsimp only
  split
  · exact h1
  · next taken =>
    have h2 := h1.takeRx taken
    refine Keeps.ite h2.noRoute ?_
    split
    · exact h2.modIod.queueAt
    · exact h2.noRoute

theorem execRsp_keeps {port : Nat} {s u : State} (ran : execRsp port s = .next u) : Keeps s u := by
  have h := Keeps.refl s
  refine Keeps.onUnit ?_ ran
  split
  · exact h
  · next taken => exact (h.takeRx taken).freeCredit.takeRsp

theorem execRequestTimeout_keeps {d tag : Nat} {s u : State}
    (ran : execRequestTimeout d tag s = .next u) : Keeps s u := by
  have h := Keeps.refl s
  refine Keeps.onUnit ?_ ran
  split
  · exact h.modIod.answered
  · exact h

theorem execOxPassStart_keeps {e : EdgeId} {sh i : Nat} {s u : State}
    (ran : execOxPassStart e sh i s = .next u) : Keeps s u := by
  have h := Keeps.refl s
  refine Keeps.onUnit ?_ ran
  dsimp only
  split
  · exact h.due fun _ h1 => .ite h1.modEdge.askAll (Keeps.ite h1.modEdge.passAsk (((Keeps.ite h1.modEdge.stage
      h1.modEdge).oxRefused).passDone))
  · exact h

theorem execOxPassComplete_keeps {e : EdgeId} {sh i : Nat} {bad : List Nat} {s u : State}
    (ran : execOxPassComplete e sh i bad s = .next u) : Keeps s u := by
  have h := Keeps.refl s
  refine Keeps.onUnit ?_ ran
  dsimp only
  split
  · exact h
  · exact .ite h.passAsk (Keeps.ite h.passDone ((h.forAll fun _ _ h1 => h1.moveLine).passDone))

theorem execOxLatePoint_keeps {e : EdgeId} {sh i : Nat} {s u : State}
    (ran : execOxLatePoint e sh i s = .next u) : Keeps s u := by
  have h := Keeps.refl s
  refine Keeps.onUnit ?_ ran
  dsimp only
  split
  · exact h.due fun _ h1 => h1.modEdge.edgeAsk
  · exact h

theorem execHbmEccPoll_keeps {x : Nat} {reports : List EccReport} {s u : State}
    (ran : execHbmEccPoll x reports s = .next u) : Keeps s u := by
  have h := Keeps.refl s
  refine Keeps.onUnit ?_ ran
  exact h.due fun _ h1 => h1.foldl fun _ _ h2 => h2.eccReport

theorem execHbmChannelFail_keeps {x c : Nat} {s u : State}
    (ran : execHbmChannelFail x c s = .next u) : Keeps s u := by
  have h := Keeps.refl s
  refine Keeps.onUnit ?_ ran
  exact h.due fun _ h1 => h1.failChannel

theorem execHbmSoftRepairComplete_keeps {x c : Nat} {bank row : Nat} {s u : State}
    (ran : execHbmSoftRepairComplete x c bank row s = .next u) : Keeps s u := by
  have h := Keeps.refl s
  refine Keeps.onUnit ?_ ran
  exact h.due fun _ h1 => h1.modSite

theorem execDevidRewriteComplete_keeps {s u : State} (ran : execDevidRewriteComplete s = .next u) : Keeps s u := by
  have h := Keeps.refl s
  refine Keeps.onUnit ?_ ran
  exact h.due fun _ h1 => (h1.upd.modMgt rfl rfl).admitAll

theorem execCreditToken_keeps {k : Token} {s u : State} (ran : execCreditToken k s = .next u) : Keeps s u := by
  have h := Keeps.refl s
  refine Keeps.onUnit ?_ ran
  exact h.due fun _ h1 => .ite h1.upd.reservedAtMc (Keeps.ite h1.upd.upd.ringResume.freeCredit h1.upd.upd.ringResume)

theorem execRingRead_keeps {x : Nat} {bad : List Nat} {s u : State} (ran : execRingRead x bad s = .next u) :
    Keeps s u := by
  refine Keeps.ringRow (fun _ _ h1 => ?_) ran
  exact h1.ringServe fun _ _ h2 => h2.readChecked

theorem execRingWrite_keeps {x : Nat} {s u : State} (ran : execRingWrite x s = .next u) : Keeps s u := by
  refine Keeps.ringRow (fun _ _ h1 => ?_) ran
  refine Keeps.ringServe h1 fun _ _ h2 => ?_
  exact .ite h2.writeMem h2.writeLines

theorem execRingAtomic_keeps {x : Nat} {bad : Bool} {s u : State} (ran : execRingAtomic x bad s = .next u) :
    Keeps s u := by
  refine Keeps.ringRow (fun _ _ h1 => ?_) ran
  refine Keeps.ringServe h1 fun _ _ h2 => ?_
  cases bad
  · exact h2.writeMem
  · exact h2.draw.uncorrectable.writeMem

theorem execIrantHandover_keeps {port : Nat} {s u : State}
    (ran : execIrantHandover port s = .next u) : Keeps s u := by
  refine Keeps.fabricRow (fun _ _ h1 => ?_) ran
  exact .ite h1.popFq.answer (Keeps.ite h1.popFq.answer h1.popFq.beginMove)

theorem execReclaim_keeps {port : Nat} {s u : State} (ran : execReclaim port s = .next u) : Keeps s u := by
  refine Keeps.fabricRow (fun _ _ h1 => ?_) ran
  exact .ite h1.popFq.answer (Keeps.ite h1.popFq.answer (Keeps.ite h1.popFq.answer (Keeps.ite h1.popFq.answer
    h1.popFq.freePage.answer)))

theorem execRequestExpired_keeps {port : Nat} {s u : State}
    (ran : execRequestExpired port s = .next u) : Keeps s u := by
  have h := Keeps.refl s
  refine Keeps.onUnit ?_ ran
  split
  · exact h
  · dsimp only
    split
    · exact h.upd.answer
    · split
      · split
        · exact h.modSite.freed.answer
        · exact h
      · split
        · exact h.modIod.freed.answer
        · exact h.modPort

theorem execDepart_keeps {port : Nat} {s u : State} (ran : execDepart port s = .next u) : Keeps s u := by
  refine Keeps.linkRow (fun _ _ h1 => ?_) ran
  exact (Keeps.ite h1.modPort.leaveUp h1.modPort).chooseParent

theorem execLaneRetire_keeps {port lane : Nat} {s u : State}
    (ran : execLaneRetire port lane s = .next u) : Keeps s u := by
  have h := Keeps.refl s
  refine Keeps.onUnit ?_ ran
  exact h.due fun _ h1 => .ite h1.modPort.raiseEdge.leaveUp.chooseParent (Keeps.ite
    h1.modPort.raiseEdge.sendLink.modPort h1.modPort.raiseEdge)

theorem execPortSignalLoss_keeps {port : Nat} {s u : State}
    (ran : execPortSignalLoss port s = .next u) : Keeps s u := by
  have h := Keeps.refl s
  refine Keeps.onUnit ?_ ran
  exact h.due fun _ h1 => h1.leaveUp.chooseParent

theorem execAutoRetrain_keeps {port : Nat} {s u : State} (ran : execAutoRetrain port s = .next u) : Keeps s u := by
  have h := Keeps.refl s
  refine Keeps.onUnit ?_ ran
  exact h.due fun _ h1 => h1.modPort.startRetrain

theorem execColPassDue_keeps {c i : Nat} {s u : State} (ran : execColPassDue c i s = .next u) : Keeps s u := by
  have h := Keeps.refl s
  refine Keeps.onUnit ?_ ran
  dsimp only
  split
  · refine Keeps.due h fun _ h1 => Keeps.advance ?_
    refine Keeps.foldl h1.openOp.modChan.modOp fun _ _ h2 => ?_
    split
    · exact h2.sendGather
    · exact h2.sendContrib
  · exact h

theorem execContrib_keeps {port : Nat} {s u : State} (ran : execContrib port s = .next u) : Keeps s u := by
  refine Keeps.colRow (fun _ _ _ _ h1 => ?_) ran
  refine Keeps.ite (h1.colSeen fun _ h2 => h2.modChan.colSend) ?_
  dsimp only
  split
  · exact h1.openOp
  · exact .ite h1.openOp.colDrop (h1.openOp.colSeen fun _ h2 => h2.contribute)

theorem execResult_keeps {port : Nat} {s u : State} (ran : execResult port s = .next u) : Keeps s u := by
  refine Keeps.colRow (fun _ _ _ _ h1 => ?_) ran
  refine Keeps.ite (h1.colSeen fun _ h2 => h2.modChan) ?_
  dsimp only
  split
  · exact h1.openOp
  · exact .ite h1.openOp.colDrop (h1.openOp.colSeen fun _ h2 => .ite h2.modOp.modChan h2.takeResult.advance)

theorem execRoster_keeps {port : Nat} {s u : State} (ran : execRoster port s = .next u) : Keeps s u := by
  refine Keeps.colRow (fun _ _ _ _ h1 => ?_) ran
  exact .ite h1 h1.openOp.modOp.advance

theorem execLateNotice_keeps {port : Nat} {s u : State} (ran : execLateNotice port s = .next u) : Keeps s u := by
  refine Keeps.colRow (fun _ _ _ _ h1 => ?_) ran
  exact h1.lateNoticed

theorem execChunkClose_keeps {c seq ch : Nat} {s u : State}
    (ran : execChunkClose c seq ch s = .next u) : Keeps s u := by
  have h := Keeps.refl s
  refine Keeps.onUnit ?_ ran
  dsimp only
  split
  · exact h
  · split
    · exact h
    · exact h.due fun _ h1 => h1.modOp.sendResult.advance

theorem execChunkGiveUp_keeps {c seq ch : Nat} {s u : State}
    (ran : execChunkGiveUp c seq ch s = .next u) : Keeps s u := by
  have h := Keeps.refl s
  refine Keeps.onUnit ?_ ran
  dsimp only
  split
  · exact h
  · exact h.due fun _ h1 => h1.modOp.modChan.advance

theorem execHandoverComplete_keeps {page : Nat} {s u : State}
    (ran : execHandoverComplete page s = .next u) : Keeps s u := by
  have h := Keeps.refl s
  refine Keeps.onUnit ?_ ran
  exact h.completeMove.advanceAll

theorem execRunStartBeat_keeps {r : Nat} {s u : State} (ran : execRunStartBeat r s = .next u) : Keeps s u := by
  have h := Keeps.refl s
  refine Keeps.onUnit ?_ ran
  dsimp only
  split
  · refine Keeps.due h (fun _ h1 => ?_)
    refine Keeps.ite h1.openRegion ?_
    split
    · exact (h1.openRegion.modPart.forAll fun _ _ h2 => h2.modChan).finish
    · exact h1.openRegion.modPart.forAll fun _ _ h2 => h2.modChan
  · exact h

theorem execRunComplete_keeps {p : Nat} {s u : State} (ran : execRunComplete p s = .next u) : Keeps s u := by
  have h := Keeps.refl s
  refine Keeps.onUnit ?_ ran
  exact h.due fun _ h1 => ((h1.forAll fun _ _ h2 => h2.closeRegion).closeRun).emptied

theorem execEndBeat_keeps {r : Nat} {s u : State} (ran : execEndBeat r s = .next u) : Keeps s u := by
  have h := Keeps.refl s
  refine Keeps.onUnit ?_ ran
  dsimp only
  split
  · exact h.due fun _ h1 => .ite h1.closeRegion.closeStopped.closeRun.emptied h1.closeRegion.closeStopped
  · exact h

theorem execScrubComplete_keeps {t : Nat} {s u : State} (ran : execScrubComplete t s = .next u) : Keeps s u := by
  have h := Keeps.refl s
  refine Keeps.onUnit ?_ ran
  exact h.due fun _ h1 => h1.modTile.emptied

theorem execDumpComplete_keeps {t : Nat} {ok : Bool} {s u : State} (ran : execDumpComplete t ok s = .next u) :
    Keeps s u := by
  have h := Keeps.refl s
  refine Keeps.onUnit ?_ ran
  refine Keeps.due h fun _ h1 => ?_
  refine Keeps.ite (Keeps.modTile ?_) h1.stopDump
  split
  · exact h1.toHost fun wf => writeBytes_wf wf _ _
  · exact h1

theorem execPageZeroingComplete_keeps {page : Nat} {s u : State}
    (ran : execPageZeroingComplete page s = .next u) : Keeps s u := by
  have h := Keeps.refl s
  refine Keeps.onUnit ?_ ran
  exact h.completeZero.advanceAll.forAll fun _ _ h1 => h1.destroyed

theorem execWireRetire_keeps {corrected : WireCorrections} {s u : State}
    (ran : execWireRetire corrected s = .next u) : Keeps s u := by
  have h := Keeps.refl s
  refine Keeps.onUnit ?_ ran
  exact h.due fun _ h1 => .ite h1.modUnits (Keeps.ite h1.modUnits.modUnits.wireState.wireFound (Keeps.ite
    h1.modUnits.modUnits.wireState.wireFound h1.modUnits.modUnits.wireState.wireFound.alternate))

theorem execDoubleWireError_keeps {wire : WireId} {s u : State}
    (ran : execDoubleWireError wire s = .next u) : Keeps s u := by
  have h := Keeps.refl s
  refine Keeps.onUnit ?_ ran
  exact h.due fun _ h1 => .ite h1.spoil.modUnits.wireState.wireFound h1.spoil.modUnits.wireToken

theorem execHenPoll_keeps {r : Nat} {ok : Bool} {s u : State} (ran : execHenPoll r ok s = .next u) : Keeps s u := by
  have h := Keeps.refl s
  refine Keeps.onUnit ?_ ran
  refine Keeps.due h fun _ h1 => ?_
  refine Keeps.ite h1.modRegion ?_
  refine Keeps.due h1.modRegion fun _ h2 => ?_
  exact h2.modRegion.henTiles.addLog.cper.isolate

theorem execRingSegmentFail_keeps {seg : Nat} {s u : State}
    (ran : execRingSegmentFail seg s = .next u) : Keeps s u := by
  have h := Keeps.refl s
  refine Keeps.onUnit ?_ ran
  exact h.due fun _ h1 => h1.modUnits.cutOff

theorem execControlCrossingFail_keeps {south : Bool} {s u : State}
    (ran : execControlCrossingFail south s = .next u) : Keeps s u := by
  have h := Keeps.refl s
  refine Keeps.onUnit ?_ ran
  exact h.modUnits

theorem execStagingBlockTest_keeps {e : EdgeId} {ok : Bool} {s u : State}
    (ran : execStagingBlockTest e ok s = .next u) : Keeps s u := by
  have h := Keeps.refl s
  refine Keeps.onUnit ?_ ran
  refine Keeps.due h fun _ h1 => ?_
  dsimp only
  split
  · exact h1.modEdge.addLog.cper.failSite
  · exact h1.modEdge.addLog.cper.setDie

theorem execRouterPlaneFeedLoss_keeps {r : Nat} {s u : State}
    (ran : execRouterPlaneFeedLoss r s = .next u) : Keeps s u := by
  have h := Keeps.refl s
  refine Keeps.onUnit ?_ ran
  exact h.planeOff

theorem execRouterPlaneFeedReturn_keeps {r : Nat} {own : Bool} {s u : State}
    (ran : execRouterPlaneFeedReturn r own s = .next u) : Keeps s u := by
  have h := Keeps.refl s
  refine Keeps.onUnit ?_ ran
  exact h.modPwr.feedCheck

theorem execIodHot_keeps {d : Nat} {s u : State} (ran : execIodHot d s = .next u) : Keeps s u := by
  have h := Keeps.refl s
  refine Keeps.onUnit ?_ ran
  exact h.due fun _ h1 => h1.setDie.raiseEdge

theorem execIodCool_keeps {d : Nat} {s u : State} (ran : execIodCool d s = .next u) : Keeps s u := by
  have h := Keeps.refl s
  refine Keeps.onUnit ?_ ran
  exact h.setDie

theorem execIodTrip_keeps {d : Nat} {s u : State} (ran : execIodTrip d s = .next u) : Keeps s u := by
  have h := Keeps.refl s
  refine Keeps.onUnit ?_ ran
  exact h.due fun _ h1 => h1.departDie.setDie.raiseEdge

theorem execHbmHot_keeps {x : Nat} {s u : State} (ran : execHbmHot x s = .next u) : Keeps s u := by
  have h := Keeps.refl s
  refine Keeps.onUnit ?_ ran
  exact h.due fun _ h1 => h1.modSite.raiseEdge

theorem execHbmStackCool_keeps {x : Nat} {s u : State} (ran : execHbmStackCool x s = .next u) : Keeps s u := by
  have h := Keeps.refl s
  refine Keeps.onUnit ?_ ran
  exact h.modSite

theorem execCoolantLoss_keeps {s u : State} (ran : execCoolantLoss s = .next u) : Keeps s u := by
  have h := Keeps.refl s
  refine Keeps.onUnit ?_ ran
  exact h.due fun _ h1 => (h1.modMgt rfl rfl).due fun _ h2 => ((h2.forAll fun _ _ h3 =>
    h3.pwrNote.requestDark).forAll fun _ _ h3 => h3.setDie).fly

theorem execCoolantRailCheck_keeps {westRose eastRose : Bool} {s u : State}
    (ran : execCoolantRailCheck westRose eastRose s = .next u) : Keeps s u := by
  have h := Keeps.refl s
  refine Keeps.onUnit ?_ ran
  split
  · exact h.due fun _ h1 => .ite ((Keeps.ite h1.halfOffNow h1).halfOffNow) (Keeps.ite h1.halfOffNow h1)
  · exact h

theorem execCoolantDepart_keeps {s u : State} (ran : execCoolantDepart s = .next u) : Keeps s u := by
  have h := Keeps.refl s
  refine Keeps.onUnit ?_ ran
  split
  · exact h.due fun _ h1 => h1.forAll fun _ _ h2 => h2.departDie.modIod
  · exact h

theorem execCoolantReturn_keeps {s u : State} (ran : execCoolantReturn s = .next u) : Keeps s u := by
  have h := Keeps.refl s
  refine Keeps.onUnit ?_ ran
  exact h.due fun _ h1 => (h1.modMgt rfl rfl).due fun _ h2 => ((h2.forAll fun _ _ h3 =>
    h3.modPwr.reasonGone).forAll fun _ _ h3 => .ite h3.modPort h3).forAll fun _ _ h3 => h3.setDie

theorem execModuleReset_keeps {s u : State} (ran : execModuleReset s = .next u) : Keeps s u := by
  refine Keeps.onUnit ?_ ran
  dsimp only [due]
  split
  · exact (Keeps.refl s).clearedWarm rfl rfl
  · exact .refl s

theorem execBusbarShutdown_keeps {s u : State} (ran : execBusbarShutdown s = .next u) : Keeps s u := by
  have h := Keeps.refl s
  refine Keeps.onUnit ?_ ran
  exact h.cleared rfl rfl

theorem execCommandedShutdown_keeps {s u : State} (ran : execCommandedShutdown s = .next u) : Keeps s u := by
  have darkens : ∀ x : State, Keeps s x → Keeps s (x.modMgt fun m => { m with darkened := true }) :=
    fun _ k => k.modMgt rfl rfl
  refine Keeps.onUnit ?_ ran
  refine Keeps.due (.refl s) fun _ h => darkens _ ?_
  exact h.forAll fun _ _ h1 => h1.departDie.setDie

theorem execMapPublication_keeps {s u : State} (ran : execMapPublication s = .next u) : Keeps s u := by
  have h := Keeps.refl s
  refine Keeps.onUnit ?_ ran
  exact h.due fun _ h1 => h1.relock.due fun _ h2 => h2.publish

theorem execPowerGood_keeps {s u : State} (ran : execPowerGood s = .next u) : Keeps s u := by
  have h := Keeps.refl s
  refine Keeps.onUnit ?_ ran
  exact h.due fun _ h1 => h1.modMgt rfl rfl

theorem execControllerFirmware_keeps {s u : State} (ran : execControllerFirmware s = .next u) : Keeps s u := by
  have h := Keeps.refl s
  refine Keeps.onUnit ?_ ran
  refine Keeps.due h (fun _ h1 => ?_)
  split
  · exact h1.modMgt rfl rfl
  · exact (h1.modMgt rfl rfl).unpower

theorem execWatchdogExpiry_keeps {s u : State} (ran : execWatchdogExpiry s = .next u) : Keeps s u := by
  have h := Keeps.refl s
  refine Keeps.onUnit ?_ ran
  exact h.due fun _ h1 => (h1.ofMgt (Mgt.restart_keeps _)).unpower

theorem execSpdmRecoveryImage_keeps {fw : List Byte} {s u : State} (ran : execSpdmRecoveryImage fw s = .next u) :
    Keeps s u := by
  refine Keeps.onUnit ?_ ran
  exact (Keeps.refl s).due fun _ h => h.ofMgt (Mgt.recover_keeps _ _)

theorem execActivationHealthy_keeps {s u : State} (ran : execActivationHealthy s = .next u) : Keeps s u := by
  have h := Keeps.refl s
  refine Keeps.onUnit ?_ ran
  exact h.due fun _ h1 => h1.modMgt rfl rfl

theorem execActivationTimeout_keeps {s u : State} (ran : execActivationTimeout s = .next u) : Keeps s u := by
  have h := Keeps.refl s
  refine Keeps.onUnit ?_ ran
  exact h.due fun _ h1 => h1.modMgt rfl rfl

theorem execHalfAlwaysOnPower_keeps {ok : Bool} {s u : State} (ran : execHalfAlwaysOnPower ok s = .next u) :
    Keeps s u := by
  have passes : ∀ x : State, Keeps s x → Keeps s (x.modMgt fun m => { m with stage := 3 }) :=
    fun _ k => k.modMgt rfl rfl
  have h := (Keeps.refl s).ofMgt (Mgt.retry_keeps _)
  refine Keeps.onUnit ?_ ran
  refine Keeps.due (.refl s) fun _ _ => ?_
  exact .ite (passes _ (h.forAll fun _ _ h1 => h1.feedUp)) (h.ofMgt (Mgt.halt_keeps _ _))

theorem execFuseMaps_keeps {s u : State} (ran : execFuseMaps s = .next u) : Keeps s u := by
  have h := Keeps.refl s
  refine Keeps.onUnit ?_ ran
  exact h.due fun _ h1 => .ite (h1.modMgt rfl rfl) (((h1.upd.forAll fun _ _ h2 => h2.modSite).forAll fun _ _ h2 =>
    h2.modIod).modMgt rfl rfl)

theorem execSeamAndBridgeRepair_keeps {found : SeamFindings} {s u : State}
    (ran : execSeamAndBridgeRepair found s = .next u) : Keeps s u := by
  have h := Keeps.refl s
  refine Keeps.onUnit ?_ ran
  exact h.due fun _ h1 => ((h1.oldSeams.foldl fun _ _ h2 => h2.seamTest).testWires).modMgt rfl rfl

theorem execBist_keeps {found : BistFindings} {s u : State} (ran : execBist found s = .next u) : Keeps s u := by
  have h := Keeps.refl s
  refine Keeps.onUnit ?_ ran
  exact h.due fun _ h1 => h1.modUnits.modMgt rfl rfl

theorem execFloorPlanMerge_keeps {s u : State} (ran : execFloorPlanMerge s = .next u) : Keeps s u := by
  have h := Keeps.refl s
  refine Keeps.onUnit ?_ ran
  split
  · exact h
  · exact h.due fun _ h1 => (((((((h1.forAll fun _ _ h2 => h2.mergeTile).mergeUnits fun _ _ h2 =>
      h2.modUnits).mergeUnits fun _ _ h2 => h2.badHen).mergeUnits fun _ _ h2 => h2.badPhase).mergeUnits fun _ _ h2
        => h2.badStaging).mergeUnits fun _ _ h2 => h2.badChannel).forAll fun _ _ h2 => h2.isolate).modMgt rfl rfl

theorem execLinkTraining_keeps {found : TrainFindings} {s u : State} (ran : execLinkTraining found s = .next u) :
    Keeps s u := by
  have halts : ∀ (n : Nat) (x : State), Keeps s x → Keeps s (x.modMgt fun m => m.halt n) :=
    fun _ _ k => k.ofMgt (Mgt.halt_keeps _ _)
  have levels : ∀ (n : Nat) (x : State), Keeps s x → Keeps s (x.modMgt fun m => { m with numLevel := n }) :=
    fun _ _ k => k.modMgt rfl rfl
  have passes : ∀ x : State, Keeps s x →
      Keeps s (x.modMgt fun m => { m with originSet := true, bistTime := m.nextTick, stage := 8 }) :=
    fun _ k => k.modMgt rfl rfl
  refine Keeps.onUnit ?_ ran
  refine Keeps.due (.refl s) fun _ h => ?_
  refine Keeps.ite (halts _ _ h) (Keeps.ite (halts _ _ (levels _ _ h)) ?_)
  refine Keeps.due (levels _ _ h) fun _ h => passes _ ?_
  refine Keeps.forAll ?_ fun _ _ h => .ite h.modRegion h.modRegion
  refine Keeps.growTree (Keeps.forAll ?_ fun _ _ h => .ite h.modPort h)
  refine Keeps.foldl (Keeps.cutOff (Keeps.modUnits ?_)) fun _ _ h => h.modPort
  refine Keeps.forAll (Keeps.forAll ?_ fun _ _ h => h.modSite) fun _ _ h => h.modIod
  exact Keeps.modMgt (h.modMgt rfl rfl) rfl rfl

theorem execRefclk_keeps {s u : State} (ran : execRefclk s = .next u) : Keeps s u := by
  have h := Keeps.refl s
  refine Keeps.onUnit ?_ ran
  exact h.due fun _ h1 => h1.modMgt rfl rfl

theorem execErrorRateQualification_keeps {found : QualFindings} {s u : State}
    (ran : execErrorRateQualification found s = .next u) : Keeps s u := by
  have h := Keeps.refl s
  refine Keeps.onUnit ?_ ran
  exact h.due fun _ h1 => (((h1.testWires.testWires.modUnits.cutOff.foldl fun _ _ h2 =>
    h2.failChannel).modUnits).saveLinks).modMgt rfl rfl

theorem execPublication_keeps {s u : State} (ran : execPublication s = .next u) : Keeps s u := by
  have h := Keeps.refl s
  refine Keeps.onUnit ?_ ran
  exact h.due fun _ h1 => ((((h1.forAll fun _ _ h2 => h2.modSite).modMgt rfl rfl).relock).publish).modMgt rfl rfl

theorem execStageTimeout_keeps {s u : State} (ran : execStageTimeout s = .next u) : Keeps s u := by
  have h := Keeps.refl s
  refine Keeps.onUnit ?_ ran
  exact h.due fun _ h1 => h1.modMgt rfl rfl

theorem execEntdaa_keeps {address : BitVec 7} {s u : State} (ran : execEntdaa address s = .next u) : Keeps s u := by
  have h := Keeps.refl s
  refine Keeps.onUnit ?_ ran
  exact h.due fun _ h1 => h1.modMgt rfl rfl

theorem execPerstNDelayEnd_keeps {s u : State} (ran : execPerstNDelayEnd s = .next u) : Keeps s u := by
  refine Keeps.onUnit ?_ ran
  refine (Keeps.refl s).due fun _ h => h.ofMgt ?_
  dsimp only
  split
  · exact Mgt.perstHeard_keeps _
  · exact ⟨rfl, rfl⟩

theorem execPerstRise_keeps {s u : State} (ran : execPerstRise s = .next u) : Keeps s u := by
  refine Keeps.onUnit ?_ ran
  refine (Keeps.refl s).ofMgt ?_
  dsimp only
  split
  · exact Mgt.perstHeard_keeps _
  · exact ⟨rfl, rfl⟩

theorem execTail_keeps {w : Party} {f tail : Nat} {host : List (Nat × Byte)} {s u : State}
    (ran : execTail w f tail host s = .next u) : Keeps s u := by
  have h := Keeps.refl s
  refine Keeps.onUnit ?_ ran
  exact h.hostBytes.write

theorem execRegisterWrite_keeps {w : Party} {addr size : Nat} {v : Dword} {s u : State}
    (ran : execRegisterWrite w addr size v s = .next u) : Keeps s u := by
  have h := Keeps.refl s
  refine Keeps.onUnit ?_ ran
  exact h.write

theorem execCtlRead_keeps {port : Nat} {s u : State} (ran : execCtlRead port s = .next u) : Keeps s u := by
  refine Keeps.fabricRow (fun _ _ h1 => ?_) ran
  refine Keeps.ite h1.popFq.answer ?_
  refine Keeps.ite h1.popFq.answer ?_
  split
  · exact h1.popFq.answer
  · exact h1.popFq.answer

theorem execCtlWrite_keeps {port : Nat} {s u : State} (ran : execCtlWrite port s = .next u) : Keeps s u := by
  refine Keeps.fabricRow (fun _ _ h1 => ?_) ran
  have popped := h1.popFq (p := port)
  refine Keeps.ite popped.answer (Keeps.ite popped.answer ?_)
  split
  · exact popped.answer
  · refine Keeps.ite popped.answer (Keeps.answer ?_)
    cases written : (State.writeReg _ _ _ _ _ _)
    · exact popped
    · exact popped.writeReg written

theorem execFdlRead_keeps {s u : State} (ran : execFdlRead s = .next u) : Keeps s u := by
  refine Keeps.mailRow (fun _ _ h1 => ?_) ran
  exact .ite h1.respond h1.respond

theorem execConfigRead_keeps {s u : State} (ran : execConfigRead s = .next u) : Keeps s u := by
  refine Keeps.mailRow (fun _ _ h1 => ?_) ran
  exact h1.respond

theorem execConfigWrite_keeps {s u : State} (ran : execConfigWrite s = .next u) : Keeps s u := by
  refine Keeps.mailRow (fun _ _ h1 => ?_) ran
  exact .ite h1.respond ((h1.modMgt rfl rfl).respond)

theorem execFwWrite_keeps {s u : State} (ran : execFwWrite s = .next u) : Keeps s u := by
  refine Keeps.mailRow (fun _ _ h1 => ?_) ran
  refine .ite h1.respond (Keeps.respond (h1.ofMgt ?_))
  exact Mgt.setSlot_keeps _ _ _

theorem execFwCommit_keeps {s u : State} (ran : execFwCommit s = .next u) : Keeps s u := by
  refine Keeps.mailRow (fun _ _ h1 => ?_) ran
  refine .ite h1.respond (Keeps.respond (h1.ofMgt ?_))
  split
  · exact Mgt.recover_keeps _ _
  · exact Mgt.setSlot_keeps _ _ _

theorem execKeyBootstrap_keeps {s u : State} (ran : execKeyBootstrap s = .next u) : Keeps s u := by
  refine Keeps.mailRow (fun _ _ h1 => ?_) ran
  exact .ite h1.respond (Keeps.ite h1.respond ((h1.modMgt rfl rfl).respond))

theorem execWindowReg_keeps {f : Nat} {s u : State} (ran : execWindowReg f s = .next u) : Keeps s u := by
  refine Keeps.ringCmd (fun _ _ h1 => ?_) ran
  exact .ite h1.done (Keeps.ite h1.done (Keeps.ite h1.done (Keeps.ite h1.done h1.modFn.done)))

theorem execWindowUnreg_keeps {f : Nat} {s u : State} (ran : execWindowUnreg f s = .next u) : Keeps s u := by
  refine Keeps.ringCmd (fun _ _ h1 => ?_) ran
  exact .ite h1.done h1.dropDump.modFn.ringOn

theorem execDmaComplete_keeps {f cid : Nat} {host : List (Nat × Byte)} {s u : State}
    (ran : execDmaComplete f cid host s = .next u) : Keeps s u := by
  have h := Keeps.refl s
  refine Keeps.onUnit ?_ ran
  dsimp only
  split
  · exact h.hostBytes.modFn.complete.ringOn
  · split
    · exact h.hostBytes.dmaAsk
    · exact h.hostBytes

theorem execHandover_keeps {f : Nat} {s u : State} (ran : execHandover f s = .next u) : Keeps s u := by
  refine Keeps.ringCmd (fun _ _ h1 => ?_) ran
  exact .ite h1.done (Keeps.ite h1.done h1.begin.beginMove)

theorem execImageLoad_keeps {f : Nat} {img : Image} {s u : State}
    (ran : execImageLoad f img s = .next u) : Keeps s u := by
  have h := Keeps.refl s
  refine Keeps.onUnit ?_ ran
  split
  · exact h.due fun _ h1 => h1.emptied.loadNow
  · split
    · exact h
    · refine Keeps.due h (fun _ h1 => ?_)
      dsimp only
      split
      · exact h1.emptied.modFn.begin.finish
      · exact .ite h1.emptied.modFn.begin.modPart h1.emptied.modFn.begin.loadNow

theorem execImageLoadComplete_keeps {p : Nat} {s u : State}
    (ran : execImageLoadComplete p s = .next u) : Keeps s u := by
  have h := Keeps.refl s
  refine Keeps.onUnit ?_ ran
  split
  · refine Keeps.ite (((h.forAll fun _ _ h1 => h1.modTile).modPart).finish) ?_
    split
    · exact h.due fun _ h1 => h1.modPart.finish
    · exact h
  · exact h

theorem execRunStart_keeps {f : Nat} {s u : State} (ran : execRunStart f s = .next u) : Keeps s u := by
  refine Keeps.ringCmd (fun _ _ h1 => ?_) ran
  dsimp only
  split
  · exact h1.done
  · refine Keeps.ite h1.done ?_
    split
    · exact h1.discard.done
    · exact h1.begin.modPart.announceStart

theorem execRunKill_keeps {f : Nat} {s u : State} (ran : execRunKill f s = .next u) : Keeps s u := by
  refine Keeps.ringCmd (fun _ _ h1 => ?_) ran
  exact .ite h1.done (Keeps.ite h1.begin.modPart h1.begin.modPart.announceStop)

theorem execPartCreate_keeps {s u : State} (ran : execPartCreate s = .next u) : Keeps s u := by
  refine Keeps.ringCmd (fun _ _ h1 => ?_) ran
  refine Keeps.ite h1.done ?_
  refine Keeps.ite h1.done ?_
  split
  · exact h1.done
  · exact h1.createPart.done

theorem execFlrVf_keeps {f : Nat} {s u : State} (ran : execFlrVf f s = .next u) : Keeps s u := by
  have h := Keeps.refl s
  refine Keeps.onUnit ?_ ran
  exact h.flr

theorem execFlrPf_keeps {s u : State} (ran : execFlrPf s = .next u) : Keeps s u := by
  have h := Keeps.refl s
  refine Keeps.onUnit ?_ ran
  exact h.flrAll

theorem execPerstFall_keeps {s u : State} (ran : execPerstFall s = .next u) : Keeps s u := by
  have h := Keeps.refl s
  refine Keeps.onUnit ?_ ran
  exact .ite ((h.modMgt rfl rfl).flrAll) (h.modMgt rfl rfl)

theorem execNegotiateAlgorithms_keeps {offer : List Byte} {s u : State}
    (ran : execNegotiateAlgorithms offer s = .next u) : Keeps s u := by
  have h := Keeps.refl s
  refine Keeps.onUnit ?_ ran
  exact h.spdm

theorem execCertificateRetrieval_keeps {slot : Nat} {s u : State}
    (ran : execCertificateRetrieval slot s = .next u) : Keeps s u := by
  have h := Keeps.refl s
  refine Keeps.onUnit ?_ ran
  exact .ite h.spdm h.spdm

theorem execChallenge_keeps {nonce : List Byte} {s u : State}
    (ran : execChallenge nonce s = .next u) : Keeps s u := by
  have h := Keeps.refl s
  refine Keeps.onUnit ?_ ran
  exact h.spdm

theorem execSignedMeasurements_keeps {slot : Nat} {s u : State}
    (ran : execSignedMeasurements slot s = .next u) : Keeps s u := by
  have h := Keeps.refl s
  refine Keeps.onUnit ?_ ran
  exact .ite h.spdm h.spdm

theorem execKeyExchange_keeps {sess : Nat} {key : List Byte} {s u : State}
    (ran : execKeyExchange sess key s = .next u) : Keeps s u := by
  have h := Keeps.refl s
  refine Keeps.onUnit ?_ ran
  split
  · exact h.spdm
  · exact h.spdm
  · exact h.setSession.spdm

theorem execFinish_keeps {sess : Nat} {s u : State} (ran : execFinish sess s = .next u) : Keeps s u := by
  refine Keeps.sessionRow (fun _ _ h1 => ?_) ran
  exact h1.setSession.spdm

theorem execHeartbeat_keeps {sess : Nat} {s u : State} (ran : execHeartbeat sess s = .next u) : Keeps s u := by
  refine Keeps.sessionRow (fun _ _ h1 => ?_) ran
  exact h1.spdm

theorem execKeyUpdate_keeps {sess : Nat} {s u : State} (ran : execKeyUpdate sess s = .next u) : Keeps s u := by
  refine Keeps.sessionRow (fun _ _ h1 => ?_) ran
  exact h1.setSession.spdm

theorem execEndSession_keeps {sess : Nat} {s u : State} (ran : execEndSession sess s = .next u) : Keeps s u := by
  refine Keeps.sessionRow (fun _ _ h1 => ?_) ran
  exact h1.endSession.spdm

theorem execSessionTimeout_keeps {sess : Nat} {s u : State}
    (ran : execSessionTimeout sess s = .next u) : Keeps s u := by
  have h := Keeps.refl s
  refine Keeps.onUnit ?_ ran
  split
  · exact h.due fun _ h1 => h1.endSession
  · exact h

theorem execBind_keeps {sess f : Nat} {fabric : Bool} {s u : State} (ran : execBind sess f fabric s = .next u) :
    Keeps s u := by
  refine Keeps.messageRow (fun _ _ h1 => ?_) ran
  simp only [apply_ite Prod.snd]
  exact .ite h1 (Keeps.ite h1 (Keeps.ite h1 h1.modFn))

theorem execUnbind_keeps {sess f : Nat} {fabric : Bool} {s u : State} (ran : execUnbind sess f fabric s = .next u) :
    Keeps s u := by
  refine Keeps.messageRow (fun _ _ h1 => ?_) ran
  simp only [apply_ite Prod.snd]
  exact .ite h1 (Keeps.ite (Keeps.ite h1.endFabric h1) (Keeps.ite h1.endRing h1))

theorem execKeyEnroll_keeps {sess slot : Nat} {key : List Byte} {role : Role} {mask : BitVec 16} {s u : State}
    (ran : execKeyEnroll sess slot key role mask s = .next u) : Keeps s u := by
  refine Keeps.adminRow (fun _ h1 => ?_) ran
  simp only [apply_ite Prod.snd]
  exact .ite h1 (Keeps.ite h1 (h1.modMgt rfl rfl))

theorem execKeyRemove_keeps {sess slot : Nat} {s u : State} (ran : execKeyRemove sess slot s = .next u) :
    Keeps s u := by
  refine Keeps.adminRow (fun _ h1 => ?_) ran
  simp only [apply_ite Prod.snd]
  refine Keeps.ite h1 (Keeps.ite h1 ((h1.modMgt rfl rfl).foldl fun _ _ h2 => ?_))
  split
  · exact .ite h2.endSession h2
  · exact h2

theorem execImageKeyEnroll_keeps {sess slot : Nat} {key : List Byte} {s u : State}
    (ran : execImageKeyEnroll sess slot key s = .next u) : Keeps s u := by
  refine Keeps.adminRow (fun _ h1 => ?_) ran
  simp only [apply_ite Prod.snd]
  exact .ite h1 (h1.modMgt rfl rfl)

theorem execImageKeyRemove_keeps {sess slot : Nat} {s u : State} (ran : execImageKeyRemove sess slot s = .next u) :
    Keeps s u := by
  refine Keeps.adminRow (fun _ h1 => ?_) ran
  simp only [apply_ite Prod.snd]
  exact .ite h1 (h1.modMgt rfl rfl)

/-- No command loses a log entry, changes a fuse, touches the queue or spoils a byte memory (R293, R298). -/
theorem exec_keeps {i : Instr} {s u : State} (ran : exec i s = .next u) : Keeps s u := by
  cases i with
  | nop _ => rw [exec_nop] at ran; exact Keeps.issueTile ran
  | mov _ => rw [exec_mov] at ran; exact Keeps.aluWord ran
  | add _ => rw [exec_add] at ran; exact Keeps.aluWord ran
  | sub _ => rw [exec_sub] at ran; exact Keeps.aluWord ran
  | mul _ => rw [exec_mul] at ran; exact Keeps.aluWord ran
  | and _ => rw [exec_and] at ran; exact Keeps.aluWord ran
  | or _ => rw [exec_or] at ran; exact Keeps.aluWord ran
  | xor _ => rw [exec_xor] at ran; exact Keeps.aluWord ran
  | shl _ => rw [exec_shl] at ran; exact Keeps.aluWord ran
  | shr _ => rw [exec_shr] at ran; exact Keeps.aluWord ran
  | sra _ => rw [exec_sra] at ran; exact Keeps.aluWord ran
  | min _ => rw [exec_min] at ran; exact Keeps.aluWord ran
  | max _ => rw [exec_max] at ran; exact Keeps.aluWord ran
  | cmplt _ => rw [exec_cmplt] at ran; exact Keeps.aluWord ran
  | cmpeq _ => rw [exec_cmpeq] at ran; exact Keeps.aluWord ran
  | cmpltu _ => rw [exec_cmpltu] at ran; exact Keeps.aluWord ran
  | lds _ => rw [exec_lds] at ran; exact Keeps.issueTile ran
  | sts _ => rw [exec_sts] at ran; exact Keeps.issueTile ran
  | br _ => rw [exec_br] at ran; exact Keeps.issueTile ran
  | bz _ => rw [exec_bz] at ran; exact Keeps.issueTile ran
  | jmp _ => rw [exec_jmp] at ran; exact Keeps.issueTile ran
  | loop _ => rw [exec_loop] at ran; exact Keeps.issueTile ran
  | rdlc _ => rw [exec_rdlc] at ran; exact Keeps.issueTile ran
  | loopi _ => rw [exec_loopi] at ran; exact Keeps.issueTile ran
  | halt _ => rw [exec_halt] at ran; exact Keeps.issueTile ran
  | vadd _ => rw [exec_vadd] at ran; exact Keeps.vecWord ran
  | vsub _ => rw [exec_vsub] at ran; exact Keeps.vecWord ran
  | vmul _ => rw [exec_vmul] at ran; exact Keeps.vecWord ran
  | vfma _ => rw [exec_vfma] at ran; exact Keeps.vecWord ran
  | vmax _ => rw [exec_vmax] at ran; exact Keeps.vecWord ran
  | vmin _ => rw [exec_vmin] at ran; exact Keeps.vecWord ran
  | vabs _ => rw [exec_vabs] at ran; exact Keeps.vecWord ran
  | vneg _ => rw [exec_vneg] at ran; exact Keeps.vecWord ran
  | vbcst _ => rw [exec_vbcst] at ran; exact Keeps.vecWord ran
  | vcvtn _ => rw [exec_vcvtn] at ran; exact Keeps.issueTile ran
  | vcvtw _ => rw [exec_vcvtw] at ran; exact Keeps.vecWord ran
  | vexp2 _ => rw [exec_vexp2] at ran; exact Keeps.vecWord ran
  | vrcp _ => rw [exec_vrcp] at ran; exact Keeps.vecWord ran
  | vrsq _ => rw [exec_vrsq] at ran; exact Keeps.vecWord ran
  | vsum _ => rw [exec_vsum] at ran; exact Keeps.vecWord ran
  | vld _ => rw [exec_vld] at ran; exact Keeps.issueTile ran
  | vst _ => rw [exec_vst] at ran; exact Keeps.issueTile ran
  | vnorm _ => rw [exec_vnorm] at ran; exact Keeps.issueTile ran
  | vsel _ => rw [exec_vsel] at ran; exact Keeps.vecWord ran
  | acfg _ => rw [exec_acfg] at ran; exact Keeps.issueTile ran
  | aloadb _ => rw [exec_aloadb] at ran; exact Keeps.issueTile ran
  | amul _ => rw [exec_amul] at ran; exact Keeps.issueTile ran
  | adrain _ => rw [exec_adrain] at ran; exact Keeps.issueTile ran
  | azero _ => rw [exec_azero] at ran; exact Keeps.issueTile ran
  | xout _ => rw [exec_xout] at ran; exact Keeps.issueTile ran
  | xin _ => rw [exec_xin] at ran; exact Keeps.issueTile ran
  | tarr _ => rw [exec_tarr] at ran; exact execTarr_keeps ran
  | twait _ => rw [exec_twait] at ran; exact execTwait_keeps ran
  | tsync _ => rw [exec_tsync] at ran; exact execTsync_keeps ran
  | tphase _ => rw [exec_tphase] at ran; exact execTphase_keeps ran
  | traise _ => rw [exec_traise] at ran; exact execTraise_keeps ran
  | pipePendingStart _ _ => rw [exec_pipePendingStart] at ran; exact execPipePendingStart_keeps ran
  | barrierTimeout _ => rw [exec_barrierTimeout] at ran; exact execBarrierTimeout_keeps ran
  | resumeIssue _ => rw [exec_resumeIssue] at ran; exact execResumeIssue_keeps ran
  | runStartBeat _ => rw [exec_runStartBeat] at ran; exact execRunStartBeat_keeps ran
  | runComplete _ => rw [exec_runComplete] at ran; exact execRunComplete_keeps ran
  | endBeat _ => rw [exec_endBeat] at ran; exact execEndBeat_keeps ran
  | scrubComplete _ => rw [exec_scrubComplete] at ran; exact execScrubComplete_keeps ran
  | flush _ _ => rw [exec_flush] at ran; exact Keeps.regRow ran
  | pop _ _ => rw [exec_pop] at ran; exact Keeps.regRow ran
  | rtrStData _ _ _ => rw [exec_rtrStData] at ran; exact Keeps.regRow ran
  | rtrPeriod _ _ _ => rw [exec_rtrPeriod] at ran; exact Keeps.regRow ran
  | rtrSlack _ _ _ => rw [exec_rtrSlack] at ran; exact Keeps.regRow ran
  | tOut _ _ _ => rw [exec_tOut] at ran; exact Keeps.regRow ran
  | borderWordArrival _ _ _ => rw [exec_borderWordArrival] at ran; exact execBorderWordArrival_keeps ran
  | borderWordLate _ _ _ => rw [exec_borderWordLate] at ran; exact execBorderWordLate_keeps ran
  | partitionSwapBeat _ => rw [exec_partitionSwapBeat] at ran; exact execPartitionSwapBeat_keeps ran
  | transitSwapBeat _ => rw [exec_transitSwapBeat] at ran; exact execTransitSwapBeat_keeps ran
  | routerPlaneFeedLoss _ => rw [exec_routerPlaneFeedLoss] at ran; exact execRouterPlaneFeedLoss_keeps ran
  | routerPlaneFeedReturn _ _ => rw [exec_routerPlaneFeedReturn] at ran; exact execRouterPlaneFeedReturn_keeps ran
  | expressTokenInject _ => rw [exec_expressTokenInject] at ran; exact execExpressTokenInject_keeps ran
  | arrive _ _ => rw [exec_arrive] at ran; exact execArrive_keeps ran
  | regionDone _ _ => rw [exec_regionDone] at ran; exact execRegionDone_keeps ran
  | release _ _ => rw [exec_release] at ran; exact execRelease_keeps ran
  | bellwetherElection _ _ => rw [exec_bellwetherElection] at ran; exact execBellwetherElection_keeps ran
  | hold _ _ => rw [exec_hold] at ran; exact execHold_keeps ran
  | holdBeat _ => rw [exec_holdBeat] at ran; exact execHoldBeat_keeps ran
  | resume _ _ => rw [exec_resume] at ran; exact execResume_keeps ran
  | resumeBeat _ => rw [exec_resumeBeat] at ran; exact execResumeBeat_keeps ran
  | pSwap _ _ => rw [exec_pSwap] at ran; exact execPSwap_keeps ran
  | tSwap _ _ => rw [exec_tSwap] at ran; exact execTSwap_keeps ran
  | runStartToken _ _ => rw [exec_runStartToken] at ran; exact execRunStartToken_keeps ran
  | runStop _ _ => rw [exec_runStop] at ran; exact execRunStop_keeps ran
  | holdReq _ _ => rw [exec_holdReq] at ran; exact execHoldReq_keeps ran
  | resumeReq _ _ => rw [exec_resumeReq] at ran; exact execResumeReq_keeps ran
  | resumeAnnounce _ => rw [exec_resumeAnnounce] at ran; exact execResumeAnnounce_keeps ran
  | hostHold _ _ => rw [exec_hostHold] at ran; exact Keeps.regRow ran
  | hostResume _ _ => rw [exec_hostResume] at ran; exact Keeps.regRow ran
  | fmHold _ _ => rw [exec_fmHold] at ran; exact Keeps.regRow ran
  | fmResume _ _ => rw [exec_fmResume] at ran; exact Keeps.regRow ran
  | creditToken _ => rw [exec_creditToken] at ran; exact execCreditToken_keeps ran
  | faultToken _ _ => rw [exec_faultToken] at ran; exact execFaultToken_keeps ran
  | normPair _ _ => rw [exec_normPair] at ran; exact execNormPair_keeps ran
  | normEnd _ _ => rw [exec_normEnd] at ran; exact execNormEnd_keeps ran
  | normRecordEmit _ _ => rw [exec_normRecordEmit] at ran; exact execNormRecordEmit_keeps ran
  | roosterTick _ _ => rw [exec_roosterTick] at ran; exact execRoosterTick_keeps ran
  | tickMiss _ => rw [exec_tickMiss] at ran; exact execTickMiss_keeps ran
  | epochMark _ => rw [exec_epochMark] at ran; exact execEpochMark_keeps ran
  | slipRecovered _ => rw [exec_slipRecovered] at ran; exact execSlipRecovered_keeps ran
  | resync _ => rw [exec_resync] at ran; exact execResync_keeps ran
  | droopTrip _ _ => rw [exec_droopTrip] at ran; exact execDroopTrip_keeps ran
  | droopClear _ => rw [exec_droopClear] at ran; exact execDroopClear_keeps ran
  | fChange => rw [exec_fChange] at ran; exact execFChange_keeps ran
  | fixed _ _ => rw [exec_fixed] at ran; exact Keeps.regRow ran
  | fixedMhz _ _ => rw [exec_fixedMhz] at ran; exact Keeps.regRow ran
  | fixedClockApply => rw [exec_fixedClockApply] at ran; exact execFixedClockApply_keeps ran
  | refLost => rw [exec_refLost] at ran; exact execRefLost_keeps ran
  | refRestored => rw [exec_refRestored] at ran; exact execRefRestored_keeps ran
  | fabricLockLoss => rw [exec_fabricLockLoss] at ran; exact execFabricLockLoss_keeps ran
  | oxPassStart _ _ _ => rw [exec_oxPassStart] at ran; exact execOxPassStart_keeps ran
  | oxPassComplete _ _ _ _ => rw [exec_oxPassComplete] at ran; exact execOxPassComplete_keeps ran
  | oxLatePoint _ _ _ => rw [exec_oxLatePoint] at ran; exact execOxLatePoint_keeps ran
  | stagingMiss _ _ => rw [exec_stagingMiss] at ran; exact execStagingMiss_keeps ran
  | edgEstData _ _ _ => rw [exec_edgEstData] at ran; exact Keeps.regRow ran
  | edgEstPort _ _ _ => rw [exec_edgEstPort] at ran; exact Keeps.regRow ran
  | iraEstData _ _ _ => rw [exec_iraEstData] at ran; exact Keeps.regRow ran
  | iraEstPort _ _ _ => rw [exec_iraEstPort] at ran; exact Keeps.regRow ran
  | ringRead _ _ => rw [exec_ringRead] at ran; exact execRingRead_keeps ran
  | ringWrite _ => rw [exec_ringWrite] at ran; exact execRingWrite_keeps ran
  | ringAtomic _ _ => rw [exec_ringAtomic] at ran; exact execRingAtomic_keeps ran
  | hbmEccPoll _ _ => rw [exec_hbmEccPoll] at ran; exact execHbmEccPoll_keeps ran
  | hbmChannelFail _ _ => rw [exec_hbmChannelFail] at ran; exact execHbmChannelFail_keeps ran
  | handoverComplete _ => rw [exec_handoverComplete] at ran; exact execHandoverComplete_keeps ran
  | pageZeroingComplete _ => rw [exec_pageZeroingComplete] at ran; exact execPageZeroingComplete_keeps ran
  | devId _ _ => rw [exec_devId] at ran; exact Keeps.regRow ran
  | devidRewriteComplete => rw [exec_devidRewriteComplete] at ran; exact execDevidRewriteComplete_keeps ran
  | iraRoute _ _ _ => rw [exec_iraRoute] at ran; exact Keeps.regRow ran
  | quiesce _ _ _ => rw [exec_quiesce] at ran; exact Keeps.regRow ran
  | gmSelf _ _ => rw [exec_gmSelf] at ran; exact Keeps.regRow ran
  | codewordReceived _ _ _ _ _ => rw [exec_codewordReceived] at ran; exact execCodewordReceived_keeps ran
  | load _ => rw [exec_load] at ran; exact Keeps.memoryRow ran
  | store _ => rw [exec_store] at ran; exact Keeps.memoryRow ran
  | storeMasked _ => rw [exec_storeMasked] at ran; exact Keeps.memoryRow ran
  | atomicSwap _ => rw [exec_atomicSwap] at ran; exact Keeps.atomicRow ran
  | atomicCas _ => rw [exec_atomicCas] at ran; exact Keeps.atomicRow ran
  | atomicAdd _ => rw [exec_atomicAdd] at ran; exact Keeps.atomicRow ran
  | atomicAnd _ => rw [exec_atomicAnd] at ran; exact Keeps.atomicRow ran
  | atomicOr _ => rw [exec_atomicOr] at ran; exact Keeps.atomicRow ran
  | atomicXor _ => rw [exec_atomicXor] at ran; exact Keeps.atomicRow ran
  | atomicMaxu _ => rw [exec_atomicMaxu] at ran; exact Keeps.atomicRow ran
  | atomicMinu _ => rw [exec_atomicMinu] at ran; exact Keeps.atomicRow ran
  | irantHandover _ => rw [exec_irantHandover] at ran; exact execIrantHandover_keeps ran
  | reclaim _ => rw [exec_reclaim] at ran; exact execReclaim_keeps ran
  | ctlRead _ => rw [exec_ctlRead] at ran; exact execCtlRead_keeps ran
  | ctlWrite _ => rw [exec_ctlWrite] at ran; exact execCtlWrite_keeps ran
  | rsp _ => rw [exec_rsp] at ran; exact execRsp_keeps ran
  | requestExpired _ => rw [exec_requestExpired] at ran; exact execRequestExpired_keeps ran
  | requestTimeout _ _ => rw [exec_requestTimeout] at ran; exact execRequestTimeout_keeps ran
  | transitForward _ => rw [exec_transitForward] at ran; exact execTransitForward_keeps ran
  | ack _ => rw [exec_ack] at ran; exact execAck_keeps ran
  | nak _ => rw [exec_nak] at ran; exact execNak_keeps ran
  | credit _ => rw [exec_credit] at ran; exact execCredit_keeps ran
  | timeSync _ _ _ => rw [exec_timeSync] at ran; exact execTimeSync_keeps ran
  | timeResp _ _ => rw [exec_timeResp] at ran; exact execTimeResp_keeps ran
  | depart _ => rw [exec_depart] at ran; exact execDepart_keeps ran
  | admitted _ => rw [exec_admitted] at ran; exact execAdmitted_keeps ran
  | laneMap _ => rw [exec_laneMap] at ran; exact execLaneMap_keeps ran
  | laneSwitch _ => rw [exec_laneSwitch] at ran; exact execLaneSwitch_keeps ran
  | laneRetire _ _ => rw [exec_laneRetire] at ran; exact execLaneRetire_keeps ran
  | portSignalLoss _ => rw [exec_portSignalLoss] at ran; exact execPortSignalLoss_keeps ran
  | ackTimer _ => rw [exec_ackTimer] at ran; exact execAckTimer_keeps ran
  | creditTimer _ => rw [exec_creditTimer] at ran; exact execCreditTimer_keeps ran
  | timeSyncTimer _ _ => rw [exec_timeSyncTimer] at ran; exact execTimeSyncTimer_keeps ran
  | retrain _ _ _ => rw [exec_retrain] at ran; exact Keeps.regRow ran
  | retire _ _ => rw [exec_retire] at ran; exact Keeps.regRow ran
  | autoRetrain _ => rw [exec_autoRetrain] at ran; exact execAutoRetrain_keeps ran
  | replayDrainEnd _ => rw [exec_replayDrainEnd] at ran; exact execReplayDrainEnd_keeps ran
  | portTrainingComplete _ => rw [exec_portTrainingComplete] at ran; exact execPortTrainingComplete_keeps ran
  | portQualificationComplete _ _ => rw [exec_portQualificationComplete] at ran; exact execPortQualificationComplete_keeps ran
  | colPassDue _ _ => rw [exec_colPassDue] at ran; exact execColPassDue_keeps ran
  | contrib _ => rw [exec_contrib] at ran; exact execContrib_keeps ran
  | chunkClose _ _ _ => rw [exec_chunkClose] at ran; exact execChunkClose_keeps ran
  | result _ => rw [exec_result] at ran; exact execResult_keeps ran
  | roster _ => rw [exec_roster] at ran; exact execRoster_keeps ran
  | lateNotice _ => rw [exec_lateNotice] at ran; exact execLateNotice_keeps ran
  | chunkGiveUp _ _ _ => rw [exec_chunkGiveUp] at ran; exact execChunkGiveUp_keeps ran
  | freeze _ _ => rw [exec_freeze] at ran; exact Keeps.regRow ran
  | powerGood => rw [exec_powerGood] at ran; exact execPowerGood_keeps ran
  | controllerFirmware => rw [exec_controllerFirmware] at ran; exact execControllerFirmware_keeps ran
  | halfAlwaysOnPower _ => rw [exec_halfAlwaysOnPower] at ran; exact execHalfAlwaysOnPower_keeps ran
  | fuseMaps => rw [exec_fuseMaps] at ran; exact execFuseMaps_keeps ran
  | seamAndBridgeRepair _ => rw [exec_seamAndBridgeRepair] at ran; exact execSeamAndBridgeRepair_keeps ran
  | bist _ => rw [exec_bist] at ran; exact execBist_keeps ran
  | floorPlanMerge => rw [exec_floorPlanMerge] at ran; exact execFloorPlanMerge_keeps ran
  | linkTraining _ => rw [exec_linkTraining] at ran; exact execLinkTraining_keeps ran
  | refclk => rw [exec_refclk] at ran; exact execRefclk_keeps ran
  | errorRateQualification _ => rw [exec_errorRateQualification] at ran; exact execErrorRateQualification_keeps ran
  | publication => rw [exec_publication] at ran; exact execPublication_keeps ran
  | stageTimeout => rw [exec_stageTimeout] at ran; exact execStageTimeout_keeps ran
  | watchdogExpiry => rw [exec_watchdogExpiry] at ran; exact execWatchdogExpiry_keeps ran
  | activate _ => rw [exec_activate] at ran; exact Keeps.regRow ran
  | activationHealthy => rw [exec_activationHealthy] at ran; exact execActivationHealthy_keeps ran
  | activationTimeout => rw [exec_activationTimeout] at ran; exact execActivationTimeout_keeps ran
  | busbarShutdown => rw [exec_busbarShutdown] at ran; exact execBusbarShutdown_keeps ran
  | phaseFail _ _ => rw [exec_phaseFail] at ran; exact execPhaseFail_keeps ran
  | trip _ => rw [exec_trip] at ran; exact execTrip_keeps ran
  | blockReenable _ => rw [exec_blockReenable] at ran; exact execBlockReenable_keeps ran
  | dropMeasurement _ _ _ => rw [exec_dropMeasurement] at ran; exact execDropMeasurement_keeps ran
  | rampRecheck _ _ => rw [exec_rampRecheck] at ran; exact execRampRecheck_keeps ran
  | rampWaitLong _ => rw [exec_rampWaitLong] at ran; exact execRampWaitLong_keeps ran
  | rampComplete _ => rw [exec_rampComplete] at ran; exact execRampComplete_keeps ran
  | retentionEntry _ => rw [exec_retentionEntry] at ran; exact execRetentionEntry_keeps ran
  | retentionExit _ => rw [exec_retentionExit] at ran; exact execRetentionExit_keeps ran
  | darkRunKill _ => rw [exec_darkRunKill] at ran; exact execDarkRunKill_keeps ran
  | phase _ _ => rw [exec_phase] at ran; exact execPhase_keeps ran
  | budgetInterval _ => rw [exec_budgetInterval] at ran; exact execBudgetInterval_keeps ran
  | report _ _ => rw [exec_report] at ran; exact execReport_keeps ran
  | overBudgetReport _ _ _ => rw [exec_overBudgetReport] at ran; exact execOverBudgetReport_keeps ran
  | budget _ _ => rw [exec_budget] at ran; exact execBudget_keeps ran
  | dutySubperiod _ => rw [exec_dutySubperiod] at ran; exact execDutySubperiod_keeps ran
  | dutyHoldEnd _ => rw [exec_dutyHoldEnd] at ran; exact execDutyHoldEnd_keeps ran
  | hostCapW _ _ => rw [exec_hostCapW] at ran; exact Keeps.regRow ran
  | fmCapW _ _ => rw [exec_fmCapW] at ran; exact Keeps.regRow ran
  | floorRecompute _ => rw [exec_floorRecompute] at ran; exact execFloorRecompute_keeps ran
  | derate _ _ => rw [exec_derate] at ran; exact execDerate_keeps ran
  | heatOff _ => rw [exec_heatOff] at ran; exact execHeatOff_keeps ran
  | heatReturn _ => rw [exec_heatReturn] at ran; exact execHeatReturn_keeps ran
  | thermTrip _ => rw [exec_thermTrip] at ran; exact execThermTrip_keeps ran
  | thermTripRailOff _ => rw [exec_thermTripRailOff] at ran; exact execThermTripRailOff_keeps ran
  | iodHot _ => rw [exec_iodHot] at ran; exact execIodHot_keeps ran
  | iodCool _ => rw [exec_iodCool] at ran; exact execIodCool_keeps ran
  | iodTrip _ => rw [exec_iodTrip] at ran; exact execIodTrip_keeps ran
  | hbmHot _ => rw [exec_hbmHot] at ran; exact execHbmHot_keeps ran
  | coolantLoss => rw [exec_coolantLoss] at ran; exact execCoolantLoss_keeps ran
  | coolantRailCheck _ _ => rw [exec_coolantRailCheck] at ran; exact execCoolantRailCheck_keeps ran
  | coolantDepart => rw [exec_coolantDepart] at ran; exact execCoolantDepart_keeps ran
  | coolantReturn => rw [exec_coolantReturn] at ran; exact execCoolantReturn_keeps ran
  | moduleReset => rw [exec_moduleReset] at ran; exact execModuleReset_keeps ran
  | residueMismatch _ _ _ _ => rw [exec_residueMismatch] at ran; exact execResidueMismatch_keeps ran
  | tileDue _ => rw [exec_tileDue] at ran; exact execTileDue_keeps ran
  | tileOverdue _ => rw [exec_tileOverdue] at ran; exact execTileOverdue_keeps ran
  | tileLapsed _ => rw [exec_tileLapsed] at ran; exact execTileLapsed_keeps ran
  | idleRegionTest _ => rw [exec_idleRegionTest] at ran; exact execIdleRegionTest_keeps ran
  | fallowWindow _ _ => rw [exec_fallowWindow] at ran; exact execFallowWindow_keeps ran
  | iftComplete _ _ _ => rw [exec_iftComplete] at ran; exact execIftComplete_keeps ran
  | grant _ _ => rw [exec_grant] at ran; exact Keeps.regRow ran
  | testOverdue _ => rw [exec_testOverdue] at ran; exact Keeps.mcTest ran
  | testGrant _ _ => rw [exec_testGrant] at ran; exact execTestGrant_keeps ran
  | testDone _ _ => rw [exec_testDone] at ran; exact execTestDone_keeps ran
  | testLapsed _ => rw [exec_testLapsed] at ran; exact Keeps.mcTest ran
  | wireRetire _ => rw [exec_wireRetire] at ran; exact execWireRetire_keeps ran
  | doubleWireError _ => rw [exec_doubleWireError] at ran; exact execDoubleWireError_keeps ran
  | henPoll _ _ => rw [exec_henPoll] at ran; exact execHenPoll_keeps ran
  | ringSegmentFail _ => rw [exec_ringSegmentFail] at ran; exact execRingSegmentFail_keeps ran
  | controlCrossingFail _ => rw [exec_controlCrossingFail] at ran; exact execControlCrossingFail_keeps ran
  | mapPublication => rw [exec_mapPublication] at ran; exact execMapPublication_keeps ran
  | cperMergeRelease => rw [exec_cperMergeRelease] at ran; exact execCperMergeRelease_keeps ran
  | telemetrySwap _ _ => rw [exec_telemetrySwap] at ran; exact execTelemetrySwap_keeps ran
  | doorbell _ => rw [exec_doorbell] at ran; exact Keeps.regRow ran
  | fdlRead => rw [exec_fdlRead] at ran; exact execFdlRead_keeps ran
  | configRead => rw [exec_configRead] at ran; exact execConfigRead_keeps ran
  | configWrite => rw [exec_configWrite] at ran; exact execConfigWrite_keeps ran
  | fwWrite => rw [exec_fwWrite] at ran; exact execFwWrite_keeps ran
  | fwCommit => rw [exec_fwCommit] at ran; exact execFwCommit_keeps ran
  | keyBootstrap => rw [exec_keyBootstrap] at ran; exact execKeyBootstrap_keeps ran
  | ilv _ _ => rw [exec_ilv] at ran; exact Keeps.regRow ran
  | tail _ _ _ _ => rw [exec_tail] at ran; exact execTail_keeps ran
  | head _ _ _ => rw [exec_head] at ran; exact Keeps.regRow ran
  | enable _ _ _ _ => rw [exec_enable] at ran; exact Keeps.regRow ran
  | windowReg _ => rw [exec_windowReg] at ran; exact execWindowReg_keeps ran
  | windowUnreg _ => rw [exec_windowUnreg] at ran; exact execWindowUnreg_keeps ran
  | dmaH2d _ => rw [exec_dmaH2d] at ran; exact Keeps.dmaRow ran
  | dmaD2h _ => rw [exec_dmaD2h] at ran; exact Keeps.dmaRow ran
  | dmaComplete _ _ _ => rw [exec_dmaComplete] at ran; exact execDmaComplete_keeps ran
  | imageLoad _ _ => rw [exec_imageLoad] at ran; exact execImageLoad_keeps ran
  | imageLoadComplete _ => rw [exec_imageLoadComplete] at ran; exact execImageLoadComplete_keeps ran
  | runStart _ => rw [exec_runStart] at ran; exact execRunStart_keeps ran
  | runKill _ => rw [exec_runKill] at ran; exact execRunKill_keeps ran
  | handover _ => rw [exec_handover] at ran; exact execHandover_keeps ran
  | partCreate => rw [exec_partCreate] at ran; exact execPartCreate_keeps ran
  | partReset => rw [exec_partReset] at ran; exact Keeps.partCmd ran
  | partDestroy => rw [exec_partDestroy] at ran; exact Keeps.partCmd ran
  | flrVf _ => rw [exec_flrVf] at ran; exact execFlrVf_keeps ran
  | flrPf => rw [exec_flrPf] at ran; exact execFlrPf_keeps ran
  | perstFall => rw [exec_perstFall] at ran; exact execPerstFall_keeps ran
  | perstRise => rw [exec_perstRise] at ran; exact execPerstRise_keeps ran
  | certificateRetrieval _ => rw [exec_certificateRetrieval] at ran; exact execCertificateRetrieval_keeps ran
  | challenge _ => rw [exec_challenge] at ran; exact execChallenge_keeps ran
  | signedMeasurements _ => rw [exec_signedMeasurements] at ran; exact execSignedMeasurements_keeps ran
  | keyExchange _ _ => rw [exec_keyExchange] at ran; exact execKeyExchange_keeps ran
  | finish _ => rw [exec_finish] at ran; exact execFinish_keeps ran
  | heartbeat _ => rw [exec_heartbeat] at ran; exact execHeartbeat_keeps ran
  | keyUpdate _ => rw [exec_keyUpdate] at ran; exact execKeyUpdate_keeps ran
  | endSession _ => rw [exec_endSession] at ran; exact execEndSession_keeps ran
  | sessionTimeout _ => rw [exec_sessionTimeout] at ran; exact execSessionTimeout_keeps ran
  | bind _ _ _ => rw [exec_bind] at ran; exact execBind_keeps ran
  | unbind _ _ _ => rw [exec_unbind] at ran; exact execUnbind_keeps ran
  | keyEnroll _ _ _ _ _ => rw [exec_keyEnroll] at ran; exact execKeyEnroll_keeps ran
  | keyRemove _ _ => rw [exec_keyRemove] at ran; exact execKeyRemove_keeps ran
  | imageKeyEnroll _ _ _ => rw [exec_imageKeyEnroll] at ran; exact execImageKeyEnroll_keeps ran
  | imageKeyRemove _ _ => rw [exec_imageKeyRemove] at ran; exact execImageKeyRemove_keeps ran
  | registerWrite _ _ _ _ => rw [exec_registerWrite] at ran; exact execRegisterWrite_keeps ran
  | regionBeat _ => rw [exec_regionBeat] at ran; exact execRegionBeat_keeps ran
  | partitionSwapRequest _ _ => rw [exec_partitionSwapRequest] at ran; exact execPartitionSwapRequest_keeps ran
  | transitSwapRequest _ _ => rw [exec_transitSwapRequest] at ran; exact execTransitSwapRequest_keeps ran
  | perstNDelayEnd => rw [exec_perstNDelayEnd] at ran; exact execPerstNDelayEnd_keeps ran
  | dumpComplete _ _ => rw [exec_dumpComplete] at ran; exact execDumpComplete_keeps ran
  | hbmSoftRepairComplete _ _ _ _ => rw [exec_hbmSoftRepairComplete] at ran; exact execHbmSoftRepairComplete_keeps ran
  | stagingBlockTest _ _ => rw [exec_stagingBlockTest] at ran; exact execStagingBlockTest_keeps ran
  | hbmStackCool _ => rw [exec_hbmStackCool] at ran; exact execHbmStackCool_keeps ran
  | commandedShutdown => rw [exec_commandedShutdown] at ran; exact execCommandedShutdown_keeps ran
  | spdmRecoveryImage _ => rw [exec_spdmRecoveryImage] at ran; exact execSpdmRecoveryImage_keeps ran
  | negotiateAlgorithms _ => rw [exec_negotiateAlgorithms] at ran; exact execNegotiateAlgorithms_keeps ran
  | entdaa _ => rw [exec_entdaa] at ran; exact execEntdaa_keeps ran

end Sys2Proof.Machine
end

section
/-!
PROOFS. Commands and steps: a command runs one effect behind one check of the units it names (log entry 3), a step is the
front command on the rest of the queue (log entry 8), what every step keeps, and the state after reset.
-/
namespace Sys2Proof.Machine

/-! ## Every command is one effect behind one check -/

/-- Every command runs one effect where it is well formed, and faults otherwise. -/
theorem exec_shape (i : Instr) : Laws.Shape.Statement i := by
  cases i with
  | nop t => exact Laws.Shape.nop t
  | mov t => exact Laws.Shape.mov t
  | add t => exact Laws.Shape.add t
  | sub t => exact Laws.Shape.sub t
  | mul t => exact Laws.Shape.mul t
  | and t => exact Laws.Shape.and t
  | or t => exact Laws.Shape.or t
  | xor t => exact Laws.Shape.xor t
  | shl t => exact Laws.Shape.shl t
  | shr t => exact Laws.Shape.shr t
  | sra t => exact Laws.Shape.sra t
  | min t => exact Laws.Shape.min t
  | max t => exact Laws.Shape.max t
  | cmplt t => exact Laws.Shape.cmplt t
  | cmpeq t => exact Laws.Shape.cmpeq t
  | cmpltu t => exact Laws.Shape.cmpltu t
  | lds t => exact Laws.Shape.lds t
  | sts t => exact Laws.Shape.sts t
  | br t => exact Laws.Shape.br t
  | bz t => exact Laws.Shape.bz t
  | jmp t => exact Laws.Shape.jmp t
  | loop t => exact Laws.Shape.loop t
  | rdlc t => exact Laws.Shape.rdlc t
  | loopi t => exact Laws.Shape.loopi t
  | halt t => exact Laws.Shape.halt t
  | vadd t => exact Laws.Shape.vadd t
  | vsub t => exact Laws.Shape.vsub t
  | vmul t => exact Laws.Shape.vmul t
  | vfma t => exact Laws.Shape.vfma t
  | vmax t => exact Laws.Shape.vmax t
  | vmin t => exact Laws.Shape.vmin t
  | vabs t => exact Laws.Shape.vabs t
  | vneg t => exact Laws.Shape.vneg t
  | vbcst t => exact Laws.Shape.vbcst t
  | vcvtn t => exact Laws.Shape.vcvtn t
  | vcvtw t => exact Laws.Shape.vcvtw t
  | vexp2 t => exact Laws.Shape.vexp2 t
  | vrcp t => exact Laws.Shape.vrcp t
  | vrsq t => exact Laws.Shape.vrsq t
  | vsum t => exact Laws.Shape.vsum t
  | vld t => exact Laws.Shape.vld t
  | vst t => exact Laws.Shape.vst t
  | vnorm t => exact Laws.Shape.vnorm t
  | vsel t => exact Laws.Shape.vsel t
  | acfg t => exact Laws.Shape.acfg t
  | aloadb t => exact Laws.Shape.aloadb t
  | amul t => exact Laws.Shape.amul t
  | adrain t => exact Laws.Shape.adrain t
  | azero t => exact Laws.Shape.azero t
  | xout t => exact Laws.Shape.xout t
  | xin t => exact Laws.Shape.xin t
  | tarr t => exact Laws.Shape.tarr t
  | twait t => exact Laws.Shape.twait t
  | tsync t => exact Laws.Shape.tsync t
  | tphase t => exact Laws.Shape.tphase t
  | traise t => exact Laws.Shape.traise t
  | pipePendingStart t q => exact Laws.Shape.pipePendingStart t q
  | barrierTimeout t => exact Laws.Shape.barrierTimeout t
  | resumeIssue t => exact Laws.Shape.resumeIssue t
  | runStartBeat r => exact Laws.Shape.runStartBeat r
  | runComplete p => exact Laws.Shape.runComplete p
  | endBeat r => exact Laws.Shape.endBeat r
  | scrubComplete t => exact Laws.Shape.scrubComplete t
  | flush w q => exact Laws.Shape.flush w q
  | pop w q => exact Laws.Shape.pop w q
  | rtrStData w t v => exact Laws.Shape.rtrStData w t v
  | rtrPeriod w t v => exact Laws.Shape.rtrPeriod w t v
  | rtrSlack w t v => exact Laws.Shape.rtrSlack w t v
  | tOut w t v => exact Laws.Shape.tOut w t v
  | borderWordArrival t side kind => exact Laws.Shape.borderWordArrival t side kind
  | borderWordLate t side edge => exact Laws.Shape.borderWordLate t side edge
  | partitionSwapBeat r => exact Laws.Shape.partitionSwapBeat r
  | transitSwapBeat r => exact Laws.Shape.transitSwapBeat r
  | routerPlaneFeedLoss r => exact Laws.Shape.routerPlaneFeedLoss r
  | routerPlaneFeedReturn r own => exact Laws.Shape.routerPlaneFeedReturn r own
  | expressTokenInject n => exact Laws.Shape.expressTokenInject n
  | arrive r k => exact Laws.Shape.arrive r k
  | regionDone r k => exact Laws.Shape.regionDone r k
  | release t k => exact Laws.Shape.release t k
  | bellwetherElection p g => exact Laws.Shape.bellwetherElection p g
  | hold r k => exact Laws.Shape.hold r k
  | holdBeat r => exact Laws.Shape.holdBeat r
  | resume r k => exact Laws.Shape.resume r k
  | resumeBeat r => exact Laws.Shape.resumeBeat r
  | pSwap r k => exact Laws.Shape.pSwap r k
  | tSwap r k => exact Laws.Shape.tSwap r k
  | runStartToken r k => exact Laws.Shape.runStartToken r k
  | runStop r k => exact Laws.Shape.runStop r k
  | holdReq r k => exact Laws.Shape.holdReq r k
  | resumeReq r k => exact Laws.Shape.resumeReq r k
  | resumeAnnounce r => exact Laws.Shape.resumeAnnounce r
  | hostHold w r => exact Laws.Shape.hostHold w r
  | hostResume w r => exact Laws.Shape.hostResume w r
  | fmHold w r => exact Laws.Shape.fmHold w r
  | fmResume w r => exact Laws.Shape.fmResume w r
  | creditToken k => exact Laws.Shape.creditToken k
  | faultToken n k => exact Laws.Shape.faultToken n k
  | normPair r k => exact Laws.Shape.normPair r k
  | normEnd r k => exact Laws.Shape.normEnd r k
  | normRecordEmit p phase => exact Laws.Shape.normRecordEmit p phase
  | roosterTick dead amps => exact Laws.Shape.roosterTick dead amps
  | tickMiss r => exact Laws.Shape.tickMiss r
  | epochMark r => exact Laws.Shape.epochMark r
  | slipRecovered r => exact Laws.Shape.slipRecovered r
  | resync r => exact Laws.Shape.resync r
  | droopTrip r mv => exact Laws.Shape.droopTrip r mv
  | droopClear r => exact Laws.Shape.droopClear r
  | fChange => exact Laws.Shape.fChange
  | fixed w on => exact Laws.Shape.fixed w on
  | fixedMhz w mhz => exact Laws.Shape.fixedMhz w mhz
  | fixedClockApply => exact Laws.Shape.fixedClockApply
  | refLost => exact Laws.Shape.refLost
  | refRestored => exact Laws.Shape.refRestored
  | fabricLockLoss => exact Laws.Shape.fabricLockLoss
  | oxPassStart e sh ix => exact Laws.Shape.oxPassStart e sh ix
  | oxPassComplete e sh ix bad => exact Laws.Shape.oxPassComplete e sh ix bad
  | oxLatePoint e sh ix => exact Laws.Shape.oxLatePoint e sh ix
  | stagingMiss e ep => exact Laws.Shape.stagingMiss e ep
  | edgEstData w x v => exact Laws.Shape.edgEstData w x v
  | edgEstPort w x v => exact Laws.Shape.edgEstPort w x v
  | iraEstData w d v => exact Laws.Shape.iraEstData w d v
  | iraEstPort w d v => exact Laws.Shape.iraEstPort w d v
  | ringRead x bad => exact Laws.Shape.ringRead x bad
  | ringWrite x => exact Laws.Shape.ringWrite x
  | ringAtomic x bad => exact Laws.Shape.ringAtomic x bad
  | hbmEccPoll x reports => exact Laws.Shape.hbmEccPoll x reports
  | hbmChannelFail x c => exact Laws.Shape.hbmChannelFail x c
  | handoverComplete page => exact Laws.Shape.handoverComplete page
  | pageZeroingComplete page => exact Laws.Shape.pageZeroingComplete page
  | devId w v => exact Laws.Shape.devId w v
  | devidRewriteComplete => exact Laws.Shape.devidRewriteComplete
  | iraRoute w d v => exact Laws.Shape.iraRoute w d v
  | quiesce w d on => exact Laws.Shape.quiesce w d on
  | gmSelf w on => exact Laws.Shape.gmSelf w on
  | codewordReceived port lane frame errs flits => exact Laws.Shape.codewordReceived port lane frame errs flits
  | load port => exact Laws.Shape.load port
  | store port => exact Laws.Shape.store port
  | storeMasked port => exact Laws.Shape.storeMasked port
  | atomicSwap port => exact Laws.Shape.atomicSwap port
  | atomicCas port => exact Laws.Shape.atomicCas port
  | atomicAdd port => exact Laws.Shape.atomicAdd port
  | atomicAnd port => exact Laws.Shape.atomicAnd port
  | atomicOr port => exact Laws.Shape.atomicOr port
  | atomicXor port => exact Laws.Shape.atomicXor port
  | atomicMaxu port => exact Laws.Shape.atomicMaxu port
  | atomicMinu port => exact Laws.Shape.atomicMinu port
  | irantHandover port => exact Laws.Shape.irantHandover port
  | reclaim port => exact Laws.Shape.reclaim port
  | ctlRead port => exact Laws.Shape.ctlRead port
  | ctlWrite port => exact Laws.Shape.ctlWrite port
  | rsp port => exact Laws.Shape.rsp port
  | requestExpired port => exact Laws.Shape.requestExpired port
  | requestTimeout d tag => exact Laws.Shape.requestTimeout d tag
  | transitForward port => exact Laws.Shape.transitForward port
  | ack port => exact Laws.Shape.ack port
  | nak port => exact Laws.Shape.nak port
  | credit port => exact Laws.Shape.credit port
  | timeSync port t2 t3 => exact Laws.Shape.timeSync port t2 t3
  | timeResp port t4 => exact Laws.Shape.timeResp port t4
  | depart port => exact Laws.Shape.depart port
  | admitted port => exact Laws.Shape.admitted port
  | laneMap port => exact Laws.Shape.laneMap port
  | laneSwitch port => exact Laws.Shape.laneSwitch port
  | laneRetire port lane => exact Laws.Shape.laneRetire port lane
  | portSignalLoss port => exact Laws.Shape.portSignalLoss port
  | ackTimer port => exact Laws.Shape.ackTimer port
  | creditTimer port => exact Laws.Shape.creditTimer port
  | timeSyncTimer port t1 => exact Laws.Shape.timeSyncTimer port t1
  | retrain w d full => exact Laws.Shape.retrain w d full
  | retire w d => exact Laws.Shape.retire w d
  | autoRetrain port => exact Laws.Shape.autoRetrain port
  | replayDrainEnd port => exact Laws.Shape.replayDrainEnd port
  | portTrainingComplete trained => exact Laws.Shape.portTrainingComplete trained
  | portQualificationComplete port badLanes => exact Laws.Shape.portQualificationComplete port badLanes
  | colPassDue c ix => exact Laws.Shape.colPassDue c ix
  | contrib port => exact Laws.Shape.contrib port
  | chunkClose c seq ch => exact Laws.Shape.chunkClose c seq ch
  | result port => exact Laws.Shape.result port
  | roster port => exact Laws.Shape.roster port
  | lateNotice port => exact Laws.Shape.lateNotice port
  | chunkGiveUp c seq ch => exact Laws.Shape.chunkGiveUp c seq ch
  | freeze w on => exact Laws.Shape.freeze w on
  | powerGood => exact Laws.Shape.powerGood
  | controllerFirmware => exact Laws.Shape.controllerFirmware
  | halfAlwaysOnPower ok => exact Laws.Shape.halfAlwaysOnPower ok
  | fuseMaps => exact Laws.Shape.fuseMaps
  | seamAndBridgeRepair found => exact Laws.Shape.seamAndBridgeRepair found
  | bist found => exact Laws.Shape.bist found
  | floorPlanMerge => exact Laws.Shape.floorPlanMerge
  | linkTraining found => exact Laws.Shape.linkTraining found
  | refclk => exact Laws.Shape.refclk
  | errorRateQualification found => exact Laws.Shape.errorRateQualification found
  | publication => exact Laws.Shape.publication
  | stageTimeout => exact Laws.Shape.stageTimeout
  | watchdogExpiry => exact Laws.Shape.watchdogExpiry
  | activate w => exact Laws.Shape.activate w
  | activationHealthy => exact Laws.Shape.activationHealthy
  | activationTimeout => exact Laws.Shape.activationTimeout
  | busbarShutdown => exact Laws.Shape.busbarShutdown
  | phaseFail r ph => exact Laws.Shape.phaseFail r ph
  | trip r => exact Laws.Shape.trip r
  | blockReenable r => exact Laws.Shape.blockReenable r
  | dropMeasurement r drop load => exact Laws.Shape.dropMeasurement r drop load
  | rampRecheck r loaded => exact Laws.Shape.rampRecheck r loaded
  | rampWaitLong r => exact Laws.Shape.rampWaitLong r
  | rampComplete r => exact Laws.Shape.rampComplete r
  | retentionEntry r => exact Laws.Shape.retentionEntry r
  | retentionExit r => exact Laws.Shape.retentionExit r
  | darkRunKill r => exact Laws.Shape.darkRunKill r
  | phase r k => exact Laws.Shape.phase r k
  | budgetInterval m => exact Laws.Shape.budgetInterval m
  | report n k => exact Laws.Shape.report n k
  | overBudgetReport r amps m => exact Laws.Shape.overBudgetReport r amps m
  | budget r k => exact Laws.Shape.budget r k
  | dutySubperiod p => exact Laws.Shape.dutySubperiod p
  | dutyHoldEnd p => exact Laws.Shape.dutyHoldEnd p
  | hostCapW w watts => exact Laws.Shape.hostCapW w watts
  | fmCapW w watts => exact Laws.Shape.fmCapW w watts
  | floorRecompute m => exact Laws.Shape.floorRecompute m
  | derate r temp => exact Laws.Shape.derate r temp
  | heatOff r => exact Laws.Shape.heatOff r
  | heatReturn r => exact Laws.Shape.heatReturn r
  | thermTrip r => exact Laws.Shape.thermTrip r
  | thermTripRailOff r => exact Laws.Shape.thermTripRailOff r
  | iodHot d => exact Laws.Shape.iodHot d
  | iodCool d => exact Laws.Shape.iodCool d
  | iodTrip d => exact Laws.Shape.iodTrip d
  | hbmHot x => exact Laws.Shape.hbmHot x
  | coolantLoss => exact Laws.Shape.coolantLoss
  | coolantRailCheck westRose eastRose => exact Laws.Shape.coolantRailCheck westRose eastRose
  | coolantDepart => exact Laws.Shape.coolantDepart
  | coolantReturn => exact Laws.Shape.coolantReturn
  | moduleReset => exact Laws.Shape.moduleReset
  | residueMismatch t router unit residue => exact Laws.Shape.residueMismatch t router unit residue
  | tileDue t => exact Laws.Shape.tileDue t
  | tileOverdue t => exact Laws.Shape.tileOverdue t
  | tileLapsed t => exact Laws.Shape.tileLapsed t
  | idleRegionTest t => exact Laws.Shape.idleRegionTest t
  | fallowWindow r ix => exact Laws.Shape.fallowWindow r ix
  | iftComplete t o routerOk => exact Laws.Shape.iftComplete t o routerOk
  | grant w r => exact Laws.Shape.grant w r
  | testOverdue k => exact Laws.Shape.testOverdue k
  | testGrant r k => exact Laws.Shape.testGrant r k
  | testDone r k => exact Laws.Shape.testDone r k
  | testLapsed k => exact Laws.Shape.testLapsed k
  | wireRetire corrected => exact Laws.Shape.wireRetire corrected
  | doubleWireError wire => exact Laws.Shape.doubleWireError wire
  | henPoll r ok => exact Laws.Shape.henPoll r ok
  | ringSegmentFail seg => exact Laws.Shape.ringSegmentFail seg
  | controlCrossingFail south => exact Laws.Shape.controlCrossingFail south
  | mapPublication => exact Laws.Shape.mapPublication
  | cperMergeRelease => exact Laws.Shape.cperMergeRelease
  | telemetrySwap r m => exact Laws.Shape.telemetrySwap r m
  | doorbell w => exact Laws.Shape.doorbell w
  | fdlRead => exact Laws.Shape.fdlRead
  | configRead => exact Laws.Shape.configRead
  | configWrite => exact Laws.Shape.configWrite
  | fwWrite => exact Laws.Shape.fwWrite
  | fwCommit => exact Laws.Shape.fwCommit
  | keyBootstrap => exact Laws.Shape.keyBootstrap
  | ilv w on => exact Laws.Shape.ilv w on
  | tail w f tail host => exact Laws.Shape.tail w f tail host
  | head w f head => exact Laws.Shape.head w f head
  | enable w f cq on => exact Laws.Shape.enable w f cq on
  | windowReg f => exact Laws.Shape.windowReg f
  | windowUnreg f => exact Laws.Shape.windowUnreg f
  | dmaH2d f => exact Laws.Shape.dmaH2d f
  | dmaD2h f => exact Laws.Shape.dmaD2h f
  | dmaComplete f cid host => exact Laws.Shape.dmaComplete f cid host
  | imageLoad f img => exact Laws.Shape.imageLoad f img
  | imageLoadComplete p => exact Laws.Shape.imageLoadComplete p
  | runStart f => exact Laws.Shape.runStart f
  | runKill f => exact Laws.Shape.runKill f
  | handover f => exact Laws.Shape.handover f
  | partCreate => exact Laws.Shape.partCreate
  | partReset => exact Laws.Shape.partReset
  | partDestroy => exact Laws.Shape.partDestroy
  | flrVf f => exact Laws.Shape.flrVf f
  | flrPf => exact Laws.Shape.flrPf
  | perstFall => exact Laws.Shape.perstFall
  | perstRise => exact Laws.Shape.perstRise
  | certificateRetrieval slot => exact Laws.Shape.certificateRetrieval slot
  | challenge nonce => exact Laws.Shape.challenge nonce
  | signedMeasurements slot => exact Laws.Shape.signedMeasurements slot
  | keyExchange sess key => exact Laws.Shape.keyExchange sess key
  | finish sess => exact Laws.Shape.finish sess
  | heartbeat sess => exact Laws.Shape.heartbeat sess
  | keyUpdate sess => exact Laws.Shape.keyUpdate sess
  | endSession sess => exact Laws.Shape.endSession sess
  | sessionTimeout sess => exact Laws.Shape.sessionTimeout sess
  | bind sess f fabric => exact Laws.Shape.bind sess f fabric
  | unbind sess f fabric => exact Laws.Shape.unbind sess f fabric
  | keyEnroll sess slot key role mask => exact Laws.Shape.keyEnroll sess slot key role mask
  | keyRemove sess slot => exact Laws.Shape.keyRemove sess slot
  | imageKeyEnroll sess slot key => exact Laws.Shape.imageKeyEnroll sess slot key
  | imageKeyRemove sess slot => exact Laws.Shape.imageKeyRemove sess slot
  | registerWrite w addr size v => exact Laws.Shape.registerWrite w addr size v
  | regionBeat r => exact Laws.Shape.regionBeat r
  | partitionSwapRequest p beat => exact Laws.Shape.partitionSwapRequest p beat
  | transitSwapRequest regions beat => exact Laws.Shape.transitSwapRequest regions beat
  | perstNDelayEnd => exact Laws.Shape.perstNDelayEnd
  | dumpComplete t ok => exact Laws.Shape.dumpComplete t ok
  | hbmSoftRepairComplete x c bank row => exact Laws.Shape.hbmSoftRepairComplete x c bank row
  | stagingBlockTest e ok => exact Laws.Shape.stagingBlockTest e ok
  | hbmStackCool x => exact Laws.Shape.hbmStackCool x
  | commandedShutdown => exact Laws.Shape.commandedShutdown
  | spdmRecoveryImage fw => exact Laws.Shape.spdmRecoveryImage fw
  | negotiateAlgorithms offer => exact Laws.Shape.negotiateAlgorithms offer
  | entdaa address => exact Laws.Shape.entdaa address

theorem exec_of_wellFormed {i : Instr} (ok : wellFormed i = true) (s : State) : ∃ t, exec i s = .next t := by
  obtain ⟨f, shape⟩ := exec_shape i s
  exact ⟨f s, by rw [shape, onUnit_of ok]⟩

theorem exec_of_illFormed {i : Instr} (bad : wellFormed i = false) (s : State) : exec i s = .fault .noSuchUnit := by
  obtain ⟨f, shape⟩ := exec_shape i s
  rw [shape, bad]
  rfl

/-- Settles O3: a command has the shape of one effect behind one check of the units that it names. -/
theorem wellFormedRuns : Obligations.WellFormedRuns := fun _ s =>
  ⟨fun ok => exec_of_wellFormed ok s, fun bad => exec_of_illFormed bad s⟩

/-! ## A step -/

theorem step_of_pending {s : State} {c : Instr} {rest : List Instr} (queue : s.pending = c :: rest) :
    step s = exec c (s.withQueue rest) := by
  unfold step
  split
  · next empty => cases queue.symm.trans empty
  · next same => cases queue.symm.trans same; rfl

theorem step_of_idle {s : State} (queue : s.pending = []) : step s = .next s := by
  unfold step
  split
  · rfl
  · next busy => cases queue.symm.trans busy

/-- Settles O1. -/
theorem stepRunsFront : Obligations.StepRunsFront := fun _ _ _ queue => step_of_pending queue

/-- Settles O2. -/
theorem idleStep : Obligations.IdleStep := fun _ queue => step_of_idle queue

/-- A step keeps what its command keeps of the state with the queue's rest. -/
theorem step_keeps {s t : State} (ran : step s = .next t) : Keeps (s.withQueue s.pending.tail) t := by
  cases queue : s.pending with
  | nil =>
    rw [step_of_idle queue] at ran
    cases ran
    rw [List.tail_nil, ← queue]
    exact .refl s
  | cons c rest =>
    rw [step_of_pending queue] at ran
    exact exec_keeps ran

/-- Settles O4: every command keeps the log, the fuses, the queue it was taken from and both memories' form. -/
theorem everyStepKeeps : Obligations.EveryStepKeeps := by
  intro s t wf ran
  have kept := step_keeps ran
  exact ⟨⟨kept.hbm wf.1, kept.host wf.2⟩, kept.log, kept.fuses, kept.queue⟩

/-! ## Reset -/

/-- Settles O5: each field at reset is its default. -/
theorem resetState : Obligations.ResetState := by
  have empty : Memory.wf [] := ⟨List.Pairwise.nil, fun _ member => nomatch member⟩
  refine ⟨⟨empty, empty⟩, rfl, rfl, rfl, rfl, fun _ => ⟨rfl, rfl, fun k => ?_, fun _ => rfl⟩, fun _ => rfl, fun _ => rfl,
    fun _ => rfl⟩
  exact ite_self 0

end Sys2Proof.Machine
end

section
/-!
PROOFS. The scalar class (R52 to R54): what each word that passes its checks makes of its tile.
-/
namespace Sys2Proof.Machine

/-! ## Words that pass their checks (R418) -/

@[simp] theorem firstFault_nil : firstFault [] = none := rfl

section
variable {w : Dword} (ok : scalarOk w = true)
include ok

theorem firstFault_scalarChecks (sela : Bool) (x : Tile) : firstFault (scalarChecks sela w x) = none := by
  simp [scalarChecks, ok]

theorem firstFault_jumpChecks (near : sTgt w < 6144) (sela : Bool) (x : Tile) :
    firstFault (jumpChecks sela w x) = none := by
  simp [jumpChecks, ok, near]

theorem firstFault_memChecks {x : Tile} (aligned : wordAddr x w % 4 = 0) (near : wordAddr x w < 393216) (sela : Bool) :
    firstFault (memChecks sela w x) = none := by
  simp [memChecks, ok, aligned, near]

theorem firstFault_loopChecks {x : Tile} {count : Tile → Dword → Nat} (after : x.pc < sTgt w) (near : sTgt w < 6144)
    (inside : ∀ l ∈ x.loops, sTgt w ≤ l.stop) (room : count x w = 0 ∨ x.loops.length < 4) (sela : Bool) :
    firstFault (loopChecks count sela w x) = none := by
  have all : (x.loops.all fun l => decide (sTgt w ≤ l.stop)) = true := by simpa using inside
  have free : (decide (count x w = 0) || decide (x.loops.length < 4)) = true := by simpa using room
  simp only [loopChecks, ok, after, near, all, free, decide_true, Bool.and_self, Bool.or_true, firstFault_pass,
    firstFault_nil]

end

/-- A word that writes one result and goes on in sequence. -/
theorem later_advance (x : Tile) (lat : Nat) (a : Act) : (x.later lat a).advance 1 = x.wrote lat a := rfl

/-! ## Operations of two operands (R52) -/

theorem aluWord_run {s u : State} {n op lat : Nat} {w : Dword} (issued : Issuing s n w u) (row : isRow 0 op = true)
    (cls : wCls w = 0) (opcode : wOp w = op) (ok : scalarOk w = true) (f : Word → Word → Word) :
    aluWord op lat f n s = .next (u.setTile n ((u.tile n).wrote lat
      (.sreg (sSd w) (f ((u.tile n).sreg (sSa w)) (opB (u.tile n) w))))) := by
  rw [aluWord, issueTile_run issued row cls opcode (firstFault_scalarChecks ok _ _), later_advance]

theorem shift_amount (b : Word) : bits b 4 0 = b.toNat % 32 := by
  simp [bits, BitVec.extractLsb'_toNat]

theorem flagWord_eq (p : Prop) [Decidable p] : flagWord (decide p) = if p then 1 else 0 := by
  by_cases h : p <;> simp [flagWord, h]

/-- Each row of R52 is the scalar word of its opcode, latency and function. -/
theorem exec_aluRow : ∀ row ∈ aluRows, isRow 0 row.op = true ∧
    ∀ (n : Nat) (s : State), exec (row.cmd n) s = aluWord row.op row.lat row.f n s := by
  have byFunction {op lat : Nat} {f g : Word → Word → Word} (same : ∀ a b, f a b = g a b) (n : Nat) (s : State) :
      aluWord op lat f n s = aluWord op lat g n s := by
    rw [funext fun a => funext fun b => same a b]
  simp only [aluRows, List.forall_mem_cons]
  refine ⟨⟨rfl, exec_mov⟩, ⟨rfl, exec_add⟩, ⟨rfl, exec_sub⟩, ⟨rfl, exec_mul⟩, ⟨rfl, exec_and⟩, ⟨rfl, exec_or⟩,
    ⟨rfl, exec_xor⟩, ⟨rfl, fun n s => (exec_shl n s).trans (byFunction (fun a b => ?shl) n s)⟩,
    ⟨rfl, fun n s => (exec_shr n s).trans (byFunction (fun a b => ?shr) n s)⟩,
    ⟨rfl, fun n s => (exec_sra n s).trans (byFunction (fun a b => ?sra) n s)⟩,
    ⟨rfl, fun n s => (exec_min n s).trans (byFunction (fun a b => ?min) n s)⟩,
    ⟨rfl, fun n s => (exec_max n s).trans (byFunction (fun a b => ?max) n s)⟩,
    ⟨rfl, fun n s => (exec_cmplt n s).trans (byFunction (fun a b => ?cmplt) n s)⟩,
    ⟨rfl, fun n s => (exec_cmpeq n s).trans (byFunction (fun a b => ?cmpeq) n s)⟩,
    ⟨rfl, fun n s => (exec_cmpltu n s).trans (byFunction (fun a b => ?cmpltu) n s)⟩, fun _ none => nomatch none⟩
  case shl | shr | sra => rw [shift_amount]
  case min | max => simp only [BitVec.slt_iff_toInt_lt]
  case cmplt => exact flagWord_eq _
  case cmpeq => simp [flagWord]
  case cmpltu => exact flagWord_eq _

/-- Settles O6: every row is the scalar word of R52, whose checks a well-formed word passes. -/
theorem aluWords : Obligations.AluWords := by
  intro row member s u n w issued cls opcode ok
  obtain ⟨isRow, runs⟩ := exec_aluRow row member
  rw [runs, aluWord_run issued isRow cls opcode ok]

/-! ## The zero register (R52) -/

theorem sreg_land_sreg {x0 x : Tile} {p : Pend} {d : Nat} {v : Word} (act : p.act = .sreg d v) (k : Nat) :
    (Tile.land x0 x p).sreg k = if k = 0 then 0 else if k = d then v else x.sreg k := by
  unfold Tile.land Tile.sreg
  rw [act]
  by_cases zero : k = 0
  · simp [zero]
  · by_cases dest : d = 0
    · simp [dest, zero]
    · simp [dest, zero, eq_comm]

/-- Settles O7. -/
theorem zeroRegister : Obligations.ZeroRegister := fun _ _ _ _ k _ act => sreg_land_sreg act k

/-! ## The sequencer (R53) -/

/-- Settles O8: each word passes its checks, and its effect is the one R53 gives. -/
theorem sequencerWords : Obligations.SequencerWords := by
  intro s u n w issued cls ok
  have checked := firstFault_scalarChecks ok (u.sela (regionOf n)) (u.tile n)
  have inRange := fun near => firstFault_jumpChecks ok near (u.sela (regionOf n)) (u.tile n)
  refine ⟨fun op => ?nop, fun op => ?rdlc, fun op => ?halt, fun op near => ?br, fun op near => ?bz, fun op near => ?jmp⟩
  case nop => exact (exec_nop n s).trans <| issueTile_run issued rfl cls op checked
  case rdlc =>
    rw [exec_rdlc, execRdlc, issueTile_run issued rfl cls op checked, later_advance]
    cases (u.tile n).loops <;> rfl
  case halt => exact (exec_halt n s).trans <| issueTile_run issued rfl cls op checked
  case br =>
    rw [exec_br, execBr, issueTile_run issued rfl cls op (inRange near)]
    simp only [ne_eq, ite_not]
  case bz => rw [exec_bz, execBz, issueTile_run issued rfl cls op (inRange near)]
  case jmp => rw [exec_jmp, execJmp, issueTile_run issued rfl cls op (inRange near)]

theorem startLoop_of_pos {k : Nat} (pos : 0 < k) (w : Dword) (x : Tile) : startLoop k w x = { x with
    pc := x.pc + 1, nextIssue := x.beat + 1
    loops := { start := x.pc, stop := sTgt w, left := k, index := 0 } :: x.loops } := if_neg (by omega)

/-- Settles O9: LOOP and LOOPI differ only in where the iteration count comes from. -/
theorem loopWords : Obligations.LoopWords := by
  intro s u n w issued cls ok after near inside i k which
  have runs : (k = 0 ∨ (u.tile n).loops.length < 4) → exec i s = .next (u.setTile n (startLoop k w (u.tile n))) := by
    intro room
    rcases which with ⟨rfl, op, rfl⟩ | ⟨rfl, op, rfl⟩
    · rw [exec_loop, execLoop]
      exact issueTile_run issued rfl cls op (firstFault_loopChecks ok after near inside room _)
    · rw [exec_loopi, execLoopi]
      exact issueTile_run issued rfl cls op (firstFault_loopChecks ok after near inside room _)
  refine ⟨fun pos few => ?_, fun none => ?_⟩
  · rw [runs (.inr few), startLoop_of_pos pos]
  · rw [runs (.inl none), none]
    rfl

/-! ## Scalar memory words (R44, R111, R112) -/

theorem getLsbD_ff_shift (k i : Nat) (hi : i < 512) : (0xFF#512 <<< (8 * k)).getLsbD i = decide (i / 8 = k) := by
  have ones : ∀ j, (0xFF#512).getLsbD j = decide (j < 8) := fun j => by
    rw [show (0xFF : Nat) = 2 ^ 8 - 1 from rfl, BitVec.getLsbD_ofNat, Nat.testBit_two_pow_sub_one]
    by_cases h : j < 8
    · simp [h]; omega
    · simp [h]
  rw [BitVec.getLsbD_shiftLeft, ones, Bool.eq_iff_iff]
  simp only [hi, decide_true, Bool.true_and, Bool.and_eq_true, Bool.not_eq_true', decide_eq_false_iff_not, decide_eq_true_eq]
  omega

theorem getLsbD_maskFold (m : BitVec 64) (l : List Nat) (a : Line) (i : Nat) (hi : i < 512) :
    (l.foldl (fun a k => if m.getLsbD k then a ||| (0xFF#512 <<< (8 * k)) else a) a).getLsbD i =
      (a.getLsbD i || (decide (i / 8 ∈ l) && m.getLsbD (i / 8))) := by
  induction l generalizing a with
  | nil => simp
  | cons k l ih =>
    rw [List.foldl_cons, ih]
    have bit : (if m.getLsbD k then a ||| (0xFF#512 <<< (8 * k)) else a).getLsbD i =
        (a.getLsbD i || (decide (i / 8 = k) && m.getLsbD (i / 8))) := by
      by_cases here : i / 8 = k
      · subst here
        cases m.getLsbD (i / 8) <;> simp [getLsbD_ff_shift _ _ hi]
      · cases m.getLsbD k <;> simp [getLsbD_ff_shift _ _ hi, here]
    rw [bit]
    simp only [List.mem_cons, Bool.decide_or, Bool.and_or_distrib_right, Bool.or_assoc]

theorem getLsbD_byteMask (m : BitVec 64) (i : Nat) (hi : i < 512) : (byteMask m).getLsbD i = m.getLsbD (i / 8) := by
  rw [byteMask, getLsbD_maskFold m _ _ i hi]
  simp [show i / 8 < 64 by omega]

/-- A write under a mask changes the bytes it selects and no other (R112). -/
theorem lineByte_mergeLine (old new : Line) (m : BitVec 64) (j : Nat) (hj : j < 64) :
    lineByte (mergeLine old new m) j = if m.getLsbD j then lineByte new j else lineByte old j := by
  unfold mergeLine
  split
  · next all => rw [all, if_pos (by rw [BitVec.getLsbD_allOnes]; simpa using hj)]
  · refine BitVec.eq_of_getLsbD_eq fun k hk => ?_
    have place : (8 * j + k) / 8 = j := by omega
    have mask := getLsbD_byteMask m (8 * j + k) (by omega)
    rw [place] at mask
    have inLine : 8 * j + k < 512 := by omega
    cases bit : m.getLsbD j <;>
      simp only [lineByte, BitVec.getLsbD_extractLsb', BitVec.getLsbD_or, BitVec.getLsbD_and, BitVec.getLsbD_not, mask,
        bit, hk, inLine, decide_true, Bool.true_and, Bool.not_false, Bool.not_true, Bool.and_true, Bool.and_false,
        Bool.or_false, Bool.false_or, Bool.false_eq_true, if_true, if_false]

theorem sp_landLine (x : Tile) (l c : Nat) (m : BitVec 64) (v : Line) (l2 : Nat) :
    (x.landLine l c m v).sp.look 0 l2 = if l = l2 then mergeLine (x.sp.look 0 l) v m else x.sp.look 0 l2 :=
  Tab.look_put 0 x.sp l l2 (mergeLine (x.sp.look 0 l) v m)

theorem lineByte_landLine (x : Tile) (l c : Nat) (m : BitVec 64) (v : Line) (l2 j : Nat) (hj : j < 64) :
    lineByte ((x.landLine l c m v).sp.look 0 l2) j =
      if l2 = l ∧ m.getLsbD j = true then lineByte v j else lineByte (x.sp.look 0 l2) j := by
  rw [sp_landLine]
  by_cases same : l2 = l
  · subst same
    rw [if_pos rfl, lineByte_mergeLine _ _ _ _ hj]
    simp
  · simp [same, Ne.symm same]

/-- Settles O10: the words pass the checks of R54, a delivered line becomes a pending write of its four bytes, and a landing
line changes what its mask selects. -/
theorem scratchWords : Obligations.ScratchWords := by
  refine ⟨fun s u n w issued cls ok x a hx ha aligned near => ?words, fun x q v d o dest => ?delivered,
    fun x0 x p l c m v act l2 j hj => ?landed⟩
  case words =>
    subst hx ha
    have checked := firstFault_memChecks ok aligned near (u.sela (regionOf n))
    refine ⟨fun op => ?_, fun op => ?_⟩
    · rw [exec_lds, execLds, issueTile_run issued rfl cls op checked]
      rfl
    · rw [exec_sts, execSts, issueTile_run issued rfl cls op checked]
      rfl
  case delivered =>
    unfold Tile.deliver
    rw [dest]
  case landed =>
    have lands : Tile.land x0 x p = x.landLine l c m v := by
      unfold Tile.land
      rw [act]
    rw [lands, lineByte_landLine x l c m v l2 j hj]

end Sys2Proof.Machine
end

section
/-!
PROOFS. The vector class (R56 to R58, R95 to R97): the lanes of what each word computes, the conversions, and the vector
memory words with their pipe.
-/
namespace Sys2Proof.Machine

theorem firstFault_vectorChecks {w : Dword} (ok : vectorOk w = true) (sela : Bool) (x : Tile) :
    firstFault (vectorChecks sela w x) = none := by
  simp [vectorChecks, ok]

theorem vecWord_run {s u : State} {n op lat : Nat} {w : Dword} (issued : Issuing s n w u) (row : isRow 1 op = true)
    (cls : wCls w = 1) (opcode : wOp w = op) (ok : vectorOk w = true) (f : Dword → Tile → VReg) :
    vecWord op lat f n s = .next (u.setTile n ((u.tile n).wrote lat (.vreg (vVd w) (f w (u.tile n))))) := by
  rw [vecWord, issueTile_run issued row cls opcode (firstFault_vectorChecks ok _ _), later_advance]

/-! ## Lane by lane (R95 to R97) -/

section
variable (w : Dword) (x : Tile) {j : Nat} (hj : j < 64)
include hj

theorem getElem?_lanes (v : VReg) : (lanes v)[j]? = some (lane v j) := by
  rw [lanes, List.getElem?_map, List.getElem?_range hj, Option.map_some]

theorem lane_lanes1 (f : Word → Word) : lane (lanes1 f w x) j = f (lane (x.vreg (vVa w)) j) := by
  rw [lanes1, lane_ofLanes _ j hj, List.getD_eq_getElem?_getD, List.getElem?_map, getElem?_lanes hj]
  rfl

theorem lane_lanes2 (ff fi : Word → Word → Word) : lane (lanes2 ff fi w x) j =
    byFmt w (ff (lane (x.vreg (vVa w)) j) (lane (x.vreg (vVb w)) j))
      (fi (lane (x.vreg (vVa w)) j) (lane (x.vreg (vVb w)) j)) := by
  rw [lanes2, lane_ofLanes _ j hj, List.getD_eq_getElem?_getD, List.getElem?_zipWith, getElem?_lanes hj,
    getElem?_lanes hj, byFmt]
  by_cases int : vFmt w = 6 <;> simp only [int, if_true, if_false, Option.getD_some]

theorem lane_lanes3 (f : Word → Word → Word → Word) : lane (lanes3 f w x) j =
    f (lane (x.vreg (vVa w)) j) (lane (x.vreg (vVb w)) j) (lane (x.vreg (vVc w)) j) := by
  rw [lanes3, lane_ofLanes _ j hj, List.getD_eq_getElem?_getD, List.getElem?_map, List.getElem?_range hj]
  rfl

theorem lane_replicate (v : Word) : lane (ofLanes (List.replicate 64 v)) j = v := by
  rw [lane_ofLanes _ j hj, List.getD_eq_getElem?_getD, List.getElem?_replicate, if_pos hj]
  rfl

end

/-- The absolute value of an INT32 lane, by its sign bit. -/
theorem natAbs_word (a : Word) : BitVec.ofNat 32 a.toInt.natAbs = if a.getLsbD 31 then -a else a := by
  have sign : a.getLsbD 31 = decide (2 ^ 31 ≤ a.toNat) := by
    rw [← BitVec.msb_eq_getLsbD_last, BitVec.msb_eq_decide]
  have bound := a.isLt
  apply BitVec.eq_of_toNat_eq
  rw [sign, BitVec.toNat_ofNat, BitVec.toInt_eq_toNat_cond]
  by_cases neg : 2 ^ 31 ≤ a.toNat
  · rw [if_neg (by omega), if_pos (by simpa using neg), BitVec.toNat_neg]
    omega
  · rw [if_pos (by omega), if_neg (by simpa using neg)]
    omega

/-- A row of R95 to R97 is a vector word whose lanes are the row's. -/
def LaneRow.Computed (row : LaneRow) : Prop :=
  isRow 1 row.op = true ∧ ∃ g : Dword → Tile → VReg, (∀ n s, exec (row.cmd n) s = vecWord row.op row.lat g n s) ∧
    ∀ w x j, j < 64 → lane (g w x) j = row.f w x j

theorem laneRows_computed : ∀ row ∈ laneRows, row.Computed := by
  have max {a b : Word} : (if a.slt b then b else a) = if a.toInt < b.toInt then b else a := by
    simp only [BitVec.slt_iff_toInt_lt]
  have min {a b : Word} : (if a.slt b then a else b) = if a.toInt < b.toInt then a else b := by
    simp only [BitVec.slt_iff_toInt_lt]
  simp only [laneRows, List.forall_mem_cons]
  refine ⟨⟨rfl, _, exec_vadd, fun w x j hj => lane_lanes2 w x hj _ _⟩,
    ⟨rfl, _, exec_vsub, fun w x j hj => lane_lanes2 w x hj _ _⟩,
    ⟨rfl, _, exec_vmul, fun w x j hj => lane_lanes2 w x hj _ _⟩,
    ⟨rfl, _, exec_vfma, fun w x j hj => lane_lanes3 w x hj _⟩,
    ⟨rfl, _, exec_vmax, fun w x j hj => (lane_lanes2 w x hj _ _).trans (congrArg _ max)⟩,
    ⟨rfl, _, exec_vmin, fun w x j hj => (lane_lanes2 w x hj _ _).trans (congrArg _ min)⟩,
    ⟨rfl, _, exec_vabs, fun w x j hj => (lane_lanes1 w x hj _).trans ?abs⟩,
    ⟨rfl, _, exec_vneg, fun w x j hj => lane_lanes1 w x hj _⟩,
    ⟨rfl, _, exec_vbcst, fun w x j hj => lane_replicate hj _⟩,
    ⟨rfl, _, exec_vexp2, fun w x j hj => lane_lanes1 w x hj _⟩,
    ⟨rfl, _, exec_vrcp, fun w x j hj => lane_lanes1 w x hj _⟩,
    ⟨rfl, _, exec_vrsq, fun w x j hj => lane_lanes1 w x hj _⟩,
    ⟨rfl, _, exec_vsum, fun w x j _ => lane_setWidth _ j⟩,
    ⟨rfl, _, exec_vsel, fun w x j hj => lane_lanes3 w x hj _⟩, fun _ none => nomatch none⟩
  case abs =>
    dsimp only
    rw [byFmt, natAbs_word]

/-- Settles O13: every row is a vector word that computes its lanes. -/
theorem laneWords : Obligations.LaneWords := by
  intro row member s u n w issued cls opcode ok
  obtain ⟨isRow, g, runs, lanes⟩ := laneRows_computed row member
  exact ⟨g w (u.tile n), by rw [runs, vecWord_run issued isRow cls opcode ok], lanes w (u.tile n)⟩

/-! ## Conversions (R58) -/

/-- Settles O14: VCVTN draws for RND 2 alone. -/
theorem convertWords : Obligations.ConvertWords := by
  intro s u n w issued cls ok
  have checked := firstFault_vectorChecks ok (u.sela (regionOf n)) (u.tile n)
  refine ⟨fun op => ⟨fun drawless => ?_, fun drawing => ?_⟩, fun op => ?_⟩
  · rw [exec_vcvtn, execVcvtn, issueTile_run issued rfl cls op checked]
    simp only [drawless, if_false, later_advance]
  · rw [exec_vcvtn, execVcvtn, issueTile_run issued rfl cls op checked]
    simp only [drawing, if_true, later_advance]
  · rw [exec_vcvtw, execVcvtw, vecWord_run issued rfl cls op ok]

/-! ## Vector memory words (R56, R57, R97) -/

theorem firstFault_vmemChecks {w : Dword} (ok : vectorOk w = true) {x : Tile} (near : vecLine x w + 3 < 6144)
    (room : x.vmem.full x.beat = false) (sela : Bool) : firstFault (vmemChecks sela w x) = none := by
  simp [vmemChecks, ok, near, room]

theorem firstFault_vmemChecks_of_far {w : Dword} (ok : vectorOk w = true) {x : Tile} (far : 6144 ≤ vecLine x w + 3)
    (sela : Bool) : firstFault (vmemChecks sela w x) = some cAddrRange := by
  have out : ¬ vecLine x w + 3 < 6144 := by omega
  simp [vmemChecks, ok, out]

theorem firstFault_vmemChecks_of_full {w : Dword} (ok : vectorOk w = true) {x : Tile} (near : vecLine x w + 3 < 6144)
    (full : x.vmem.full x.beat = true) (sela : Bool) : firstFault (vmemChecks sela w x) = some cPipeOverrun := by
  simp [vmemChecks, ok, near, full]

/-- Settles O15: VNORM, VLD and VST as issued, a delivered quarter of a register, and a landing norm update. -/
theorem vectorMemoryWords : Obligations.VectorMemoryWords := by
  refine ⟨fun s u n w x issued cls ok hx => ⟨fun op => ?norm, fun l hl => ⟨fun near room b hb => ?go, fun far => ?far,
    fun near full => ?full⟩⟩, fun x q v d k b dest => ?delivered, fun x0 x p t k v act => ?landed⟩
  case norm =>
    subst hx
    rw [exec_vnorm, execVnorm, issueTile_run issued rfl cls op (firstFault_vectorChecks ok _ _)]
    rfl
  case go =>
    subst hx hl hb
    have checked := firstFault_vmemChecks ok near room (u.sela (regionOf n))
    refine ⟨fun op => ?_, fun op => ?_⟩
    · rw [exec_vld, execVld, issueTile_run issued rfl cls op checked]
      rfl
    · rw [exec_vst, execVst, issueTile_run issued rfl cls op checked]
      rfl
  case far =>
    subst hx hl
    have faults := firstFault_vmemChecks_of_far ok far (u.sela (regionOf n))
    refine ⟨fun op => ?_, fun op => ?_⟩
    · rw [exec_vld, execVld, issueTile_fault issued rfl cls op faults]
    · rw [exec_vst, execVst, issueTile_fault issued rfl cls op faults]
  case full =>
    subst hx hl
    have faults := firstFault_vmemChecks_of_full ok near full (u.sela (regionOf n))
    refine ⟨fun op => ?_, fun op => ?_⟩
    · rw [exec_vld, execVld, issueTile_fault issued rfl cls op faults]
    · rw [exec_vst, execVst, issueTile_fault issued rfl cls op faults]
  case delivered =>
    unfold Tile.deliver
    rw [dest]
  case landed =>
    unfold Tile.land
    rw [act]
    simp only [List.contains_iff_mem]

end Sys2Proof.Machine
end

section
/-!
PROOFS. The array class (R60 to R66) and the transfer class (R50, R70): the order of the checks (R418), what a word that
passes them adds to its tile, and what an AMUL row leaves in the accumulators.
-/
namespace Sys2Proof.Machine

/-! ## Array words -/

/-- Columns of terms accumulated into neighbouring members from `base` on, each on its old value. -/
theorem look_accumulated (ovr : Bool) (old : Nat → Word) (base k : Nat) (ts : List (List Term)) (t : Tab Word) (j : Nat) :
    (((List.range' k ts.length).zip ts).foldl (fun a p => a.put 0 (base + p.1) (accumulate ovr (old (base + p.1)) p.2))
      t).look 0 j =
      if base + k ≤ j ∧ j < base + k + ts.length then accumulate ovr (old j) (ts.getD (j - (base + k)) []) else t.look 0 j := by
  induction ts generalizing k t with
  | nil =>
    rw [if_neg (by simp)]
    rfl
  | cons c ts ih =>
    rw [List.length_cons, List.range'_succ, List.zip_cons_cons, List.foldl_cons, ih, Tab.look_put]
    by_cases here : base + k = j
    · subst here
      rw [if_neg (by omega), if_pos rfl, if_pos (by omega), Nat.sub_self, List.getD_cons_zero]
    · by_cases later : base + (k + 1) ≤ j ∧ j < base + (k + 1) + ts.length
      · rw [if_pos later, if_pos (by omega), show j - (base + k) = j - (base + (k + 1)) + 1 by omega, List.getD_cons_succ]
      · rw [if_neg later, if_neg here, if_neg (by omega)]

@[simp] theorem arr_setArr (x : Tile) (a b : Nat) (m : MArray) : (x.setArr a m).arr b = if a = b then m else x.arr b :=
  Tab.look_put ..

theorem land_acc (x0 x : Tile) {p : Pend} {a r c : Nat} {o : Bool} {ts : List (List Term)} (act : p.act = .acc a r c o ts)
    (j : Nat) : ((Tile.land x0 x p).arr a).acc.look 0 j =
      if 32 * r + c ≤ j ∧ j < 32 * r + c + ts.length
      then accumulate o ((x0.arr a).acc.look 0 j) (ts.getD (j - (32 * r + c)) []) else (x.arr a).acc.look 0 j := by
  unfold Tile.land
  rw [act, arr_setArr, if_pos rfl, List.range_eq_range']
  exact look_accumulated o (fun k => (x0.arr a).acc.look 0 k) (32 * r + c) 0 ts _ j

/-- Settles O16: each word passes or fails the checks of R418, and an AMUL row lands in its own accumulators. -/
theorem arrayWords : Obligations.ArrayWords := by
  refine ⟨fun s u n w x b a g base sela issued cls hx hb ha hg hbase hsela ok => ?words,
    fun x0 x p a r c o ts act j => ?landed⟩
  case words =>
    subst hx hb ha hg hbase hsela
    refine ⟨fun op idle => ?cfg, fun op busy => ?split, fun op near room => ?loadb,
      fun op pair pos near room step rows hstep hrows => ?mul, fun op odd => ?pair,
      fun op pos near room q c0 hq hc => ?drain, fun op pos room => ?zero,
      fun none => ⟨fun op pair => ?mul0, fun op => ?drain0, fun op => ?zero0⟩⟩
    case cfg =>
      rw [exec_acfg, execAcfg, issueTile_run issued rfl cls op (by simp [ok, idle])]
      rfl
    case split =>
      rw [exec_acfg, execAcfg, issueTile_fault issued rfl cls op (k := cSplitBusy) (by simp [ok, busy])]
    case loadb =>
      rw [exec_aloadb, execAloadb, issueTile_run issued rfl cls op (by simp [ok, room, arrBase, addr, near])]
      rfl
    case mul =>
      subst hstep hrows
      rw [exec_amul, execAmul, issueTile_run issued rfl cls op (by simp [ok, room, pair, arrBase, addr, near])]
      dsimp only
      rw [if_neg (by omega)]
      rfl
    case pair =>
      rw [exec_amul, execAmul, issueTile_fault issued rfl cls op (k := cFormatPair) (by simp [ok, odd])]
    case drain =>
      subst hq hc
      rw [exec_adrain, execAdrain, issueTile_run issued rfl cls op (by simp [ok, room, drainRoom, arrBase, addr, near])]
      dsimp only
      rw [if_neg (by omega)]
      rfl
    case zero =>
      rw [exec_azero, execAzero, issueTile_run issued rfl cls op (by simp [ok, room, drainRoom]),
        if_neg (by omega)]
    case mul0 =>
      rw [exec_amul, execAmul, issueTile_run issued rfl cls op (by simp [ok, pair, none])]
      dsimp only
      rw [if_pos none]
    case drain0 =>
      rw [exec_adrain, execAdrain, issueTile_run issued rfl cls op (by simp [ok, drainRoom, none])]
      dsimp only
      rw [if_pos none]
    case zero0 =>
      rw [exec_azero, execAzero, issueTile_run issued rfl cls op (by simp [ok, drainRoom, none])]
      dsimp only
      rw [if_pos none]
  case landed => exact land_acc x0 x act j

/-! ## Transfer words -/

theorem xferLine_eq (x : Tile) (w : Dword) : xferLine x w = fun i => (x.sreg (xSa w)).toNat + xLine w + i * xStride w := rfl

section
variable {w : Dword} (ok : transferOk w = true) {x : Tile} (pipe : Tile → Pipe)
include ok

theorem firstFault_xferChecks_of_none (none : xCount w = 0) (sela : Bool) :
    firstFault (xferChecks pipe sela w x) = Option.none := by
  simp [xferChecks, ok, none]

theorem firstFault_xferChecks (near : xferLine x w (xCount w - 1) < 6144) (room : (pipe x).full x.beat = false)
    (sela : Bool) : firstFault (xferChecks pipe sela w x) = none := by
  simp [xferChecks, ok, near, room]

theorem firstFault_xferChecks_of_far (pos : 0 < xCount w) (far : 6144 ≤ xferLine x w (xCount w - 1)) (sela : Bool) :
    firstFault (xferChecks pipe sela w x) = some cAddrRange := by
  have out : ¬ xferLine x w (xCount w - 1) < 6144 := by omega
  have some : ¬ xCount w = 0 := by omega
  simp [xferChecks, ok, out, some]

theorem firstFault_xferChecks_of_full (pos : 0 < xCount w) (near : xferLine x w (xCount w - 1) < 6144)
    (full : (pipe x).full x.beat = true) (sela : Bool) :
    firstFault (xferChecks pipe sela w x) = some cPipeOverrun := by
  have some : ¬ xCount w = 0 := by omega
  simp [xferChecks, ok, near, full, some]

end

/-- Settles O17: both words are judged by the same checks on their own pipe. -/
theorem transferWords : Obligations.TransferWords := by
  refine ⟨fun s u n w x b issued cls hx hb ok => ⟨fun none => ?none, fun pos line hline => ⟨fun near => ?near, fun far => ?far⟩⟩,
    fun x q v tag dest => ?delivered⟩
  case none =>
    subst hx hb
    have checked := fun pipe => firstFault_xferChecks_of_none (x := u.tile n) ok pipe none (u.sela (regionOf n))
    refine ⟨fun op => ?_, fun op => ?_⟩
    · rw [exec_xout, execXout, issueTile_run issued rfl cls op (checked _), if_pos none]
    · rw [exec_xin, execXin, issueTile_run issued rfl cls op (checked _), if_pos none]
  case near =>
    subst hx hb
    rw [← xferLine_eq] at hline
    subst hline
    have some : ¬ xCount w = 0 := by omega
    have checked := fun pipe room => firstFault_xferChecks ok pipe near room (u.sela (regionOf n))
    have faults := fun pipe full => firstFault_xferChecks_of_full ok pipe pos near full (u.sela (regionOf n))
    refine ⟨fun op room => ?_, fun op full => ?_, fun op room => ?_, fun op full => ?_⟩
    · rw [exec_xout, execXout, issueTile_run issued rfl cls op (checked _ room), if_neg some]
      rfl
    · rw [exec_xout, execXout, issueTile_fault issued rfl cls op (faults _ full)]
    · rw [exec_xin, execXin, issueTile_run issued rfl cls op (checked _ room), if_neg some]
      rfl
    · rw [exec_xin, execXin, issueTile_fault issued rfl cls op (faults _ full)]
  case far =>
    subst hx hb
    rw [← xferLine_eq] at hline
    subst hline
    have faults := fun pipe => firstFault_xferChecks_of_far ok pipe pos far (u.sela (regionOf n))
    refine ⟨fun op => ?_, fun op => ?_⟩
    · rw [exec_xout, execXout, issueTile_fault issued rfl cls op (faults _)]
    · rw [exec_xin, execXin, issueTile_fault issued rfl cls op (faults _)]
  case delivered =>
    unfold Tile.deliver
    rw [dest]

end Sys2Proof.Machine
end

section
/-!
PROOFS. Tile faults (R73), the token class (R72, R99, R171, R175) and what happens at a tile with time: a pending pipe
command that starts, a barrier wait that ends.
-/
namespace Sys2Proof.Machine

/-! ## A tile fault (R73) -/

/-- A fault changes its tile and sends one token. -/
theorem tileFault_eq (s : State) (n cause : Nat) (code : BitVec 16) :
    s.tileFault n cause code = (s.setTile n ((s.tile n).fault cause code)).fly (.hen (regionOf n))
      (faultTok (.hen (regionOf n)) (s.region (regionOf n)).ctl.part (s.region (regionOf n)).ctl.runGen 0 cause n
        (s.tile n).beat false) := rfl

theorem tile_tileFault (s : State) (n cause : Nat) (code : BitVec 16) (m : Nat) :
    (s.tileFault n cause code).tile m = if n = m then (s.tile n).fault cause code else s.tile m := by
  rw [tileFault_eq, State.tile_fly, State.tile_setTile]

/-- Settles O12: a fault changes its tile and sends one token. -/
theorem tileFaultEffect : Obligations.TileFaultEffect := by
  intro s n cause code
  have faulted : (s.tileFault n cause code).tile n = (s.tile n).fault cause code := by
    rw [tile_tileFault, if_pos rfl]
  refine ⟨_, ?_, ?_, ?_, ?_, by rw [tileFault_eq]; rfl, rfl, rfl, ?_, ?_, ?_, ?_, fun m other => ?others, rfl⟩
  case others => rw [tile_tileFault, if_neg (Ne.symm other)]
  all_goals
    rw [faulted]
    rfl

/-! ## Token words -/

theorem arriveAt_of_member {s : State} {t g : Nat} (member : t ∈ s.members (regionOf t) g) (fresh : g ∉ (s.tile t).outst) :
    s.arriveAt t g = (s.setTile t { s.tile t with outst := g :: (s.tile t).outst }).fly (.hen (regionOf t))
      (tileToken s t 1 0 g (payOf (s.tile t).beat 0 (s.region (regionOf t)).ctl.runGen.toNat)) := by
  have isMember : (s.members (regionOf t) g).contains t = true := List.contains_iff_mem.2 member
  have isFresh : (s.tile t).outst.contains g = false := by simpa using fresh
  unfold State.arriveAt
  dsimp only
  rw [isMember, isFresh]
  rfl

/-- An arrival that is refused is an error at the hen: of no member 5, of an outstanding group 1 (R171, R175). -/
theorem arriveAt_refused {s : State} {t g e : Nat} (why : (t ∉ s.members (regionOf t) g ∧ e = 5) ∨
    (t ∈ s.members (regionOf t) g ∧ g ∈ (s.tile t).outst ∧ e = 1)) :
    s.arriveAt t g = s.henError (regionOf t) e t (s.tile t).beat false := by
  unfold State.arriveAt
  dsimp only
  rcases why with ⟨stranger, rfl⟩ | ⟨member, outstanding, rfl⟩
  · rw [if_pos (by simpa using stranger)]
  · rw [if_neg (by simpa using member), if_pos (List.contains_iff_mem.2 outstanding)]

theorem modTile_fly (s : State) (n : Nat) (h : NodeId) (k : Token) (f : Tile → Tile) :
    (s.fly h k).modTile n f = (s.modTile n f).fly h k := rfl

theorem modTile_setTile (s : State) (n : Nat) (x : Tile) (f : Tile → Tile) :
    (s.setTile n x).modTile n f = s.setTile n (f x) := by
  rw [State.modTile_eq, State.tile_setTile, if_pos rfl, State.setTile_setTile]

theorem modTile_henError (s : State) (r e n b m : Nat) (region : Bool) (f : Tile → Tile) :
    (s.henError r e n b region).modTile m f = (s.henError r e n b region).setTile m (f (s.tile m)) := rfl

/-- The pairs and the end of a report go to the hen in the order they are sent in. -/
theorem forAll_tileSend (l : List Nat) (s : State) (t : Nat) (kind : Nat → BitVec 4) (pay : Nat → BitVec 96) :
    forAll l s (fun k u => u.tileSend t 7 (kind k) k (pay k)) = { s with
      flight := s.flight ++ l.map fun k => (.hen (regionOf t), tileToken s t 7 (kind k) k (pay k)) } := by
  induction l generalizing s with
  | nil => simp
  | cons k l ih =>
    rw [forAll_cons, ih, List.map_cons, List.append_cons]
    rfl

theorem tokenFault_bad {w : Dword} (bad : tokenOk w = false) (t : Nat) (s : State) (f : State → State) :
    tokenFault w t s f = s.tileFault t cInvalidOp 0 := if_neg (by simp [bad])

/-- A tile with a new phase that has sent its PHASE token. -/
def State.phased (s : State) (t ph : Nat) : State :=
  (s.setTile t { (s.tile t).advance 1 with phase := ph }).fly (.hen (regionOf t))
    (tileToken s t 6 0 0 (BitVec.ofNat 96 ph))

theorem tile_phased (s : State) (t ph : Nat) : (s.phased t ph).tile t = { (s.tile t).advance 1 with phase := ph } := by
  rw [State.phased, State.tile_fly, State.tile_setTile, if_pos rfl]

theorem setTile_phased (s : State) (t ph : Nat) (x : Tile) : (s.phased t ph).setTile t x =
    (s.setTile t x).fly (.hen (regionOf t)) (tileToken s t 6 0 0 (BitVec.ofNat 96 ph)) := by
  rw [← State.setTile_setTile s t _ x]
  rfl

theorem normIndex_phased (s : State) (t ph : Nat) : ((s.phased t ph).tile t).normIndex = (s.tile t).normIndex := by
  rw [tile_phased]
  rfl

section
variable {s u : State} {n : Nat} {w : Dword} (issued : Issuing s n w u) (cls : wCls w = 4) (op : wOp w = 3)
  (ok : tokenOk w = true)
include issued cls op ok

theorem exec_tphase_quiet (quiet : u.isNormPoint (regionOf n) (bits w 7 0) = false ∨ (u.tile n).normIndex = none) :
    exec (.tphase n) s = .next (u.phased n (bits w 7 0)) := by
  rw [exec_tphase, execTphase, issueWord_run issued rfl cls op, tokenFault_of ok]
  refine congrArg _ ?_
  dsimp only
  split
  case h_1 i index =>
    rcases quiet with noPoint | noIndex
    · exact if_neg (Bool.not_eq_true _ ▸ noPoint)
    · exact nomatch (index.symm.trans (normIndex_phased u n _)).trans noIndex
  case h_2 => rfl

theorem exec_tphase_report {i : Nat} (point : u.isNormPoint (regionOf n) (bits w 7 0) = true)
    (index : (u.tile n).normIndex = some i) :
    exec (.tphase n) s = .next ((u.phased n (bits w 7 0)).normReport n (bits w 7 0) i) := by
  rw [exec_tphase, execTphase, issueWord_run issued rfl cls op, tokenFault_of ok]
  refine congrArg _ ?_
  dsimp only
  split
  case h_1 j same =>
    obtain rfl : j = i := Option.some.inj ((same.symm.trans (normIndex_phased u n _)).trans index)
    exact if_pos point
  case h_2 none => exact nomatch (none.symm.trans (normIndex_phased u n _)).trans index

end

/-- The report of a tile: the pairs in rising order, the end, and the zeroing left pending (R99). -/
theorem normReport_eq (s : State) (t ph i : Nat) {x : Tile} (hx : x = s.tile t) {tags : List Nat}
    (htags : tags = (List.range 256).filter fun k => x.normNew.contains k) {g : Nat}
    (hg : g = (s.region (regionOf t)).ctl.runGen.toNat) :
    s.normReport t ph i = { s.setTile t (x.later 1 (.normZero tags)) with
      flight := s.flight ++ (tags.map fun k => (.hen (regionOf t), tileToken s t 7 0 k
          (normPay (x.norms.look 0 (2 * k)) (x.norms.look 0 (2 * k + 1)) i ph g))) ++
        [(.hen (regionOf t), tileToken s t 7 1 0 (normPay 0 0 i ph g))] } := by
  subst hx htags hg
  unfold State.normReport
  dsimp only
  rw [forAll_tileSend]
  rfl

/-- Settles O18: each word passes the check of its fields or faults, and its effect is the one of R72, R99, R171 or R175. -/
theorem tokenWords : Obligations.TokenWords := by
  intro s u n w x y r issued cls hx hr hy
  subst hx hr hy
  refine ⟨fun ok => ⟨fun member fresh k hk => ?arrives, fun e why => ?refused, fun op => ?waits, fun op quiet => ?phase,
    fun op point i g index hg tags htags => ?report, fun op => ?raises⟩, fun bad c which => ?illFormed⟩
  case arrives =>
    subst hk
    refine ⟨fun op => ?_, fun op => ?_⟩
    · rw [exec_tarr, execTarr, issueWord_run issued rfl cls op, tokenFault_of ok, arriveAt_of_member member fresh,
        modTile_fly, modTile_setTile]
      rfl
    · rw [exec_tsync, execTsync, issueWord_run issued rfl cls op, tokenFault_of ok, arriveAt_of_member member fresh,
        modTile_fly, modTile_setTile]
      rfl
  case refused =>
    refine ⟨fun op => ?_, fun op => ?_⟩
    · rw [exec_tarr, execTarr, issueWord_run issued rfl cls op, tokenFault_of ok, arriveAt_refused why, modTile_henError]
    · rw [exec_tsync, execTsync, issueWord_run issued rfl cls op, tokenFault_of ok, arriveAt_refused why,
        modTile_henError]
      rfl
  case waits =>
    rw [exec_twait, execTwait, issueWord_run issued rfl cls op, tokenFault_of ok]
    rfl
  case phase => exact exec_tphase_quiet issued cls op ok quiet
  case report =>
    rw [exec_tphase_report issued cls op ok point index, normReport_eq _ n _ i (tile_phased u n _).symm htags hg,
      setTile_phased]
    rfl
  case raises =>
    rw [exec_traise, execTraise, issueWord_run issued rfl cls op, tokenFault_of ok]
  case illFormed =>
    have faults := fun f => tokenFault_bad bad n u f
    rcases which with ⟨op, rfl⟩ | ⟨op, rfl⟩ | ⟨op, rfl⟩ | ⟨op, rfl⟩ | ⟨op, rfl⟩
    · rw [exec_tarr, execTarr, issueWord_run issued rfl cls op, faults]
    · rw [exec_twait, execTwait, issueWord_run issued rfl cls op, faults]
    · rw [exec_tsync, execTsync, issueWord_run issued rfl cls op, faults]
    · rw [exec_tphase, execTphase, issueWord_run issued rfl cls op, faults]
    · rw [exec_traise, execTraise, issueWord_run issued rfl cls op, faults]

/-! ## Pending pipe commands and barrier waits (R46, R72) -/

theorem start_of_waiting {p : Pipe} {c : PipeCmd} {b : Nat} (waits : p.wait = some c) (come : c.start ≤ b) :
    p.start b = { run := some c, wait := none } := by
  rw [Pipe.start, waits]
  exact if_pos come

theorem setPipe_start {x : Tile} {q : PipeId} {c : PipeCmd} (waits : (x.pipe q).wait = some c) (come : c.start ≤ x.beat) :
    x.modPipe (fun p => p.start x.beat) q = x.setPipe q { run := some c, wait := none } := by
  have starts := start_of_waiting waits come
  cases q <;> simp only [Tile.pipe, Tile.mulPipe] at starts <;> simp only [Tile.setPipe, Tile.modPipe, starts]

/-- Settles O19: each event happens where its condition holds. -/
theorem tileEvents : Obligations.TileEvents := by
  intro s n x hn hx
  subst hx
  refine ⟨fun goes q c waits come => ?start, fun v waiting wait pos passed goes => ?timeout,
    fun v waiting wait goes latched come next inTime => ?resume⟩
  case start =>
    rw [exec_pipePendingStart, execPipePendingStart, onUnit_of (by simpa using hn), due_of (by simp [goes]), State.modTile_eq,
      setPipe_start waits come]
  case timeout =>
    have expired : v.expired = true := by simp [Wait.expired, pos, passed]
    rw [exec_barrierTimeout, execBarrierTimeout, onUnit_of (by simpa using hn)]
    split
    · next w same =>
      obtain rfl := Option.some.inj (wait.symm.trans same)
      rw [due_of (by simp [waiting, goes, expired]), State.modTile_eq]
    · next none => exact nomatch wait.symm.trans none
  case resume =>
    have unexpired : v.expired = false := by
      simp only [Wait.expired, Bool.and_eq_false_iff, decide_eq_false_iff_not]
      omega
    have released : (s.tile n).released = true := by
      simp [Tile.released, wait, waiting, latched, come, next, unexpired]
    rw [exec_resumeIssue, execResumeIssue, onUnit_of (by simpa using hn), due_of (by simp [goes, released]),
      State.modTile_eq]
    simp only [wait]

end Sys2Proof.Machine
end

section
/-!
PROOFS. Plain functions of the memory system and of the fabric's time: the atomics (R236), bytes written and read over
the address map (R202 to R204), and the delay and offset of a TIME_RESP (R257, R258).
-/
namespace Sys2Proof.Machine

/-! ## Atomics (R236) -/

/-- Settles O40: the unsigned comparisons choose the greater and the lesser word. -/
theorem atomicValues : Obligations.AtomicValues := by
  intro old a b
  refine ⟨rfl, rfl, BitVec.toNat_add old a, rfl, rfl, rfl, ?max, ?min⟩
  case max =>
    by_cases less : old.toNat < a.toNat
    · rw [atomicNew, if_pos less, Nat.max_eq_right (by omega)]
    · rw [atomicNew, if_neg less, Nat.max_eq_left (by omega)]
  case min =>
    have word : atomicNew 7 old a b = if a.toNat < old.toNat then a else old := rfl
    by_cases less : a.toNat < old.toNat
    · rw [word, if_pos less, Nat.min_eq_right (by omega)]
    · rw [word, if_neg less, Nat.min_eq_left (by omega)]

/-! ## The address map (R202 to R204) -/

/-- The byte a local offset reads as, and the state with one byte written there. -/
def State.byteAt (s : State) (a : Nat) : Byte :=
  match s.cell a with
  | some c => Tab.look (0 : Byte) s.hbm (cellKey c)
  | none => 0
def State.putByte (s : State) (a : Nat) (b : Byte) : State :=
  match s.cell a with
  | some c => { s with hbm := Tab.put (0 : Byte) s.hbm (cellKey c) b }
  | none => s

theorem readMem_succ (s : State) (a n : Nat) : s.readMem a (n + 1) = s.byteAt a :: s.readMem (a + 1) n := rfl

theorem writeMem_cons (s : State) (a : Nat) (b : Byte) (bs : List Byte) :
    s.writeMem a (b :: bs) = (s.putByte a b).writeMem (a + 1) bs := rfl

theorem cell_putByte (s : State) (a : Nat) (b : Byte) : (s.putByte a b).cell = s.cell := by
  unfold State.putByte
  split <;> rfl

theorem byteAt_putByte_other {s : State} {a c : Nat} (other : (s.cell a).map cellKey ≠ (s.cell c).map cellKey) (b : Byte) :
    (s.putByte a b).byteAt c = s.byteAt c := by
  unfold State.byteAt
  rw [cell_putByte]
  unfold State.putByte
  split
  · next k _ =>
    split
    · next l _ =>
      rw [Tab.look_put, if_neg]
      simp_all
    · rfl
  · rfl

theorem byteAt_putByte_same {s : State} {a : Nat} (mapped : (s.cell a).isSome = true) (b : Byte) :
    (s.putByte a b).byteAt a = b := by
  obtain ⟨k, cell⟩ := Option.isSome_iff_exists.1 mapped
  unfold State.byteAt
  rw [cell_putByte]
  unfold State.putByte
  simp only [cell, Tab.look_put, if_true]

theorem byteAt_writeMem_other {s : State} {a c : Nat} {bs : List Byte}
    (other : ∀ i, i < bs.length → (s.cell (a + i)).map cellKey ≠ (s.cell c).map cellKey) :
    (s.writeMem a bs).byteAt c = s.byteAt c := by
  induction bs generalizing s a with
  | nil => rfl
  | cons b bs ih =>
    rw [writeMem_cons, ih, byteAt_putByte_other (a := a) (other 0 (Nat.zero_lt_succ _))]
    intro i hi
    rw [cell_putByte, Nat.add_right_comm]
    exact other (i + 1) (Nat.succ_lt_succ hi)

theorem readMem_writeMem {s : State} {a : Nat} {bs : List Byte} (mapped : ∀ i, i < bs.length → (s.cell (a + i)).isSome = true)
    (apart : ∀ i j, i < bs.length → j < bs.length →
      (s.cell (a + i)).map cellKey = (s.cell (a + j)).map cellKey → i = j) :
    (s.writeMem a bs).readMem a bs.length = bs := by
  induction bs generalizing s a with
  | nil => rfl
  | cons b bs ih =>
    have shift : ∀ i, (s.putByte a b).cell (a + 1 + i) = s.cell (a + (i + 1)) := fun i => by
      rw [cell_putByte, Nat.add_right_comm, Nat.add_assoc]
    rw [List.length_cons, readMem_succ, writeMem_cons]
    congr 1
    · rw [byteAt_writeMem_other, byteAt_putByte_same (a := a) (mapped 0 (Nat.zero_lt_succ _))]
      intro i hi same
      rw [shift, cell_putByte] at same
      exact nomatch apart (i + 1) 0 (Nat.succ_lt_succ hi) (Nat.zero_lt_succ _) same
    · refine ih (fun i hi => ?_) fun i j hi hj same => ?_
      · rw [shift]
        exact mapped (i + 1) (Nat.succ_lt_succ hi)
      · rw [shift, shift] at same
        exact Nat.succ.inj (apart (i + 1) (j + 1) (Nat.succ_lt_succ hi) (Nat.succ_lt_succ hj) same)

/-- Settles O42: bytes at distinct places are read back, and no other place is touched. -/
theorem memoryReads : Obligations.MemoryReads := by
  refine fun s a bs places => ⟨?back, fun b other => ?others, fun b c unmapped => ?nowhere⟩
  case back =>
    exact readMem_writeMem (fun i hi => (places i i hi hi).1) fun i j hi hj same => (places i j hi hj).2 same
  case others =>
    rw [readMem_succ, readMem_succ, byteAt_writeMem_other other]
    rfl
  case nowhere =>
    rw [writeMem_cons, State.putByte, unmapped]
    rfl

/-! ## The fabric's time (R257, R258) -/

/-- The difference of two stamps less than half the range apart is that of their times. -/
theorem tsDiff_of_near {a b : Nat} (ha : tsPs a < tsRange) (hb : tsPs b < tsRange)
    (ahead : 2 * ((tsPs a : Int) - tsPs b) < tsRange) (behind : 2 * ((tsPs b : Int) - tsPs a) < tsRange) :
    tsDiff a b = (tsPs a : Int) - tsPs b := by
  unfold tsDiff
  dsimp only
  generalize tsPs a = x at *
  generalize tsPs b = y at *
  generalize tsRange = m at *
  by_cases order : y ≤ x
  · have d : (x + m - y) % m = x - y := by
      rw [show x + m - y = x - y + m by omega, Nat.add_mod_right, Nat.mod_eq_of_lt (by omega)]
    rw [d, if_pos (by omega)]
    omega
  · have d : (x + m - y) % m = x + m - y := Nat.mod_eq_of_lt (by omega)
    rw [d, if_neg (by omega)]
    omega

theorem tsPs_lt {v : Nat} (ok : tsOk v = true) (word : v < 2 ^ 64) : tsPs v < tsRange := by
  have fraction : v % 2 ^ 20 < 1000000 := by simpa [tsOk] using ok
  unfold tsPs tsRange
  omega

/-- Settles O45: the sums of the two ways' times give the delay, their difference the offset; whole microseconds are
stepped or frozen and the rest is slewed. -/
theorem timeOffsets : Obligations.TimeOffsets := by
  refine ⟨fun h t4 d o ok1 ok2 ok3 ok4 out back near => ?found, fun m o d => ?applied⟩
  case found =>
    have lt1 := tsPs_lt ok1 (BitVec.isLt _)
    have lt2 := tsPs_lt ok2 (BitVec.isLt _)
    have lt3 := tsPs_lt ok3 (BitVec.isLt _)
    have lt4 := tsPs_lt ok4 t4.isLt
    simp only [List.forall_mem_cons] at near
    obtain ⟨⟨_, n12, n13, n14, _⟩, ⟨n21, _, n23, n24, _⟩, ⟨n31, n32, _, n34, _⟩, ⟨n41, n42, n43, _, _⟩, _⟩ := near
    unfold timeRespDelay timeRespOffset
    rw [tsDiff_of_near lt4 lt1 n41 n14, tsDiff_of_near lt3 lt2 n32 n23, tsDiff_of_near lt2 lt1 n21 n12,
      tsDiff_of_near lt4 lt3 n43 n34]
    omega
  case applied =>
    unfold Mgt.takeOffset
    dsimp only
    split
    · dsimp only
      omega
    · split
      · dsimp only
        omega
      · dsimp only
        omega

end Sys2Proof.Machine
end

section
/-!
PROOFS. The announcements, the hold requests and the hold beats of the control network.
-/
namespace Sys2Proof.Machine

/-- Settles O31: a hen latches the beat that each announcement carries. -/
theorem announcements : Obligations.Announcements := by
  rintro s u r k rfl n m b c rfl rfl rfl rfl
  refine ⟨fun heard v hv => ?hold, fun heard v hv => ?resume, fun heard v hv => ?pSwap, fun heard => ?tSwap,
    fun heard => ?start, fun heard v hv => ?stop⟩
  case hold => rw [exec_hold, execHold, henToken_run heard, hv]; rfl
  case resume => rw [exec_resume, execResume, henToken_run heard, hv]; rfl
  case pSwap => rw [exec_pSwap, execPSwap, henToken_run heard, hv]; rfl
  case tSwap =>
    rw [exec_tSwap, execTSwap, henToken_run heard]
    refine ⟨fun other => by rw [other, due_false], fun named v hv => ?_⟩
    rw [due_of named, hv]
    rfl
  case start =>
    rw [exec_runStartToken, execRunStartToken, henToken_run heard]
    refine ⟨fun other => by rw [if_pos other], fun sent v hv => ?_⟩
    rw [if_neg (not_not_intro sent), hv]
    rfl
  case stop => rw [exec_runStop, execRunStop, henToken_run heard, hv]; rfl


/-! ## Hold requests -/

theorem henQueue_hstate (s : State) (r m : Nat) (k : Token) :
    ((s.henQueue r k).region m).ctl.hstate = (s.region m).ctl.hstate := by
  unfold State.henQueue State.henError State.raise
  dsimp only
  split
  all_goals
    simp only [State.region_fly, State.modCtl_eq, State.region_setRegion]
    split
    · next same => subst same; rfl
    · rfl

theorem modCtl_modCtl (s : State) (r : Nat) (f g : HenCtl → HenCtl) :
    (s.modCtl r f).modCtl r g = s.modCtl r fun c => g (f c) := by
  simp only [State.modCtl_eq, State.region_setRegion, State.setRegion_setRegion, if_true]

theorem announce_hstate (s : State) (r : Nat) (kind : BitVec 4) (beat arg : Nat) :
    ((s.announce r kind beat arg).region r).ctl.hstate = (s.region r).ctl.hstate := henQueue_hstate ..

theorem modCtl_hstate (s : State) (r : Nat) (f : HenCtl → HenCtl) :
    ((s.modCtl r f).region r).ctl.hstate = (f (s.region r).ctl).hstate := by
  rw [State.modCtl_eq, State.region_setRegion, if_pos rfl]

/-- A request at a lead hen whose schedule runs announces a hold. -/
theorem holdRequest_running {s u : State} {r h reasons n : Nat} (lead : (s.region r).ctl.lead = true)
    (run : (s.region r).ctl.run = true) (running : (s.region r).ctl.hstate = .running)
    (hn : n = max h ((s.region r).ctl.sched + 96))
    (hu : u = (s.modCtl r fun c => { c with
      reasons := c.reasons ||| BitVec.ofNat 8 reasons, hstate := .announced, annHold := n, atHold := some n
      holdBeat := n }).announce r 0 n ((s.region r).ctl.reasons ||| BitVec.ofNat 8 reasons).toNat) :
    s.holdRequest r h reasons = if h ≠ 0 ∧ h < (s.region r).ctl.sched + 96
      then u.henError r 2 0x7FFF (s.region r).ctl.sched false else u := by
  have merged : (s.modCtl r fun c => { c with reasons := (s.region r).ctl.reasons ||| BitVec.ofNat 8 reasons }).modCtl r
      (fun c => { c with hstate := .announced, annHold := n, atHold := some n, holdBeat := n }) =
      s.modCtl r fun c => { c with
        reasons := c.reasons ||| BitVec.ofNat 8 reasons, hstate := .announced, annHold := n, atHold := some n
        holdBeat := n } := by
    rw [modCtl_modCtl]
    rfl
  have announced : (u.region r).ctl.hstate = .announced := by
    rw [hu, announce_hstate, modCtl_hstate]
  unfold State.holdRequest
  dsimp only
  rw [lead, run, running]
  simp only [Bool.and_true, Bool.not_true, Bool.false_eq_true, if_false, BEq.rfl, Bool.true_or, if_true, Bool.or_self,
    show (HoldSt.running == HoldSt.held) = false from rfl,
    show (HoldSt.running == HoldSt.resuming) = false from rfl]
  rw [← hn, merged, ← hu, announced]
  simp

theorem holdRequest_idle {s : State} {r : Nat} (idle : (s.region r).ctl.lead = false ∨ (s.region r).ctl.run = false)
    (h reasons : Nat) : s.holdRequest r h reasons = s := by
  have out : ((s.region r).ctl.lead && (s.region r).ctl.run) = false := Bool.and_eq_false_iff.2 idle
  exact if_pos (by rw [out]; rfl)

theorem resumeRequest_idle {s : State} {r : Nat} (idle : (s.region r).ctl.lead = false ∨ (s.region r).ctl.run = false)
    (reasons : Nat) : s.resumeRequest r reasons = s := by
  have out : ((s.region r).ctl.lead && (s.region r).ctl.run) = false := Bool.and_eq_false_iff.2 idle
  unfold State.resumeRequest
  dsimp only
  rw [out, if_neg (by decide)]

theorem resumeRequest_leads {s : State} {r : Nat} (lead : (s.region r).ctl.lead = true)
    (run : (s.region r).ctl.run = true) (reasons : Nat) :
    s.resumeRequest r reasons = s.modCtl r fun c => { c with reasons := c.reasons &&& ~~~ BitVec.ofNat 8 reasons } :=
  if_pos (by simp [lead, run])

theorem execHoldBeat_run {s u : State} {r h : Nat} {l : List Nat} (hr : r < 40)
    (at_ : (s.region r).ctl.atHold = some h) (come : h ≤ (s.region r).ctl.sched) (run : (s.region r).ctl.run = true)
    (free : (s.region r).ctl.held = false) (hu : u = s.modCtl r (fun c => { c with
      held := true, atHold := none, holdBeat := c.sched, holds := (c.holds + 1) % 65536, hstate := .held }))
    (hl : l = (u.testTiles r isDue).filter u.testable) :
    execHoldBeat r s = .next (if (s.region r).test.pending = false then u
      else if l = [] ∨ (s.region r).dark = true then u.pauseDone r 0 false else u.startTests l { place := 2 }) := by
  have test : (u.region r).test = (s.region r).test := by rw [hu, State.modCtl_eq, State.region_setRegion, if_pos rfl]
  have dark : (u.region r).dark = (s.region r).dark := by
    rw [hu, State.modCtl_eq, State.region_setRegion, if_pos rfl]
    rfl
  rw [execHoldBeat, onUnit_of (by simpa using hr)]
  simp only [at_]
  rw [due_of (by simp [come, run, free]), ← hu, test]
  cases pending : (s.region r).test.pending
  · rfl
  · rw [due_true, ← hl, dark]
    simp [List.isEmpty_iff]

theorem execResumeBeat_run {s : State} {r q : Nat} {c : HenCtl} (hr : r < 40) (hc : c = (s.region r).ctl)
    (at_ : c.atResume = some q) (come : q ≤ (s.region r).clk.count) (run : c.run = true) (first : c.resumes q = true) :
    (c.held = true → execResumeBeat r s = .next (s.modCtl r fun c =>
      { c with held := false, atResume := none, hstate := if c.atHold.isSome then .announced else .running })) ∧
    (c.held = false → c.atHold ≠ none → execResumeBeat r s = .next ((s.modCtl r fun c =>
      { c with atHold := none, atResume := none, hstate := .running }).henError r 0 0x7FFF c.sched false)) ∧
    (c.held = false → c.atHold = none → execResumeBeat r s = .next (s.modCtl r fun c => { c with atResume := none })) := by
  subst hc
  rw [execResumeBeat, onUnit_of (by simpa using hr)]
  simp only [at_]
  rw [due_of (by simp [come, run, first])]
  refine ⟨fun held => by rw [if_pos held], fun free taken => ?_, fun free none_ => ?_⟩
  · rw [if_neg (by simp [free])]
    split
    · rfl
    · next none_ => exact absurd none_ taken
  · rw [if_neg (by simp [free])]
    split
    · next some_ => exact nomatch none_.symm.trans some_
    · rfl

/-- Settles O32: what a request changes at the lead hen, and what each of the beats of a hold does. -/
theorem holdRequestsAndBeats : Obligations.HoldRequestsAndBeats := by
  refine ⟨fun s r k heard => ?holdReq, fun s r k heard => ?resumeReq, fun s u r h reasons n c hc => ?requests,
    fun s u r h l hr at_ come run free hu hl => ?holdBeat, fun s r q hr plane lead run held none_ hq => ?announce,
    fun s r q c hr hc at_ come run first => ?resumeBeat⟩
  case holdReq => rw [exec_holdReq, execHoldReq, henToken_run heard]; rfl
  case resumeReq => rw [exec_resumeReq, execResumeReq, henToken_run heard]
  case requests =>
    subst hc
    exact ⟨fun idle => ⟨holdRequest_idle idle h reasons, resumeRequest_idle idle reasons⟩,
      fun lead run => resumeRequest_leads lead run reasons, holdRequest_running⟩
  case holdBeat => rw [exec_holdBeat, execHoldBeat_run hr at_ come run free hu hl]
  case announce =>
    rw [exec_resumeAnnounce, execResumeAnnounce, onUnit_of (by simpa using hr)]
    dsimp only
    rw [due_of (by simp [plane, lead, run, held, none_]), ← hq]
  case resumeBeat => rw [exec_resumeBeat]; exact execResumeBeat_run hr hc at_ come run first

/-! ## Barriers -/

theorem bar_modBar (s : State) (r g : Nat) (f : HenBar → HenBar) :
    ((s.modBar r g f).region r).ctl.bars.look {} g = f ((s.region r).ctl.bars.look {} g) := by
  rw [State.modBar, State.modCtl_eq, State.region_setRegion, if_pos rfl]
  exact (Tab.look_put ..).trans (if_pos rfl)

theorem modBar_modBar (s : State) (r g : Nat) (f h : HenBar → HenBar) :
    (s.modBar r g f).modBar r g h = s.modBar r g fun b => h (f b) := by
  unfold State.modBar
  rw [modCtl_modCtl]
  simp only [Tab.look_put, Tab.put_put, if_true]

theorem modBar_ctl (s : State) (r g m : Nat) (f : HenBar → HenBar) :
    ∃ bars, ((s.modBar r g f).region m).ctl = { (s.region m).ctl with bars := bars } := by
  unfold State.modBar
  rw [State.modCtl_eq, State.region_setRegion]
  split
  · next same => exact ⟨_, by subst same; rfl⟩
  · exact ⟨_, rfl⟩

theorem henError_part (s : State) (r e unit beat m : Nat) (region : Bool) :
    ((s.henError r e unit beat region).region m).ctl.part = (s.region m).ctl.part := by
  unfold State.henError State.raise
  dsimp only
  rw [State.region_fly, State.modCtl_eq, State.region_setRegion]
  split
  · next same => subst same; rfl
  · rfl

theorem groupRegions_henError (s : State) (r e unit beat m g : Nat) (region : Bool) :
    (s.henError r e unit beat region).groupRegions m g = s.groupRegions m g := by
  unfold State.groupRegions State.members
  rw [henError_part]
  rfl

@[simp] theorem members_landed (s : State) (n : NodeId) (k : Token) (r g : Nat) :
    (s.landed n k).members r g = s.members r g := rfl

@[simp] theorem groupRegions_landed (s : State) (n : NodeId) (k : Token) (r g : Nat) :
    (s.landed n k).groupRegions r g = s.groupRegions r g := rfl

@[simp] theorem members_modBar (s : State) (r g m h : Nat) (f : HenBar → HenBar) :
    (s.modBar r g f).members m h = s.members m h := by
  obtain ⟨bars, same⟩ := modBar_ctl s r g m f
  unfold State.members
  rw [same]
  rfl

@[simp] theorem groupRegions_modBar (s : State) (r g m h : Nat) (f : HenBar → HenBar) :
    (s.modBar r g f).groupRegions m h = s.groupRegions m h := by
  unfold State.groupRegions
  rw [members_modBar]

@[simp] theorem part_modBar_region (s : State) (r g m : Nat) (f : HenBar → HenBar) :
    ((s.modBar r g f).region m).ctl.part = (s.region m).ctl.part := by
  obtain ⟨bars, same⟩ := modBar_ctl s r g m f
  rw [same]

@[simp] theorem sched_modBar (s : State) (r g m : Nat) (f : HenBar → HenBar) :
    ((s.modBar r g f).region m).ctl.sched = (s.region m).ctl.sched := by
  obtain ⟨bars, same⟩ := modBar_ctl s r g m f
  rw [same]

@[simp] theorem partRegions_modBar (s : State) (r g p : Nat) (f : HenBar → HenBar) :
    (s.modBar r g f).partRegions p = s.partRegions p := by
  unfold State.partRegions
  congr 1
  funext m
  obtain ⟨bars, same⟩ := modBar_ctl s r g m f
  rw [same]

@[simp] theorem henToken_modBar (s : State) (r g m : Nat) (f : HenBar → HenBar) (cls kind : BitVec 4) (group scope : Nat)
    (pay : BitVec 96) : (s.modBar r g f).henToken m cls kind group scope pay = s.henToken m cls kind group scope pay := by
  unfold State.henToken
  rw [part_modBar_region]

@[simp] theorem runGen_modBar (s : State) (r g m : Nat) (f : HenBar → HenBar) :
    ((s.modBar r g f).region m).ctl.runGen = (s.region m).ctl.runGen := by
  obtain ⟨bars, same⟩ := modBar_ctl s r g m f
  rw [same]

/-- The completions of a group's regions once that of `q` is in: one for each region. -/
theorem collect_run {s u : State} {r g q beat p : Nat} {done : List (Nat × Nat)} {rs : List Nat} {k : Token}
    (hd : done = (((s.region r).ctl.bars.look {} g).done.filter fun d => d.1 ≠ q) ++ [(q, beat)])
    (hrs : rs = s.groupRegions r g) (hp : p = (s.region r).ctl.part) :
    (¬ (∀ x ∈ rs, ∃ d ∈ done, d.1 = x) → s.collect r g q beat = s.modBar r g fun b => { b with done := done }) ∧
    ((∀ x ∈ rs, ∃ d ∈ done, d.1 = x) →
      k = s.henToken r 1 2 g 2 (payOf ((done.map (·.2)).foldl max 0 + barrierL rs) 0 (s.region r).ctl.runGen.toNat) →
      u = s.modBar r g (fun b => { b with done := [] }) →
      ∀ w, w = (if rs.length ≤ 1 then (s.members r g).foldl (fun u t => u.fly (.tile t) k) u else u) →
      s.collect r g q beat = if (s.partRegions p).length ≤ 1 then w else w.henQueue r k) := by
  have first : (s.modBar r g fun b => { b with done := b.done.filter (fun d => d.1 ≠ q) ++ [(q, beat)] }) =
      s.modBar r g fun b => { b with done := done } := by rw [hd]; rfl
  have all : (rs.all fun q => done.any fun d => d.1 = q) = true ↔ ∀ x ∈ rs, ∃ d ∈ done, d.1 = x := by simp
  have flown (v : State) (l : List Nat) : (l.foldl (fun u t => u.fly (.tile t) k) v).regions = v.regions := by
    induction l generalizing v with
    | nil => rfl
    | cons t l ih => exact ih _
  have same (v w : State) (e : v.regions = w.regions) : v.partRegions = w.partRegions ∧ v.region = w.region := by
    unfold State.partRegions State.region
    rw [e]
    exact ⟨rfl, rfl⟩
  unfold State.collect
  simp only [first, groupRegions_modBar, members_modBar, bar_modBar, henToken_modBar, runGen_modBar, modBar_modBar, ← hrs]
  refine ⟨fun missing => by rw [if_neg (mt all.1 missing)], fun complete hk hu w hw => ?_⟩
  rw [if_pos (all.2 complete), ← hk, ← hu, ← hw]
  have kept : w.regions = u.regions := by
    rw [hw]
    split
    · exact flown u _
    · rfl
  obtain ⟨parts, regions⟩ := same w u kept
  rw [regions, parts, hu, part_modBar_region, partRegions_modBar, ← hp]

/-- Settles O30: what a barrier's tokens do at the hens and tiles of a group, and who collects after a plane stops. -/
theorem barriers : Obligations.Barriers := by
  refine ⟨fun s u r g n k heard hg hn hu => ?arrive, fun s r g b k heard hg bell here known => ?regionDone,
    fun s u r g q beat p done rs k hd hrs hp => collect_run hd hrs hp,
    fun s u v n r g now b a k hn hr cls kind plane known fresh hg hnow hb => ?release,
    fun s p g l old hp hg lead bell stopped next hnext => ?election⟩
  case arrive =>
    subst hg
    rw [exec_arrive, execArrive, henToken_run heard]
    dsimp only
    rw [bar_modBar, hu, hn]
    rfl
  case regionDone =>
    subst hg
    rw [exec_regionDone, execRegionDone, henToken_run heard]
    dsimp only
    split
    · next t same =>
      obtain rfl := Option.some.inj (bell.symm.trans same)
      exact congrArg _ (due_of (by simpa [here] using known) ..)
    · next none_ => exact nomatch bell.symm.trans none_
  case release =>
    subst hr hg hnow hb
    have heard (f : State → State) : (onUnit (n < 20000) s fun s => due ((k.cls = 1 && k.kind = 2) || reservedToken k) s
        fun s => s.receive (regionOf n) (.tile n) k f) = .next (f (s.landed (.tile n) k)) := by
      rw [onUnit_of (by simpa using hn), due_of (by simp [cls, kind])]
      unfold State.receive
      rw [if_neg (by simp [plane]), if_neg (by simp [known]), if_neg (by simp [fresh])]
    rw [exec_release, execRelease, heard]
    refine ⟨fun member hu hv ha => ?_, fun none_ => ?_, fun other some_ => ?_⟩
    · have some_ : ∃ m ∈ s.members (regionOf n) k.group.toNat, regionOf m = regionOf n := ⟨n, member, rfl⟩
      have groups : v.groupRegions (regionOf n) k.group.toNat = s.groupRegions (regionOf n) k.group.toNat := by
        rw [hv]
        split
        · rw [groupRegions_henError, hu, groupRegions_modBar, groupRegions_landed]
        · rw [hu, groupRegions_modBar, groupRegions_landed]
      refine congrArg _ ((if_neg (by simpa using some_)).trans ((due_of (by simpa using member) ..).trans ?_))
      have latched (w : State) (same : w = v) : (w.modTile n fun x => { x with
          outst := x.outst.erase k.group.toNat
          latch := x.latch.put 0 k.group.toNat ((if resumeAt (nearBeat (s.region (regionOf n)).ctl.sched (tokBeat k))
            (place (w.groupRegions (regionOf n) k.group.toNat) (regionOf n)) n < (s.region (regionOf n)).ctl.sched
            then (s.region (regionOf n)).ctl.sched + 1
            else resumeAt (nearBeat (s.region (regionOf n)).ctl.sched (tokBeat k))
              (place (w.groupRegions (regionOf n) k.group.toNat) (regionOf n)) n) + 1) }) = v.modTile n fun x => { x with
          outst := x.outst.erase k.group.toNat
          latch := x.latch.put 0 k.group.toNat
            ((if a < (s.region (regionOf n)).ctl.sched then (s.region (regionOf n)).ctl.sched + 1 else a) + 1) } := by
        rw [same, groups, ha]
        rfl
      exact latched _ (by rw [hv, hu]; rfl)
    · exact congrArg _ (if_pos (by simpa using none_))
    · refine congrArg _ ((if_neg (by simpa using some_)).trans (if_neg (by simpa using other)))
  case election =>
    rw [exec_bellwetherElection, execBellwetherElection, onUnit_of (by simp [hp, hg])]
    simp only [lead, bell]
    rw [due_of (by simp [stopped]), ← hnext]
    refine ⟨fun none_ => by rw [none_], fun new rs u some_ hrs hu => ?_⟩
    subst hu hrs
    rw [some_]
    rfl

end Sys2Proof.Machine
end

section
/-!
PROOFS. Words that cross a border, and the beats of a region.
-/
namespace Sys2Proof.Machine

/-! ## Border words -/

theorem arriveRouter_run {s u : State} {n a sent c : Nat} {side : Dir} {tr : Bool} {q : BorderQ × Bool}
    (ha : allowance n side = some a) (hs : s.senderCount n side tr = some sent)
    (under : ((s.router n).bq.look {} (bqKey side tr)).arrived < sent) (linked : s.linkDown n side = false)
    (listens : tr = true ∨ (s.region (regionOf n)).ctl.receives = true)
    (hc : c = (if tr then (s.region (regionOf n)).clk.count
      else if (s.region (regionOf n)).ctl.run then (s.region (regionOf n)).ctl.sched else 0))
    (hq : q = ((s.router n).bq.look {} (bqKey side tr)).arrive (dueWord c a ((s.router n).slack side)))
    (hu : u = s.modRouter n (fun y => { y with bq := y.bq.put {} (bqKey side tr) q.1 })) :
    s.arriveRouter n side tr = if q.2 then
      (u.modRouter n fun y => { y with ovr := setBit y.ovr (dirNo side), overCount := min (y.overCount + 1) 65535 }).raise
        (regionOf n) 2 2 n c tr else u := by
  unfold State.arriveRouter
  simp only [ha, hs]
  rw [due_of (by simp [under, linked, listens]), ← hc, ← hq, hu]
  rfl

theorem arriveEdge_run {s u : State} {n p : Nat} {side : Dir} {e : EdgeId} {c : HenCtl} {q : BorderQ × Bool}
    (he : edgeOf n side = some (e, p)) (hc : c = (s.region (regionOf n)).ctl) (run : c.run = true)
    (under : ((s.edge e).ports.look {} p).bq.arrived < c.sched) (linked : s.linkDown n side = false)
    (hq : q = ((s.edge e).ports.look {} p).bq.arrive (s.edgeDue n side))
    (hu : u = s.modEdge e (fun g => { g with ports := g.ports.put {} p { g.ports.look {} p with bq := q.1 } })) :
    s.arriveEdge n side = if q.2 then u.raiseEdge e c.part c.runGen 2 2 c.sched false else u := by
  subst hc
  unfold State.arriveEdge
  simp only [he]
  rw [due_of (by simp [under, linked, run]), ← hq, hu]
  rfl

/-- A word is kept where its number lies in the window of 128 from the one due now. -/
theorem arrive_eq (q : BorderQ) (now : Int) : q.arrive now = ({ q with
    arrived := q.arrived + 1
    sent := q.sent.filter (fun w => w.1 ≠ q.arrived)
    held := q.held ++ (if now ≤ q.arrived ∧ (q.arrived : Int) ≤ now + 127
      then (q.sent.find? fun w => w.1 = q.arrived).toList else []) }, decide (now + 127 < q.arrived)) := by
  unfold BorderQ.arrive
  have same : (now - 1 + 128 < (q.arrived : Int)) = (now + 127 < (q.arrived : Int)) := propext (by omega)
  dsimp only
  simp only [same, decide_eq_true_eq]
  refine Prod.ext ?_ rfl
  cases found : q.sent.find? fun w => w.1 = q.arrived with
  | none => simp
  | some w =>
    by_cases out : (q.arrived : Int) < now ∨ now + 127 < q.arrived
    · rw [if_neg (show ¬ (now ≤ q.arrived ∧ (q.arrived : Int) ≤ now + 127) by omega)]
      simp [out]
    · rw [if_pos (show now ≤ q.arrived ∧ (q.arrived : Int) ≤ now + 127 by omega)]
      simp [out]

/-- The tile and side of an edge port are those whose edge port it is. -/
theorem edgeTile_of_edgeOf {n p : Nat} {side : Dir} {e : EdgeId} (hn : n < 20000) (he : edgeOf n side = some (e, p)) :
    edgeTile e p = (n, side) := by
  cases side with
  | l => exact nomatch he
  | n =>
    simp only [edgeOf, Option.ite_none_right_eq_some, Option.some.injEq, Prod.mk.injEq] at he
    obtain ⟨border, rfl, rfl⟩ := he
    dsimp only [edgeTile]
    rw [if_pos (by omega)]
    exact Prod.ext (by dsimp only; omega) rfl
  | s =>
    simp only [edgeOf, Option.ite_none_right_eq_some, Option.some.injEq, Prod.mk.injEq] at he
    obtain ⟨border, rfl, rfl⟩ := he
    dsimp only [edgeTile]
    rw [if_neg (by omega)]
    exact Prod.ext (by dsimp only; omega) rfl
  | w =>
    simp only [edgeOf, Option.ite_none_right_eq_some, Option.some.injEq, Prod.mk.injEq] at he
    obtain ⟨border, rfl, rfl⟩ := he
    dsimp only [edgeTile]
    rw [if_pos (by omega)]
    refine Prod.ext ?_ rfl
    dsimp only
    split <;> omega
  | e =>
    simp only [edgeOf, Option.ite_none_right_eq_some, Option.some.injEq, Prod.mk.injEq] at he
    obtain ⟨border, rfl, rfl⟩ := he
    dsimp only [edgeTile]
    rw [if_neg (by omega)]
    refine Prod.ext ?_ rfl
    dsimp only
    split <;> omega

theorem lateEdge_run {s : State} {n p : Nat} {side : Dir} {e : EdgeId} {y : EPort} (hn : n < 20000)
    (he : edgeOf n side = some (e, p)) (hy : y = (s.edge e).ports.look {} p) :
    s.lateEdge e p = if y.lateAt = some (s.region (regionOf n)).ctl.sched then s else
      (s.modEdge e fun g => { g with
        ports := g.ports.put {} p { y with lateAt := some (s.region (regionOf n)).ctl.sched } }).raiseEdge e
          (s.region (regionOf n)).ctl.part (s.region (regionOf n)).ctl.runGen 2 1 (s.region (regionOf n)).ctl.sched false := by
  unfold State.lateEdge
  rw [edgeTile_of_edgeOf hn he, hy]

/-- Settles O28: what a border word that arrives, and one that is late, does at a router and at an edge port. -/
theorem borderWords : Obligations.BorderWords := by
  refine ⟨fun s u n a sent c side tr q hn ha hs under linked listens hc hq hu => ?arrival,
    fun s u n p side e c q hn he hc run under linked hq hu => ?edgeArrival, arrive_eq,
    fun s n b k side tr x hn inner plane hx htr named late hb hk => ?lateWord,
    fun s n p side e c y hn he hc tables held shared hy op late => ?lateEdge⟩
  case arrival =>
    rw [exec_borderWordArrival, execBorderWordArrival, onUnit_of (by simpa using hn),
      ← arriveRouter_run ha hs under linked listens hc hq hu]
    cases tr <;> rfl
  case edgeArrival =>
    rw [exec_borderWordArrival, execBorderWordArrival, onUnit_of (by simpa using hn),
      ← arriveEdge_run he hc run under linked hq hu]
  case lateWord =>
    subst hx htr hb hk
    rw [exec_borderWordLate, execBorderWordLate, onUnit_of (by simpa using hn)]
    dsimp only
    rw [if_neg (by decide), due_of (by simp [plane, inner, named, late])]
    unfold State.lateWord
    simp only [List.contains_iff_mem]
    rfl
  case lateEdge =>
    subst hc
    rw [exec_borderWordLate, execBorderWordLate, onUnit_of (by simpa using hn), ← lateEdge_run hn he hy]
    simp only [if_true, he]
    rw [due_of (by subst hy; simp [tables, held, shared, op, late])]

/-! ## What the routers, the edges and the tiles do in a beat leaves the regions -/

theorem modEdge_regions (s : State) (e : EdgeId) (f : Edge → Edge) : (s.modEdge e f).regions = s.regions := by
  cases e <;> rfl

theorem raiseEdge_regions (s : State) (e : EdgeId) (part : Nat) (runGen : BitVec 8) (kind cause beat : Nat)
    (region : Bool) : (s.raiseEdge e part runGen kind cause beat region).regions = s.regions := by
  cases e <;> rfl

theorem lateWord_regions (s : State) (t i : Nat) (transit : Bool) (beat : Nat) :
    (s.lateWord t i transit beat).regions = s.regions := by
  unfold State.lateWord
  dsimp only
  rw [apply_ite State.regions]
  exact ite_self _

theorem lateWords_regions (s : State) (t : Nat) (fs : List (Nat × Nat)) : (s.lateWords t fs).regions = s.regions := by
  refine forAll_same State.regions (fun i u => ?_) _ s
  dsimp only
  split
  · exact lateWord_regions ..
  · rfl

theorem sendWord_regions (s : State) (t o : Nat) (transit : Bool) (w : NWord) :
    (s.sendWord t o transit w).regions = s.regions := by
  unfold State.sendWord
  dsimp only
  split
  · rfl
  · split
    · exact modEdge_regions ..
    · split
      · rfl
      · split
        · rfl
        · rfl

theorem actField_regions (s : State) (t : Nat) (ins : List (NWord × Bool)) (p : Nat × Nat) :
    (s.actField t ins p).regions = s.regions := by
  unfold State.actField
  dsimp only
  split
  · split
    · rfl
    · rfl
  · exact sendWord_regions ..

theorem routerBeat_regions (s : State) (t : Nat) : (s.routerBeat t).regions = s.regions := by
  unfold State.routerBeat
  dsimp only
  refine Eq.trans (b := (List.foldl _ _ _ : State).regions) rfl ?_
  refine List.foldlRecOn (motive := fun u : State => u.regions = s.regions) _ _ (lateWords_regions ..) fun u kept p _ => ?_
  exact (actField_regions ..).trans kept

theorem stagingMissAt_regions (s : State) (e : EdgeId) (p i : Nat) : (s.stagingMissAt e p i).regions = s.regions := by
  unfold State.stagingMissAt
  dsimp only
  split
  · rfl
  · rw [raiseEdge_regions, modEdge_regions]

theorem lateEdge_regions (s : State) (e : EdgeId) (p : Nat) : (s.lateEdge e p).regions = s.regions := by
  unfold State.lateEdge
  dsimp only
  split
  · rfl
  · rw [raiseEdge_regions, modEdge_regions]

theorem edgePortBeat_regions (s : State) (e : EdgeId) (p : Nat) : (s.edgePortBeat e p).regions = s.regions := by
  unfold State.edgePortBeat
  dsimp only
  split
  · rfl
  · refine (modEdge_regions ..).trans ?_
    have late (c : Bool) (u : State) : (if c then u.lateEdge e p else u).regions = u.regions := by
      cases c
      · rfl
      · exact lateEdge_regions ..
    have missed : (match s.portMisses e p with | some i => s.stagingMissAt e p i | none => s).regions = s.regions := by
      split
      · exact stagingMissAt_regions ..
      · rfl
    have acted (b c d : Prop) [Decidable b] [Decidable c] [Decidable d] (u : State) (n : Nat) (f : Router → Router)
        (g : Edge → Edge) :
        (if b then (if c then u else u.modRouter n f) else if d then u.modEdge e g else u).regions = u.regions := by
      split
      · rw [apply_ite State.regions]
        exact ite_self _
      · split
        · exact modEdge_regions ..
        · rfl
    exact (acted ..).trans ((late ..).trans missed)

theorem edgesBeat_regions (s : State) (r : Nat) : (s.edgesBeat r).regions = s.regions := by
  refine List.foldlRecOn (motive := fun u : State => u.regions = s.regions) _ _ rfl fun u kept e _ => ?_
  split
  · refine List.foldlRecOn (motive := fun v : State => v.regions = s.regions) _ _ kept fun v same p _ => ?_
    exact (edgePortBeat_regions ..).trans same
  · exact kept

theorem tileBeat_regions (s0 s : State) (r t : Nat) : (State.tileBeat s0 r t s).regions = s.regions := by
  unfold State.tileBeat
  dsimp only
  split
  · rfl
  · have raised (c : Tile × Nat × Nat) (b : Nat) : (forAll (List.range c.2.2)
        { s.setTile t c.1 with free := c.2.1 } fun _ s => s.raise r 1 1 t b false).regions = s.regions :=
      forAll_same (f := fun _ s => s.raise r 1 1 t b false) State.regions (fun _ _ => rfl) _ _
    generalize Tile.coreBeat _ _ _ _ = c
    exact raised c _

theorem dropLocal_regions (s0 s : State) (t : Nat) : (State.dropLocal s0 t s).regions = s.regions := by
  unfold State.dropLocal
  dsimp only
  split
  · rfl
  · rfl

/-! ## A beat of a region -/

theorem retarget_count (k : HenClk) (f top : Nat) : (k.retarget f top).count = k.count := by
  have branches (a b c : Bool) (j : HenClk) (x y z : Frac) (same : j.count = k.count) :
      (if a then j.setRate x else if b then (if c then { j with rising := false, slowed := 0 }.setRate y else j)
        else j.setRate z).count = k.count := by
    cases a <;> cases b <;> cases c <;> exact same
  exact branches _ _ _ { k with slowing := _ } _ _ _ rfl

theorem beat_count (k : HenClk) (f top : Nat) : (k.beat f top).count = k.count + 1 := by
  unfold HenClk.beat HenClk.nextRate
  rw [retarget_count]
  rw [apply_ite HenClk.count]
  exact ite_self _

/-- In a beat the routers, the edges and the tiles leave every region; the region's own counts then go on. -/
theorem beatOf_region (s : State) (r : Nat) : ∃ tlm, (s.beatOf r).region r = { s.region r with
    clk := (s.region r).clk.beat s.mgt.fMhz (s.region r).pwr.topMhz
    ctl := if (s.region r).ctl.run && !(s.region r).ctl.held
      then { (s.region r).ctl with sched := (s.region r).ctl.sched + 1 } else (s.region r).ctl
    tlm := tlm } := by
  have all (c : Bool) (l : List Nat) (u : State) (f : Nat → State → State) (keeps : ∀ n v, (f n v).regions = v.regions) :
      (if c then forAll l u f else u).regions = u.regions := by
    cases c
    · rfl
    · exact forAll_same State.regions keeps l u
  have edges (c : Bool) (u : State) : (if c then u.edgesBeat r else u).regions = u.regions := by
    cases c
    · rfl
    · exact edgesBeat_regions ..
  unfold State.beatOf
  dsimp only
  rw [State.modRegion_eq, State.region_setRegion, if_pos rfl]
  have kept (u : State) (same : u.regions = s.regions) : u.region r = s.region r := congrArg (·.look {} r) same
  rw [kept _ (((all _ _ _ _ fun n v => dropLocal_regions ..).trans (all _ _ _ _ fun n v => tileBeat_regions ..)).trans
    ((edges _ _).trans (all _ _ _ _ fun n v => routerBeat_regions ..)))]
  exact ⟨_, rfl⟩

theorem swap_bit (l : List Nat) (distinct : l.Nodup) (small : ∀ o ∈ l, o < 5) (a : BitVec 5) (i : Nat) :
    (l.foldl (fun a o => a ^^^ (1#5 <<< o)) a).getLsbD i = (a.getLsbD i ^^ decide (i ∈ l)) := by
  induction l generalizing a with
  | nil => simp
  | cons o l ih =>
    have ho : o < 5 := small o (List.mem_cons_self ..)
    rw [List.nodup_cons] at distinct
    rw [List.foldl_cons, ih distinct.2 fun q mem => small q (List.mem_cons_of_mem _ mem)]
    have bit : (1#5 <<< o).getLsbD i = decide (i = o) := by
      simp only [BitVec.getLsbD_shiftLeft, BitVec.getLsbD_one]
      grind
    rw [BitVec.getLsbD_xor, bit, Bool.xor_assoc]
    by_cases same : i = o
    · simp [same, distinct.1]
    · simp [same]

/-- Settles O29: one beat, the swaps, and the feeds of a router plane. -/
theorem regionBeats : Obligations.RegionBeats := by
  refine ⟨fun s r hr on quiet => ?beat, fun s r => ?counts, fun s u r w hr at_ past run hu => ?pSwap,
    fun s u r w hr at_ past plane hu => ?tSwap, fun x tr => ?swap, fun s u r hr hu => ?loss, fun s r own hr => ?feedBack⟩
  case beat =>
    rw [exec_regionBeat, execRegionBeat, onUnit_of (by simpa using hr), due_of (by simp [on, quiet])]
  case counts =>
    obtain ⟨tlm, same⟩ := beatOf_region s r
    rw [same]
    refine ⟨beat_count .., ?_⟩
    cases (s.region r).ctl.run <;> cases (s.region r).ctl.held <;> rfl
  case pSwap =>
    rw [exec_partitionSwapBeat, execPartitionSwapBeat, onUnit_of (by simpa using hr)]
    simp only [at_]
    rw [due_of (by simp [past, run]), hu]
    rfl
  case tSwap =>
    rw [exec_transitSwapBeat, execTransitSwapBeat, onUnit_of (by simpa using hr)]
    simp only [at_]
    rw [due_of (by simp [past, plane]), hu]
    simp only [List.any_eq_true]
    rfl
  case swap =>
    refine ⟨rfl, fun o small => ?_⟩
    refine (swap_bit _ (List.nodup_range.filter _) (fun q mem => List.mem_range.1 (List.mem_filter.1 mem).1) _ _).trans ?_
    by_cases same : x.transit o = tr
    · rw [if_pos same]
      simp [small, same]
    · rw [if_neg same]
      simp [same]
  case loss =>
    rw [exec_routerPlaneFeedLoss, execRouterPlaneFeedLoss, onUnit_of (by simpa using hr), hu]
    unfold State.planeOff
    simp only [List.contains_iff_mem]
  case feedBack =>
    rw [exec_routerPlaneFeedReturn, execRouterPlaneFeedReturn, onUnit_of (by simpa using hr)]
    dsimp only
    unfold State.feedCheck State.modPwr
    rw [State.modRegion_eq, State.region_setRegion, if_pos rfl]
    dsimp only
    rw [if_pos (by cases own <;> simp)]
    cases on : (s.region r).clk.on
    · rw [if_neg (by decide), State.modClk_eq, State.region_setRegion, if_pos rfl, State.setRegion_setRegion, State.modRegion_eq, on]
      rfl
    · rw [if_pos rfl, State.modRegion_eq, on]
      rfl

end Sys2Proof.Machine
end

section
/-!
SUPPORT. Equal conditionals and equal folds, for a package that imports no library beyond core Lean.
-/
namespace Sys2Proof

theorem ite_congr_iff {α : Type} {p q : Prop} [Decidable p] [Decidable q] {x y u v : α} (same : p ↔ q) (hx : x = u)
    (hy : y = v) : (if p then x else y) = if q then u else v :=
  ite_congr (propext same) (fun _ => hx) fun _ => hy

theorem ite_or_eq {α : Type} {p q : Prop} [Decidable p] [Decidable q] (x y : α) :
    (if p ∨ q then x else y) = if p then x else if q then x else y := by
  by_cases hp : p
  · rw [if_pos (.inl hp), if_pos hp]
  · rw [if_neg hp]
    exact ite_congr_iff (or_iff_right hp) rfl rfl

theorem foldl_congr_mem {α β : Type} {f g : β → α → β} {b : β} {l : List α} (same : ∀ b, ∀ a ∈ l, f b a = g b a) :
    l.foldl f b = l.foldl g b := by
  induction l generalizing b with
  | nil => rfl
  | cons a l ih =>
    rw [List.foldl_cons, List.foldl_cons, same b a (List.mem_cons_self ..)]
    exact ih fun b x mem => same b x (List.mem_cons_of_mem _ mem)

end Sys2Proof
end

section
/-!
PROOFS. The tokens on the express channel, and the norm reports.
-/
namespace Sys2Proof.Machine

/-! ## The express channel -/

theorem inject_eq (s : State) (n : NodeId) (k : Token) :
    s.inject n k = { s with flight := s.flight ++ (s.dests n k).map fun d => (d, k) } := by
  have flown (l : List NodeId) (u : State) :
      l.foldl (fun s d => s.fly d k) u = { u with flight := u.flight ++ l.map fun d => (d, k) } := by
    induction l generalizing u with
    | nil => simp
    | cons d l ih =>
      rw [List.foldl_cons, ih, List.map_cons, List.append_cons]
      rfl
  exact flown _ s

theorem nextToken_first {q : List Token} {k : Token} (next : nextToken q = some k) :
    k ∈ q ∧ ∀ j ∈ q, classOrder.idxOf k.cls.toNat ≤ classOrder.idxOf j.cls.toNat := by
  unfold nextToken at next
  split at next
  · next c first =>
    refine ⟨List.mem_of_find?_eq_some next, fun j mem => ?_⟩
    have cls : k.cls.toNat = c := by simpa using List.find?_some next
    obtain ⟨_, i, hi, rfl, before⟩ := List.find?_eq_some_iff_getElem.1 first
    rw [cls, List.Nodup.idxOf_getElem (by decide)]
    refine Nat.not_lt.1 fun earlier => ?_
    have waits := before (classOrder.idxOf j.cls.toNat) earlier
    rw [List.getElem_idxOf] at waits
    simp only [Bool.not_eq_true', List.any_eq_false, decide_eq_true_eq] at waits
    exact waits j mem rfl
  · exact nomatch next

theorem edgeInject_run {s : State} {n : NodeId} {e : EdgeId} {k : Token} (next : nextToken (s.edge e).queue = some k)
    (may : mayInject (s.edge e).lastInject (s.edgeCount e) = true) :
    s.edgeInject e n = (s.modEdge e fun g => { g with
      queue := g.queue.erase k, lastInject := s.edgeCount e }).inject n k := by
  unfold State.edgeInject
  simp only [next]
  rw [due_of may]

/-- Settles O33: the express channel, a credit, and fault tokens. -/
theorem tokenTraffic : Obligations.TokenTraffic := by
  refine ⟨fun s r k hr plane next apart => ?hen, fun s k next may => ?mc, fun s n e k node next may => ?edge,
    fun a b => ⟨rfl, rfl, fun le => ?may⟩, inject_eq, fun q k => nextToken_first,
    fun s u k key total cls known hkey htotal hu => ?credit, fun s r k hr cls plane known fresh => ?henFault,
    fun s k cls known => ?mcFault⟩
  case hen =>
    rw [exec_expressTokenInject, execExpressTokenInject]
    dsimp only
    rw [onUnit_of (by simpa using hr)]
    simp only [next]
    rw [due_of]
    rw [plane]
    split
    · next b last => simpa using apart b last
    · rfl
  case mc =>
    rw [exec_expressTokenInject, execExpressTokenInject]
    dsimp only
    rw [onUnit_true]
    simp only [next]
    rw [due_of may]
  case edge =>
    obtain ⟨x, hx, rfl, rfl⟩ | ⟨d, hd, rfl, rfl⟩ := node
    · rw [exec_expressTokenInject, execExpressTokenInject, onUnit_of (by simpa using hx), edgeInject_run next may]
    · rw [exec_expressTokenInject, execExpressTokenInject, onUnit_of (by simpa using hd), edgeInject_run next may]
  case may =>
    simp only [mayInject, decide_eq_true_eq]
    omega
  case credit =>
    subst hu hkey htotal
    rw [exec_creditToken, execCreditToken, onUnit_true, due_of (by simp [cls])]
    dsimp only
    rw [if_neg (by simp [known])]
    simp only [Bool.and_eq_true, decide_eq_true_eq]
  case henFault =>
    rw [exec_faultToken, execFaultToken, onUnit_of (by simpa using hr), due_of (by simp [cls])]
    unfold State.receive
    rw [if_neg (by simp [plane]), if_neg (by simp [known]), if_neg (by simp [fresh])]
  case mcFault =>
    rw [exec_faultToken, execFaultToken, onUnit_true, due_of (by simp [cls]), if_neg (by simp [known])]

/-! ## Norm reports -/

theorem normToken_lead {s : State} {r kind : Nat} {k : Token} (heard : Heard s r 7 kind k)
    (lead : s.leadOf (s.region r).ctl.part = some r) (f : Nat → State → State) :
    normToken kind r k s f = .next (f (s.region r).ctl.part (s.landed (.hen r) k)) := by
  rw [normToken, henToken_run heard]
  dsimp only
  split
  · next l same =>
    obtain rfl := Option.some.inj (lead.symm.trans same)
    rw [if_pos rfl]
    rfl
  · next none_ => exact nomatch lead.symm.trans none_

theorem normToken_other {s : State} {r l kind : Nat} {k : Token} (heard : Heard s r 7 kind k)
    (lead : s.leadOf (s.region r).ctl.part = some l) (other : l ≠ r) (f : Nat → State → State) :
    normToken kind r k s f = .next ((s.landed (.hen r) k).henQueue r { k with scope := 1 }) := by
  rw [normToken, henToken_run heard]
  dsimp only
  split
  · next m same =>
    obtain rfl := Option.some.inj (lead.symm.trans same)
    rw [if_neg other]
  · next none_ => exact nomatch lead.symm.trans none_

/-- Settles O34: norm pairs and ends are kept at the lead hen, and the records are made of them. -/
theorem normReports : Obligations.NormReports := by
  refine ⟨fun s r p ph i n k hp lead hph hi hn => ⟨fun heard => ?pair, fun heard => ?end_⟩,
    fun s r l k lead other => ⟨fun heard => ?passPair, fun heard => ?passEnd⟩,
    fun s p ph o pairs ended part hp hph ho hpairs hended some_ any_ why => ?emit,
    fun s p ph occ tag flags part pairs mine w u r hm hw hu hr hf t ht => ?record⟩
  case pair =>
    subst hp hph hi hn
    rw [exec_normPair, execNormPair, normToken_lead heard lead]
    rfl
  case end_ =>
    subst hp hph hi hn
    rw [exec_normEnd, execNormEnd, normToken_lead heard lead]
    rfl
  case passPair => rw [exec_normPair, execNormPair, normToken_other heard lead other]
  case passEnd => rw [exec_normEnd, execNormEnd, normToken_other heard lead other]
  case emit =>
    subst ho hpairs hended
    rw [exec_normRecordEmit, execNormRecordEmit, onUnit_of (by simp [hp, hph])]
    dsimp only
    have allEnded : ((s.contributors p).all fun c => decide
        (((s.part p).norm.look {} ph).occurrence ≤ ((s.part p).norm.look {} ph).ends.look 0 c.1)) = !part := by
      obtain ⟨rfl, all⟩ | ⟨rfl, c, mem, open_, -⟩ := why
      · simpa using all
      · simpa using ⟨c.1, ⟨c.2, mem⟩, by simpa using open_⟩
    rw [due_of, allEnded, Bool.not_not]
    · rfl
    · simp only [Bool.and_eq_true, Bool.or_eq_true, Bool.not_eq_true', List.isEmpty_eq_false_iff, List.any_eq_true,
        decide_eq_true_eq]
      refine ⟨⟨some_, any_⟩, ?_⟩
      obtain ⟨rfl, -⟩ | ⟨-, c, mem, -, halted, short⟩ := why
      · exact .inl allEnded
      · exact .inr ⟨c, mem, halted, short⟩
  case record =>
    subst hm hw hu hr hf ht
    unfold State.emitNorm
    simp only [Bool.or_eq_true, decide_eq_true_eq]

end Sys2Proof.Machine
end

section
/-!
PROOFS. Writes of registers: the queues, and the holds and swaps that a party asks for.
-/
namespace Sys2Proof.Machine

/-! ## FLUSH and POP -/

/-- A write of 1 carries FLUSH where the party may write it. -/
theorem control_flush (q : GQueue) {o : Dword} (may : o.getLsbD 0 = true) (pops : Bool) :
    q.control (1 &&& o) pops = q.flush := if_pos (ones_bit rfl may)

/-- A write of 2 carries POP alone. -/
theorem control_pop (q : GQueue) {o : Dword} (may : o.getLsbD 1 = true) : q.control (2 &&& o) true = q.pop := by
  unfold GQueue.control
  rw [if_neg (by rw [ones_bit_not o rfl]; decide), if_pos (by rw [ones_bit rfl may]; rfl)]

theorem writeRgn_control (s : State) (r : Nat) (wm v one : Dword) : s.writeRgn r 0x610 wm v one =
    s.modRegion r fun x => { x with faults := x.faults.control one false } := rfl

theorem writeMgt_control (s : State) (wm v one : Dword) : s.writeMgt 0x48 wm v one =
    s.modMgt fun m => { m with cperq := m.cperq.control one true } := rfl

theorem writePage_control (s : State) (p : Nat) (wm v one : Dword) : s.writePage (p + 1) 0x48 wm v one =
    some (s.modPart p fun x => { x with normq := x.normq.control one true }) := rfl

theorem writeEdg_control (s : State) (x : Nat) (wm v one : Dword) : s.writeEdg x 0x58 wm v one =
    if one.getLsbD 0 then s.flushOx x else s := rfl

theorem writeDie_flush {k : Nat} (hk : k < 12) {one : Dword} (flush : one.getLsbD 0 = true) (s : State) (d : Nat)
    (wm v : Dword) : s.writeDie d (0x108 + 16 * k) wm v one = s.flushFq d k := by
  have cases : k = 0 ∨ k = 1 ∨ k = 2 ∨ k = 3 ∨ k = 4 ∨ k = 5 ∨ k = 6 ∨ k = 7 ∨ k = 8 ∨ k = 9 ∨ k = 10 ∨ k = 11 := by omega
  rcases cases with rfl | rfl | rfl | rfl | rfl | rfl | rfl | rfl | rfl | rfl | rfl | rfl
  all_goals exact if_pos flush

theorem flushOx_eq (s : State) (x : Nat) : ((s.site x).oxq.items = [] → s.flushOx x = s) ∧
    ∀ i l, (s.site x).oxq.items = i :: l → s.flushOx x = (i :: l).foldl (fun u k => u.askAgain (headOf k))
      ((s.modSite x fun y => { y with oxq := y.oxq.flush }).freed x (s.site x).oxq.used (askerDie (headOf i))) := by
  unfold State.flushOx
  refine ⟨fun none_ => ?_, fun i l some_ => ?_⟩
  · simp only [none_]
  · simp only [some_]

theorem flushFq_eq {s : State} {p d k : Nat} {q : GQueue} (hd : d = p / 12) (hk : k = p % 12)
    (hq : q = (s.iod d).fq.look { n := 9 } k) : (q.items = [] → s.flushFq d k = s) ∧
    (q.items ≠ [] → s.flushFq d k =
      (s.modIod d fun x => { x with fq := x.fq.put { n := 9 } k q.flush }).freed (0x100 + p) q.used d) := by
  have hp : 0x100 + 12 * d + k = 0x100 + p := by omega
  unfold State.flushFq
  dsimp only
  rw [← hq, hp]
  exact ⟨fun none_ => if_pos (by simp [none_]), fun some_ => if_neg (by simpa using some_)⟩

/-- Settles O22: what FLUSH and POP do to the queues, and what a producer's push does. -/
theorem queueRegisters : Obligations.QueueRegisters := by
  refine ⟨fun s w v hv => ⟨fun r hr permitted may => ?fault, fun permitted may => ?cper, fun p hp permitted may => ?norm,
      fun x hx permitted may => ?ox, fun p d k hp hd hk permitted may q hq => ?fabric⟩,
    fun s w v hv => ⟨fun permitted may => ?popCper, fun p hp permitted may => ?popNorm⟩,
    fun s key n d total ht => ?freed, fun q => rfl, fun q i l some_ => ?pop, fun q none_ => ?empty, fun q i => rfl⟩
  case fault =>
    subst hv
    rw [exec_flush, execFlush]
    dsimp only [queueAddr]
    refine regRow_run (by simpa [queueOk] using hr) permitted ((writeReg_rgn ..).trans (congrArg some ?_))
    rw [writeRgn_control]
    simp only [control_flush _ may]
  case cper =>
    subst hv
    rw [exec_flush, execFlush]
    dsimp only [queueAddr]
    refine regRow_run rfl permitted ((writeReg_mgt ..).trans (congrArg some ?_))
    rw [writeMgt_control]
    simp only [control_flush _ may]
  case norm =>
    subst hv
    rw [exec_flush, execFlush]
    dsimp only [queueAddr]
    refine regRow_run (by simpa [queueOk] using hp) permitted ((writeReg_page ..).trans ?_)
    rw [writePage_control]
    simp only [control_flush _ may]
  case ox =>
    subst hv
    have flushed (u : State) (hu : s.flushOx x = u) : exec (.flush w (.ox x)) s = .next u := by
      rw [exec_flush, execFlush]
      dsimp only [queueAddr]
      exact regRow_run (by simpa [queueOk] using hx) permitted
        ((writeReg_edg ..).trans (congrArg some ((writeEdg_control ..).trans ((if_pos (ones_bit rfl may)).trans hu))))
    exact ⟨fun none_ => flushed s ((flushOx_eq s x).1 none_), fun i l some_ => flushed _ ((flushOx_eq s x).2 i l some_)⟩
  case fabric =>
    subst hv
    have flushed (u : State) (hu : s.flushFq d k = u) : exec (.flush w (.fabric p)) s = .next u := by
      rw [exec_flush, execFlush]
      dsimp only [queueAddr]
      rw [← hd, ← hk]
      exact regRow_run (by simpa [queueOk] using hp) permitted
        ((writeReg_die ..).trans (congrArg some ((writeDie_flush (by omega) (ones_bit rfl may) ..).trans hu)))
    exact ⟨fun none_ => flushed s ((flushFq_eq hd hk hq).1 none_), fun some_ => flushed _ ((flushFq_eq hd hk hq).2 some_)⟩
  case popCper =>
    subst hv
    rw [exec_pop, execPop]
    dsimp only [queueAddr]
    refine regRow_run rfl permitted ((writeReg_mgt ..).trans (congrArg some ?_))
    rw [writeMgt_control]
    simp only [control_pop _ may]
  case popNorm =>
    subst hv
    rw [exec_pop, execPop]
    dsimp only [queueAddr]
    refine regRow_run (by simpa [queueOk] using hp) permitted ((writeReg_page ..).trans ?_)
    rw [writePage_control]
    simp only [control_pop _ may]
  case freed =>
    subst ht
    rfl
  case pop =>
    unfold GQueue.pop
    simp only [some_]
  case empty =>
    unfold GQueue.pop
    simp only [none_]

/-! ## Holds and swaps -/

/-- A request without a beat where a hold stands adds its reason (R170). -/
theorem holdRequest_standing {s : State} {r : Nat} (lead : (s.region r).ctl.lead = true)
    (run : (s.region r).ctl.run = true) (stands : (s.region r).ctl.hstate = .announced ∨ (s.region r).ctl.hstate = .held)
    (k : Nat) :
    s.holdRequest r 0 k = s.modCtl r fun c => { c with reasons := c.reasons ||| BitVec.ofNat 8 k } := by
  unfold State.holdRequest
  dsimp only
  rw [lead, run, if_neg (by decide), if_neg (by simp)]
  obtain at_ | at_ := stands
  all_goals
    rw [at_, if_neg (by decide), if_neg (by simp)]
    rfl

/-- A request without a beat where a resume is announced puts the next hold 96 beats past the last. -/
theorem holdRequest_resuming {s : State} {r n : Nat} (lead : (s.region r).ctl.lead = true)
    (run : (s.region r).ctl.run = true) (resuming : (s.region r).ctl.hstate = .resuming)
    (hn : n = (s.region r).ctl.holdBeat + 96) (k : Nat) :
    s.holdRequest r 0 k = (s.modCtl r fun c => { c with
      reasons := c.reasons ||| BitVec.ofNat 8 k, hstate := .announced, annHold := n, atHold := some n
      holdBeat := n }).announce r 0 n ((s.region r).ctl.reasons ||| BitVec.ofNat 8 k).toNat := by
  have merged : (s.modCtl r fun c => { c with reasons := (s.region r).ctl.reasons ||| BitVec.ofNat 8 k }).modCtl r
      (fun c => { c with hstate := .announced, annHold := n, atHold := some n, holdBeat := n }) =
      s.modCtl r fun c => { c with
        reasons := c.reasons ||| BitVec.ofNat 8 k, hstate := .announced, annHold := n, atHold := some n
        holdBeat := n } := by
    rw [modCtl_modCtl]
    rfl
  unfold State.holdRequest
  dsimp only
  rw [lead, run, if_neg (by decide), if_neg (by simp), resuming, if_pos (by decide), if_pos (by decide), ← hn,
    Nat.zero_max, merged]

theorem writeRgn_hold (s : State) (r : Nat) (wm v one : Dword) : s.writeRgn r 0x220 wm v one =
    have u := if one.getLsbD 0 then s.holdRequest r 0 16 else if one.getLsbD 1 then s.resumeRequest r 16 else s
    if one.getLsbD 2 then u.holdRequest r 0 32 else if one.getLsbD 3 then u.resumeRequest r 32 else u := rfl

theorem foldl_max_of_largest {l : List Nat} {a k : Nat} (above : ∀ x ∈ l, x ≤ k) (le : a ≤ k) (here : a = k ∨ k ∈ l) :
    l.foldl max a = k := by
  induction l generalizing a with
  | nil => simpa using here
  | cons x l ih =>
    have hx := above x (List.mem_cons_self ..)
    refine ih (fun y mem => above y (List.mem_cons_of_mem _ mem)) (Nat.max_le.2 ⟨le, hx⟩) ?_
    rcases here with rfl | here
    · exact .inl (Nat.max_eq_left hx)
    · rcases List.mem_cons.1 here with rfl | later
      · exact .inl (Nat.max_eq_right le)
      · exact .inr later

/-- The largest region count is the one that none exceeds. -/
theorem aheadCount_largest {s : State} {k : Nat} (above : ∀ r, r < 40 → (s.region r).clk.count ≤ k)
    (here : ∃ r, r < 40 ∧ (s.region r).clk.count = k) : s.aheadCount (List.range 40) = k := by
  obtain ⟨r, hr, rfl⟩ := here
  refine foldl_max_of_largest (fun x mem => ?_) (Nat.zero_le _) (.inr (List.mem_map.2 ⟨r, List.mem_range.2 hr, rfl⟩))
  obtain ⟨q, hq, rfl⟩ := List.mem_map.1 mem
  exact above q (List.mem_range.1 hq)

/-- Settles O24: holds and swaps that a party asks for. -/
theorem holdRegisters : Obligations.HoldRegisters := by
  refine ⟨fun s w r hr => ⟨fun permitted may => ?hostHold, fun permitted may => ?hostResume, fun permitted may => ?fmHold,
      fun permitted may => ?fmResume⟩, fun s r k c hc => ?requests,
    fun s p beat l b i hp lead img running swaps run hb => ?pSwap,
    fun s regions beat k ready above here => ?tSwap⟩
  case hostHold =>
    rw [exec_hostHold, execHostHold]
    refine regRow_run (by simpa using hr) permitted ((writeReg_rgn ..).trans (congrArg some ?_))
    rw [writeRgn_hold, if_neg (by rw [ones_bit_not _ rfl]; decide), if_neg (by rw [ones_bit_not _ rfl]; decide),
      if_pos (ones_bit rfl may)]
  case hostResume =>
    rw [exec_hostResume, execHostResume]
    refine regRow_run (by simpa using hr) permitted ((writeReg_rgn ..).trans (congrArg some ?_))
    rw [writeRgn_hold, if_neg (by rw [ones_bit_not _ rfl]; decide), if_neg (by rw [ones_bit_not _ rfl]; decide),
      if_neg (by rw [ones_bit_not _ rfl]; decide), if_pos (ones_bit rfl may)]
  case fmHold =>
    rw [exec_fmHold, execFmHold]
    refine regRow_run (by simpa using hr) permitted ((writeReg_rgn ..).trans (congrArg some ?_))
    rw [writeRgn_hold, if_pos (ones_bit rfl may), if_neg (by rw [ones_bit_not _ rfl]; decide),
      if_neg (by rw [ones_bit_not _ rfl]; decide)]
  case fmResume =>
    rw [exec_fmResume, execFmResume]
    refine regRow_run (by simpa using hr) permitted ((writeReg_rgn ..).trans (congrArg some ?_))
    rw [writeRgn_hold, if_neg (by rw [ones_bit_not _ rfl]; decide), if_pos (ones_bit rfl may),
      if_neg (by rw [ones_bit_not _ rfl]; decide), if_neg (by rw [ones_bit_not _ rfl]; decide)]
  case requests =>
    subst hc
    refine ⟨fun idle => ⟨holdRequest_idle idle 0 k, resumeRequest_idle idle k⟩, fun lead run =>
      ⟨resumeRequest_leads lead run k, fun stands => holdRequest_standing lead run stands k, fun h at_ => ?_⟩⟩
    obtain ⟨running, hh⟩ | ⟨resuming, hh⟩ := at_
    · rw [holdRequest_running (n := h) lead run running (by rw [Nat.zero_max, hh]) rfl, if_neg (by simp)]
    · exact holdRequest_resuming lead run resuming hh k
  case pSwap =>
    rw [exec_partitionSwapRequest, execPartitionSwapRequest, onUnit_of (by simpa using hp)]
    simp only [lead, img]
    rw [due_of (by simp [running, swaps, run]), ← hb]
    rfl
  case tSwap =>
    rw [exec_transitSwapRequest, execTransitSwapRequest, onUnit_true, due_of ready, aheadCount_largest above here]

end Sys2Proof.Machine
end

section
/-!
PROOFS. Writes of the registers of a router: the slot table, the periods, the slack and the transit outputs.
-/
namespace Sys2Proof.Machine

/-! ## Fields of a word -/

theorem setField_bit (e : Dword) (lo n x k : Nat) (hn : n ≤ 64) (hk : k < 64) :
    (setField e lo n x).getLsbD k = if lo ≤ k ∧ k < lo + n then x.testBit (k - lo) else e.getLsbD k := by
  unfold setField
  have mask : (BitVec.ofNat 64 (2 ^ n - 1) <<< lo).getLsbD k = decide (lo ≤ k ∧ k < lo + n) := by
    rw [BitVec.getLsbD_shiftLeft, BitVec.getLsbD_ofNat, Nat.testBit_two_pow_sub_one]
    by_cases below : k < lo
    · simp [below, show ¬ lo ≤ k by omega]
    · simp [below, hk, show k - lo < 64 by omega, show lo ≤ k by omega]
      omega
  rw [BitVec.getLsbD_or, BitVec.getLsbD_and, BitVec.getLsbD_and, BitVec.getLsbD_not, mask]
  by_cases inside : lo ≤ k ∧ k < lo + n
  · rw [if_pos inside, BitVec.getLsbD_shiftLeft, BitVec.getLsbD_ofNat]
    simp [inside, hk, show k - lo < 64 by omega, show ¬ k < lo by omega]
  · simp [inside, hk]

theorem entryField_setField (e v : Dword) {q o : Nat} (hq : q < 5) (ho : o < 5) :
    entryField (setField e (12 * q) 12 (entryField v q)) o = if o = q then entryField v o else entryField e o := by
  unfold entryField
  split
  · next same =>
    subst same
    refine bits_congr (by omega) fun k lo hi => ?_
    rw [setField_bit _ _ _ _ _ (by decide) (by omega), if_pos (by omega)]
    unfold bits
    rw [BitVec.testBit_toNat, BitVec.getLsbD_extractLsb']
    rw [decide_eq_true (by omega), show 12 * o + (k - 12 * o) = k by omega, Bool.true_and]
  · refine bits_congr (by omega) fun k lo hi => ?_
    rw [setField_bit _ _ _ _ _ (by decide) (by omega), if_neg (by omega)]

/-- Putting some fields into an entry leaves the others. -/
theorem entryField_foldl (l : List Nat) (small : ∀ q ∈ l, q < 5) (v e : Dword) {o : Nat} (ho : o < 5) :
    entryField (l.foldl (fun e q => setField e (12 * q) 12 (entryField v q)) e) o =
      if o ∈ l then entryField v o else entryField e o := by
  induction l generalizing e with
  | nil => simp
  | cons q l ih =>
    rw [List.foldl_cons, ih (fun p mem => small p (List.mem_cons_of_mem _ mem)),
      entryField_setField _ _ (small q (List.mem_cons_self ..)) ho]
    by_cases later : o ∈ l
    · simp [later]
    · by_cases same : o = q
      · simp [same]
      · simp [later, same]

/-! ## The checked writes -/

theorem writeSlot_eq {s : State} {n : Nat} {part fm : Bool} {v : Dword} {x : Router} {cur : Dword} {ch : List Nat}
    {bad out busy : Bool} (hx : x = s.router n) (hcur : cur = (x.bank x.selBank).look 0 x.selPos.toNat)
    (hch : ch = (List.range 5).filter fun o => (if x.transit o then fm else part) && entryField v o ≠ entryField cur o)
    (hbad : bad = ch.any fun o => !x.validField (fun i => s.inTransit n (dirOf i)) o (entryField v o))
    (hout : out = ch.any fun o => !x.transit o && !s.confined n o (entryField v o))
    (hbusy : busy = ch.any fun o => s.bankActive n o x.selBank) :
    s.writeSlot n part fm v = s.setRouter n ((if refusal bad false out busy false ≠ 0 then x
      else if x.selBank
        then { x with bank1 := x.bank1.put 0 x.selPos.toNat (ch.foldl (fun e o => setField e (12 * o) 12 (entryField v o)) cur) }
        else { x with bank0 := x.bank0.put 0 x.selPos.toNat (ch.foldl (fun e o => setField e (12 * o) 12 (entryField v o)) cur) }
      ).status (refusal bad false out busy false)) := by
  subst hbad hout hbusy hch hcur hx
  rfl

theorem refused_status {x y : Router} {code : Nat} (bad : code ≠ 0) : (if code ≠ 0 then x else y).status code =
    { x with last := code, refused := true, count := min (x.count + 1) 65535 } := by
  rw [if_pos bad]
  exact if_neg bad

theorem taken_status (x y : Router) : (if (0 : Nat) ≠ 0 then x else y).status 0 = { y with last := 0 } := by
  rw [if_neg (by simp)]
  exact if_pos rfl

/-- Settles O23: the checked writes of a router's registers. -/
theorem routerRegisters : Obligations.RouterRegisters := by
  refine ⟨fun s w n v hn => ⟨fun permitted some_ => ?slot, fun permitted some_ => ?period, fun permitted some_ => ?slack,
      fun permitted some_ => ?tOut⟩,
    fun s n part fm v x cur ch hx hcur hch good inside free hgood hinside hfree => ?writeSlot,
    fun s n v x hx now hnow => ?writePeriods, fun s n v => ?writeSlack, fun s n v used hused => ?writeTOut⟩
  case slot =>
    rw [exec_rtrStData, execRtrStData]
    exact regRow_run (by simpa using hn) permitted ((writeReg_tile ..).trans (congrArg some (if_neg some_)))
  case period =>
    rw [exec_rtrPeriod, execRtrPeriod]
    exact regRow_run (by simpa using hn) permitted ((writeReg_tile ..).trans (congrArg some (if_neg some_)))
  case slack =>
    rw [exec_rtrSlack, execRtrSlack]
    exact regRow_run (by simpa using hn) permitted ((writeReg_tile ..).trans (congrArg some (if_neg some_)))
  case tOut =>
    rw [exec_tOut, execTOut]
    exact regRow_run (by simpa using hn) permitted ((writeReg_tile ..).trans (congrArg some (if_neg some_)))
  case writeSlot =>
    subst hgood hinside hfree
    have eq := writeSlot_eq (s := s) (n := n) (part := part) (fm := fm) (v := v) hx hcur rfl rfl rfl rfl
    generalize hl : ((List.range 5).filter fun o =>
      (if x.transit o then fm else part) && entryField v o ≠ entryField cur o) = l at eq
    have mem (o : Nat) : o ∈ l ↔ ch o := by simp [← hl, hch]
    have bad : (l.any fun o => !x.validField (fun i => s.inTransit n (dirOf i)) o (entryField v o)) = true ↔
        ∃ o, ch o ∧ ¬ x.validField (fun i => s.inTransit n (dirOf i)) o (entryField v o) = true := by simp [mem]
    have out : (l.any fun o => !x.transit o && !s.confined n o (entryField v o)) = true ↔
        ∃ o, ch o ∧ ¬ (x.transit o = true ∨ s.confined n o (entryField v o) = true) := by simp [mem]
    have busy : (l.any fun o => s.bankActive n o x.selBank) = true ↔
        ∃ o, ch o ∧ ¬ s.bankActive n o x.selBank = false := by simp [mem]
    refine ⟨fun all => ?_, fun code why => ?_⟩
    · rw [Bool.eq_false_iff.2 (mt bad.1 (by grind)), Bool.eq_false_iff.2 (mt out.1 (by grind)),
        Bool.eq_false_iff.2 (mt busy.1 (by grind))] at eq
      refine ⟨_, eq.trans ((congrArg _ (taken_status ..)).trans (congrArg _ (apply_ite (fun y : Router => { y with last := 0 }) ..))),
        fun o ho => ?_⟩
      rw [entryField_foldl l (fun q hq => by have := (mem q).1 hq; grind) v cur ho]
      by_cases owned : (if x.transit o then fm else part) = true
      · rw [if_pos owned]
        by_cases changed : entryField v o = entryField cur o
        · rw [changed, ite_self]
        · rw [if_pos ((mem o).2 (by rw [hch]; exact ⟨ho, owned, changed⟩))]
      · rw [if_neg owned, if_neg fun h => owned (by have := (mem o).1 h; grind)]
    · have code_eq : refusal (l.any fun o => !x.validField (fun i => s.inTransit n (dirOf i)) o (entryField v o)) false
          (l.any fun o => !x.transit o && !s.confined n o (entryField v o)) (l.any fun o => s.bankActive n o x.selBank) false
          = code ∧ code ≠ 0 := by
        obtain ⟨invalid, rfl⟩ | ⟨valid, loose, rfl⟩ | ⟨fits, active, rfl⟩ := why
        · rw [bad.2 invalid]
          exact ⟨rfl, by decide⟩
        · rw [Bool.eq_false_iff.2 (mt bad.1 (by grind)), out.2 loose]
          exact ⟨rfl, by decide⟩
        · rw [Bool.eq_false_iff.2 (mt bad.1 (by grind)), Bool.eq_false_iff.2 (mt out.1 (by grind)), busy.2 active]
          exact ⟨rfl, by decide⟩
      rw [eq, code_eq.1, refused_status code_eq.2]
  case writePeriods =>
    have code (b c : Bool) (k : Nat) (hb : (now.any fun q => decide (q.1 ≠ q.2.1) && (q.2.1 = 0 || decide (512 < q.2.1))) = b)
        (hc : (now.any fun q => decide (q.1 ≠ q.2.1) &&
          (List.range 5).any fun o => x.transit o = q.2.2.1 && s.bankActive n o q.2.2.2) = c) (hk : refusal b false false c false = k) :
        s.writePeriods n v = s.setRouter n ((if k ≠ 0 then x else { x with
          pp0 := bits v 9 0, pp1 := bits v 25 16, tp0 := bits v 41 32, tp1 := bits v 57 48 }).status k) := by
      subst hb hc hk hnow hx
      unfold State.writePeriods
      simp only [List.any_filter]
    have bad : (now.any fun q => decide (q.1 ≠ q.2.1) && (q.2.1 = 0 || decide (512 < q.2.1))) = true ↔
        ∃ q ∈ now, q.1 ≠ q.2.1 ∧ ¬ (1 ≤ q.2.1 ∧ q.2.1 ≤ 512) := by
      have outside (k : Nat) : (k = 0 ∨ 512 < k) ↔ ¬ (1 ≤ k ∧ k ≤ 512) := by omega
      simp only [List.any_eq_true, Bool.and_eq_true, Bool.or_eq_true, decide_eq_true_eq, outside]
    have busy : (now.any fun q => decide (q.1 ≠ q.2.1) &&
          (List.range 5).any fun o => x.transit o = q.2.2.1 && s.bankActive n o q.2.2.2) = true ↔
        ∃ q ∈ now, q.1 ≠ q.2.1 ∧ ∃ o, o < 5 ∧ x.transit o = q.2.2.1 ∧ s.bankActive n o q.2.2.2 = true := by
      simp only [List.any_eq_true, Bool.and_eq_true, decide_eq_true_eq, List.mem_range]
    refine ⟨fun all => ?_, fun k why => ?_⟩
    · rw [code _ _ 0 (Bool.eq_false_iff.2 (mt bad.1 (by grind))) (Bool.eq_false_iff.2 (mt busy.1 (by grind))) rfl,
        taken_status]
    · obtain ⟨invalid, rfl⟩ | ⟨valid, active, rfl⟩ := why
      · rw [code _ _ 3 (bad.2 invalid) rfl rfl, refused_status (by decide)]
      · rw [code _ _ 1 (Bool.eq_false_iff.2 (mt bad.1 (by grind))) (busy.2 active) rfl, refused_status (by decide)]
  case writeSlack =>
    have same {x : BitVec 6} {lo : Nat} : x.toNat = (v.extractLsb' lo 6).toNat ↔ x = v.extractLsb' lo 6 := BitVec.toNat_inj
    have code (b : Bool) (k : Nat) (hb : ((decide ((s.router n).slackN.toNat ≠ (v.extractLsb' 0 6).toNat) ||
          decide ((s.router n).slackE.toNat ≠ (v.extractLsb' 8 6).toNat) ||
          decide ((s.router n).slackS.toNat ≠ (v.extractLsb' 16 6).toNat) ||
          decide ((s.router n).slackW.toNat ≠ (v.extractLsb' 24 6).toNat)) && (s.region (regionOf n)).ctl.assigned &&
          s.running (s.region (regionOf n)).ctl.part) = b) (hk : refusal false false false false b = k) :
        s.writeSlack n v = s.setRouter n ((if k ≠ 0 then s.router n else { s.router n with
          slackN := v.extractLsb' 0 6, slackE := v.extractLsb' 8 6
          slackS := v.extractLsb' 16 6, slackW := v.extractLsb' 24 6 }).status k) := by
      subst hb hk
      rfl
    simp only [ne_eq, same] at code
    by_cases changed : ((s.region (regionOf n)).ctl.assigned && s.running (s.region (regionOf n)).ctl.part) = true ∧
          ¬ ((s.router n).slackN = v.extractLsb' 0 6 ∧ (s.router n).slackE = v.extractLsb' 8 6 ∧
            (s.router n).slackS = v.extractLsb' 16 6 ∧ (s.router n).slackW = v.extractLsb' 24 6)
    · rw [if_pos changed, code true 5 (by grind) rfl]
      exact congrArg _ (refused_status (by decide))
    · rw [if_neg changed, code false 0 (by grind) rfl]
      exact congrArg _ (taken_status ..)
  case writeTOut =>
    have code (b : Bool) (k : Nat) (hb : (([0, 1, 2, 3] : List Nat).any fun o =>
          decide ((s.router n).tOut.getLsbD o ≠ v.getLsbD o) && (s.imageOn (regionOf n) ||
            (neighbour n (dirOf o)).any fun u => s.imageOn (regionOf u))) = b) (hk : refusal false b false false false = k) :
        s.writeTOut n v = s.setRouter n ((if k ≠ 0 then s.router n else { s.router n with tOut := v }).status k) := by
      subst hb hk
      unfold State.writeTOut
      simp only [List.any_filter]
    have small (o : Nat) : o ∈ ([0, 1, 2, 3] : List Nat) ↔ o < 4 := by simp; omega
    have bad : (([0, 1, 2, 3] : List Nat).any fun o =>
          decide ((s.router n).tOut.getLsbD o ≠ v.getLsbD o) && (s.imageOn (regionOf n) ||
            (neighbour n (dirOf o)).any fun u => s.imageOn (regionOf u))) = true ↔ ∃ o, used o := by
      simp only [List.any_eq_true, Bool.and_eq_true, Bool.or_eq_true, decide_eq_true_eq, hused, small, Option.any_eq_true]
    refine ⟨fun none_ => ?_, fun some_ => ?_⟩
    · rw [code _ 0 (Bool.eq_false_iff.2 (mt bad.1 (by simpa using none_))) rfl, taken_status]
    · rw [code _ 2 (bad.2 some_) rfl, refused_status (by decide)]

end Sys2Proof.Machine
end

section
/-!
PROOFS. Writes of the registers of the controller: the mode, the activation and the caps; and of the edges' tables.
-/
namespace Sys2Proof.Machine

/-! ## The mode, the activation and the caps -/

theorem writeMode_invalid {v : Dword} (bad : ¬ (600 ≤ bits v 14 4 ∧ bits v 14 4 ≤ 1200 ∧ bits v 14 4 % 25 = 0)) (s : State) :
    s.writeMode v = s.modMgt fun m => { m with modeLast := 1 } :=
  if_pos (by simp only [Bool.or_eq_true, decide_eq_true_eq]; omega)

/-- A mode that is valid is taken, unless it changes the interleave of memory in use (R193, R213). -/
theorem writeMode_valid {s : State} {v : Dword} (good : 600 ≤ bits v 14 4 ∧ bits v 14 4 ≤ 1200 ∧ bits v 14 4 % 25 = 0)
    {used : Prop} (hused : used = ((∃ p, p < 16 ∧ (s.part p).img ≠ none) ∨
      ∃ r ∈ s.pages, pgMode r.2 ≠ 0 ∨ pgPending r.2 = true)) :
    (v.getLsbD 1 ≠ s.mgt.ilv → used → s.writeMode v = s.modMgt fun m => { m with modeLast := 5 }) ∧
    (v.getLsbD 1 = s.mgt.ilv ∨ ¬ used → s.writeMode v = s.modMgt fun m => { m with
      fixed := v.getLsbD 0, fixedMhz := bits v 14 4, ilv := v.getLsbD 1
      striped := if v.getLsbD 1 = m.ilv then m.striped else v.getLsbD 1
      modeWait := v.getLsbD 0 ≠ m.fixedOn, modeLast := 0 }) := by
  have range : ¬ (bits v 14 4 < 600 || 1200 < bits v 14 4 || bits v 14 4 % 25 ≠ 0) = true := by
    simp only [Bool.or_eq_true, decide_eq_true_eq]
    omega
  have inUse : (((List.range 16).any fun p => (s.part p).img.isSome) ||
      s.pages.any fun r => pgMode r.2 ≠ 0 || pgPending r.2) = true ↔ used := by
    simp only [hused, Bool.or_eq_true, List.any_eq_true, List.mem_range, decide_eq_true_eq, Option.isSome_iff_ne_none]
  unfold State.writeMode
  dsimp only
  rw [if_neg range]
  refine ⟨fun changed busy => if_pos ?_, fun free => (if_neg ?_).trans ?_⟩
  · rw [inUse.2 busy, Bool.and_true]
    exact decide_eq_true changed
  · rw [Bool.and_eq_true, inUse, decide_eq_true_eq]
    exact fun h => free.elim h.1 fun n => n h.2
  · simp only [ite_not]

/-- What is answered to a cap (R308). -/
theorem capAnswer_eq {m : Mgt} {watts st got : Nat}
    (h : (watts ≠ 0 ∧ watts < m.floorW ∧ st = 1 ∧ got = m.floorW) ∨
      (m.floorW ≤ watts ∧ inputRating m.fuses < watts ∧ st = 2 ∧ got = inputRating m.fuses) ∨
      ((watts = 0 ∨ (m.floorW ≤ watts ∧ watts ≤ inputRating m.fuses)) ∧ st = (if m.fixedOn then 3 else 0) ∧ got = watts)) :
    capAnswer m watts = (st, got) := by
  unfold capAnswer
  obtain ⟨some_, below, rfl, rfl⟩ | ⟨floor, above, rfl, rfl⟩ | ⟨inside, rfl, rfl⟩ := h
  · rw [if_pos (by simp [some_, below])]
  · rw [if_neg (by simp [floor]), if_pos above]
  · have fits : ¬ inputRating m.fuses < got := by omega
    rw [if_neg (by simp only [Bool.and_eq_true, decide_eq_true_eq]; omega), if_neg fits]

/-- Settles O25: the mode, the activation and the caps. -/
theorem modeRegisters : Obligations.ModeRegisters := by
  refine ⟨fun s w v => ⟨fun on hv permitted some_ => ?fixed, fun mhz hm hv permitted some_ => ?mhz,
      fun on hv permitted some_ => ?ilv, fun permitted may m q hm hq => ?activate,
      fun i watts hw hi permitted a ha => ?caps⟩,
    fun s v => ⟨fun bad => writeMode_invalid bad s, fun good used => writeMode_valid good⟩,
    fun m watts st got h => ?writeCap, fun a b => rfl⟩
  case fixed =>
    subst hv
    rw [exec_fixed, execFixed]
    exact regRow_run rfl permitted ((writeReg_mgt ..).trans (congrArg some (if_neg some_)))
  case mhz =>
    subst hv
    rw [exec_fixedMhz, execFixedMhz]
    exact regRow_run (by simpa using hm) permitted ((writeReg_mgt ..).trans (congrArg some (if_neg some_)))
  case ilv =>
    subst hv
    rw [exec_ilv, execIlv]
    exact regRow_run rfl permitted ((writeReg_mgt ..).trans (congrArg some (if_neg some_)))
  case activate =>
    subst hm hq
    have eq : exec (.activate w) s = .next (s.modMgt fun m => m.activate m.nextTick) := by
      rw [exec_activate, execActivate]
      exact regRow_run rfl permitted ((writeReg_mgt ..).trans (congrArg some (if_pos (ones_bit rfl may))))
    have begun (m' : Mgt) (h : s.mgt.activate s.mgt.nextTick = m') : exec (.activate w) s = .next { s with mgt := m' } := by
      rw [eq, ← h]
      rfl
    unfold Mgt.activate at begun
    refine ⟨fun ready idle valid good => begun _ ?_, fun idle => begun _ ?_, fun ready why => begun _ ?_,
      fun ready idle valid bad => begun _ ?_⟩
    · simp [ready, idle, valid, good]
    · simp [idle]
    · simp [ready, why]
    · simp [ready, idle, valid, bad]
  case caps =>
    subst ha
    obtain ⟨rfl, rfl⟩ | ⟨rfl, rfl⟩ := hi
    · rw [exec_hostCapW, execHostCapW]
      exact regRow_run (by simpa using hw) permitted (writeReg_mgt ..)
    · rw [exec_fmCapW, execFmCapW]
      exact regRow_run (by simpa using hw) permitted (writeReg_mgt ..)
  case writeCap =>
    unfold Mgt.writeCap
    rw [capAnswer_eq h]
    exact ⟨rfl, rfl⟩

/-! ## The edges' tables -/

/-- Site 0 after reset with the port selected that follows the 25 of an HBM site. -/
def absentPort : State := State.reset.modEdge (.hbm 0) fun g => { g with estPort := 25 }

/-- The write of 0 to EST_PORT of the absent port lists the port, with its two periods 0 for the 512 of reset. -/
theorem writeEstPort_absent : ((absentPort.writeEstPort (.hbm 0) 0).edge (.hbm 0)).ports.length = 1 := by decide

/-- Refutes O26: a write of 0 to EST_PORT at a port that does not exist shows LAST 0, but it also takes the periods of the
absent port, which were 512, as 0. -/
theorem not_edgeRegisters : ¬ Obligations.EdgeRegisters := by
  rintro ⟨-, absent, -⟩
  have same := (absent absentPort (.hbm 0) 0 0 (absentPort.edge (.hbm 0)) rfl (by decide)).2
  have listed := writeEstPort_absent
  rw [same] at listed
  exact absurd listed (by decide)

end Sys2Proof.Machine
end

section
/-!
PROOFS. Writes of the registers of an I/O die's fabric ports and routes.
-/
namespace Sys2Proof.Machine

theorem writeDie_devId {s : State} {one : Dword} (ack : one.getLsbD 14 = false) {wm : Dword} (some_ : wm ≠ 0) (v : Dword) :
    s.writeDie 0 0x8 wm v one = s.writeDevId v := by
  have kept : (s.modMgt fun m => { m with devRefused := m.devRefused && !one.getLsbD 14 }) = s := by
    rw [ack]
    simp only [Bool.not_false, Bool.and_true]
    rfl
  have eq : s.writeDie 0 0x8 wm v one = if wm = 0 then s.modMgt fun m => { m with devRefused := m.devRefused && !one.getLsbD 14 }
    else (s.modMgt fun m => { m with devRefused := m.devRefused && !one.getLsbD 14 }).writeDevId v := rfl
  rw [eq, if_neg some_, kept]

theorem writeDie_control (s : State) (d : Nat) (wm v one : Dword) : s.writeDie d 0x10 wm v one =
    if v.getLsbD 1 = (s.iod d).gmSelf then s.modIod d fun x => { x with quiesce := v.getLsbD 0, gmSelf := v.getLsbD 1 }
    else (s.modIod d fun x => { x with quiesce := v.getLsbD 0, gmSelf := v.getLsbD 1 }).chooseParent := rfl

/-- A write of PORT_CTL acts on the selected port. -/
theorem portCtl_eq {s : State} {d p : Nat} (hk : (s.iod d).portSel.toNat < 12) (hp : p = 12 * d + (s.iod d).portSel.toNat)
    (v : Dword) : s.portCtl d v = if v.getLsbD 2 then s.retirePort p
      else if v.getLsbD 0 then s.startRetrain p (v.getLsbD 1) else s := by
  subst hp
  exact if_neg (by omega)

theorem retirePort_eq (s : State) (p : Nat) :
    ((s.port p).st ≠ .up → s.retirePort p = s.modPort p fun x => { x with
      st := .retired, draining := false, sentAdmit := false, gotAdmit := false }) ∧
    ((s.port p).st = .up →
      s.retirePort p = ((s.sendLink p 5 3 0 0 0).leaveUp p .retired false).chooseParent) :=
  ⟨fun out => if_neg (by simpa using out), fun up => if_pos (by simpa using up)⟩

theorem writeDevId_eq (s : State) (v : Dword) :
    (v.extractLsb' 0 13 = s.mgt.devId → v.getLsbD 13 = s.mgt.devValid → s.writeDevId v = s) ∧
    (¬ (v.extractLsb' 0 13 = s.mgt.devId ∧ v.getLsbD 13 = s.mgt.devValid) →
      ((∃ p, p < 48 ∧ (s.port p).st = .up) → s.writeDevId v = s.modMgt fun m => { m with devRefused := true }) ∧
      ((∀ p, p < 48 → (s.port p).st ≠ .up) → s.writeDevId v =
        (forAll (List.range 48) (s.modMgt fun m => { m with
          devPrevs := (if m.devRewriting then m.devPrevs else []) ++ [m.ownId], devId := v.extractLsb' 0 13
          devValid := v.getLsbD 13, devRewriting := m.devRewriting || v.getLsbD 13 }) fun p u =>
            u.modPort p fun x => { x with sentAdmit := x.sentAdmit && x.st ≠ .ready }).chooseParent)) := by
  have up : ((List.range 48).any fun p => (s.port p).st == .up) = true ↔ ∃ p, p < 48 ∧ (s.port p).st = .up := by
    simp only [List.any_eq_true, List.mem_range, beq_iff_eq]
  unfold State.writeDevId
  dsimp only
  refine ⟨fun id valid => if_pos (by rw [id, valid]; simp), fun other => ?_⟩
  rw [if_neg (by simpa using other)]
  refine ⟨fun some_ => if_pos (up.2 some_), fun none_ => (if_neg (mt up.1 ?_)).trans rfl⟩
  simpa using none_

theorem startRetrain_eq {s : State} {p : Nat} {ask full : Bool} (hf : full = (ask || !s.portSaved p)) :
    ((s.port p).st = .dark ∨ (s.port p).st = .retired → s.startRetrain p ask = s) ∧
    ((s.port p).st = .retraining → s.startRetrain p ask = s.modPort p fun x => { x with full := x.full || full }) ∧
    ((s.port p).st = .up → s.startRetrain p ask = ((s.port p).txq.foldl State.lookAgain
      ((s.sendLink p 5 2 0 0 0).modPort p fun x => { x with
        st := .retraining, full := full, draining := true, txq := [], sentAdmit := false, gotAdmit := false
        gmValid := false, departed := true })).chooseParent) ∧
    ((s.port p).st = .training ∨ (s.port p).st = .qualifying ∨ (s.port p).st = .ready ∨ (s.port p).st = .down →
      s.startRetrain p ask = s.modPort p fun x => { x with
        st := .retraining, full := full, sentAdmit := false, gotAdmit := false, failedQual := false, tail := [], frames := [] }) := by
  subst hf
  unfold State.startRetrain
  dsimp only
  refine ⟨fun out => ?_, fun at_ => ?_, fun at_ => ?_, fun away => ?_⟩
  · obtain at_ | at_ := out <;> rw [at_]
  · rw [at_]
  · rw [at_]
  · obtain at_ | at_ | at_ | at_ := away <;> rw [at_]

theorem setFreeze_eq (l : DigestLog) : l.setFreeze true = { l with freeze := true } ∧
    (l.entries < 32768 → l.setFreeze false = { l with freeze := false }) ∧
    (32768 ≤ l.entries → l.setFreeze false = ({ l with freeze := false } : DigestLog).swap) :=
  ⟨rfl, fun room => if_neg (by simpa using room), fun full => if_pos (by simpa using full)⟩

/-- Settles O27: the registers of the fabric, and the end of a rewriting of the page records. -/
theorem fabricRegisters : Obligations.FabricRegisters := by
  refine ⟨fun s w v => ⟨fun permitted some_ ack => ?devId, fun d hd permitted some_ => ?route,
      fun d on hd hv permitted same => ?quiesce, fun on hv permitted changed => ?gmSelf,
      fun d p hd hk hp may0 may1 may2 => ⟨fun full permitted => ?retrain, fun permitted => ?retire⟩,
      fun on hv permitted some_ => ?freeze⟩,
    fun s v => writeDevId_eq s v, fun x v => ?writeRoute, fun s p ask full hf => startRetrain_eq hf, setFreeze_eq,
    fun s rewriting => ?rewritten⟩
  case devId =>
    rw [exec_devId, execDevId]
    exact regRow_run rfl permitted ((writeReg_die ..).trans (congrArg some (writeDie_devId (ones_bit_not _ ack) some_ _)))
  case route =>
    rw [exec_iraRoute, execIraRoute]
    exact regRow_run (by simpa using hd) permitted ((writeReg_die ..).trans (congrArg some (if_neg some_)))
  case quiesce =>
    subst hv
    rw [exec_quiesce, execQuiesce]
    refine regRow_run (by simpa using hd) permitted ((writeReg_die ..).trans (congrArg some ?_))
    rw [writeDie_control, if_pos same, same]
    rfl
  case gmSelf =>
    subst hv
    rw [exec_gmSelf, execGmSelf]
    refine regRow_run rfl permitted ((writeReg_die ..).trans (congrArg some ?_))
    rw [writeDie_control, if_neg changed]
  case retrain =>
    rw [exec_retrain, execRetrain]
    refine regRow_run (by simpa using hd) permitted ((writeReg_die ..).trans (congrArg some ((portCtl_eq hk hp _).trans ?_)))
    have bit0 : (pack [(0, 1), (1, b2n full)] : Dword).getLsbD 0 = true := by cases full <;> decide
    have bit1 : (pack [(0, 1), (1, b2n full)] : Dword).getLsbD 1 = full := by cases full <;> decide
    have bit2 : (pack [(0, 1), (1, b2n full)] : Dword).getLsbD 2 = false := by cases full <;> decide
    rw [ones_bit_not _ bit2, if_neg (by decide), if_pos (ones_bit bit0 may0), BitVec.getLsbD_and, bit1, may1, Bool.and_true]
  case retire =>
    have eq : exec (.retire w d) s = .next (s.retirePort p) := by
      rw [exec_retire, execRetire]
      exact regRow_run (by simpa using hd) permitted
        ((writeReg_die ..).trans (congrArg some ((portCtl_eq hk hp _).trans (if_pos (ones_bit rfl may2)))))
    exact ⟨fun out => eq.trans (congrArg _ ((retirePort_eq s p).1 out)), fun up => eq.trans (congrArg _ ((retirePort_eq s p).2 up))⟩
  case freeze =>
    subst hv
    rw [exec_freeze, execFreeze]
    exact regRow_run rfl permitted ((writeReg_die ..).trans (congrArg some (if_neg some_)))
  case writeRoute =>
    unfold Iod.writeRoute
    simp only [Bool.and_eq_true, Bool.or_eq_true, decide_eq_true_eq]
  case rewritten =>
    rw [exec_devidRewriteComplete, execDevidRewriteComplete, onUnit_true, due_of rewriting]
    simp only [Bool.and_eq_true, decide_eq_true_eq, List.contains_iff_mem]
    rfl

end Sys2Proof.Machine
end

section
/-!
PROOFS. A run opens in a region.
-/
namespace Sys2Proof

/-! ## Tables made again entry by entry -/

/-- Putting an entry past the last one of a table adds it at the end. -/
theorem Tab.ins_last {α : Type} (t : Tab α) (n : Nat) (v : α) (above : ∀ p ∈ t, p.1 < n) : t.ins n v = t ++ [(n, v)] := by
  induction t with
  | nil => rfl
  | cons p t ih =>
    have hp := above p (List.mem_cons_self ..)
    unfold Tab.ins
    rw [if_neg (by omega), ih fun q mem => above q (List.mem_cons_of_mem _ mem)]
    rfl

theorem Tab.put_last {α : Type} [DecidableEq α] {d v : α} {t : Tab α} {n : Nat} (above : ∀ p ∈ t, p.1 < n) (some_ : v ≠ d) :
    t.put d n v = t ++ [(n, v)] := by
  have kept : t.drop n = t := List.filter_eq_self.2 fun p mem => by simpa using Nat.ne_of_lt (above p mem)
  unfold Tab.put
  rw [if_neg some_, kept, Tab.ins_last t n v above]

/-- A canonical table is made again by putting its entries in turn. -/
theorem Tab.foldl_put_self {α : Type} [DecidableEq α] {d : α} (a t : Tab α) (h : Tab.Canonical d (a ++ t)) :
    t.foldl (fun u p => u.put d p.1 p.2) a = a ++ t := by
  induction t generalizing a with
  | nil => simp
  | cons p t ih =>
    obtain ⟨rising, some_⟩ := h
    have above : ∀ q ∈ a, q.1 < p.1 := fun q mem => (List.pairwise_append.1 rising).2.2 q mem p (List.mem_cons_self ..)
    rw [List.foldl_cons, Tab.put_last above (some_ p (by simp)), ih, List.append_assoc]
    · rfl
    · rw [List.append_assoc]
      exact ⟨rising, some_⟩

/-- A table made of another entry by entry. -/
def Tab.mapEntries {α : Type} [DecidableEq α] (d : α) (f : α → α) (t : Tab α) : Tab α :=
  t.foldl (fun u p => u.put d p.1 (f p.2)) []

theorem Tab.mem_put {α : Type} [DecidableEq α] {d : α} {t : Tab α} {n : Nat} {v : α} {p : Nat × α} (mem : p ∈ t.put d n v) :
    p = (n, v) ∨ p ∈ t := by
  unfold Tab.put at mem
  split at mem
  · exact .inr (List.mem_filter.1 mem).1
  · exact ((Tab.mem_ins ..).1 mem).imp_right fun m => (List.mem_filter.1 m).1

theorem Tab.mapEntries_canonical {α : Type} [DecidableEq α] (d : α) (f : α → α) (t : Tab α) :
    Tab.Canonical d (t.mapEntries d f) ∧ ∀ p ∈ t.mapEntries d f, ∃ x, p.2 = f x := by
  unfold Tab.mapEntries
  refine List.foldlRecOn (motive := fun u : Tab α => Tab.Canonical d u ∧ ∀ p ∈ u, ∃ x, p.2 = f x) _ _
    ⟨⟨List.Pairwise.nil, fun p mem => nomatch mem⟩, fun p mem => nomatch mem⟩ fun u h p _ => ?_
  refine ⟨Tab.put_canonical h.1 _ _, fun q mem => ?_⟩
  rcases Tab.mem_put mem with rfl | mem
  · exact ⟨_, rfl⟩
  · exact h.2 q mem

/-- Doing so twice is doing it once, if each entry is then as it stays. -/
theorem Tab.mapEntries_mapEntries {α : Type} [DecidableEq α] (d : α) {f : α → α} (hf : ∀ x, f (f x) = f x) (t : Tab α) :
    (t.mapEntries d f).mapEntries d f = t.mapEntries d f := by
  obtain ⟨canonical, made⟩ := Tab.mapEntries_canonical d f t
  have same : (t.mapEntries d f).foldl (fun (u : Tab α) p => u.put d p.1 (f p.2)) [] =
      (t.mapEntries d f).foldl (fun (u : Tab α) p => u.put d p.1 p.2) [] := by
    refine foldl_congr_mem fun u p mem => ?_
    obtain ⟨x, hx⟩ := made p mem
    rw [hx, hf]
  exact same.trans (Tab.foldl_put_self [] _ canonical)

end Sys2Proof

namespace Sys2Proof.Machine

/-! ## The tiles and routers of a region -/

theorem mem_regionTiles {r n : Nat} (hr : r < 40) : n ∈ regionTiles r ↔ n < 20000 ∧ regionOf n = r := by
  simp only [regionTiles, regionOf, List.mem_map, List.mem_range]
  refine ⟨fun ⟨i, hi, e⟩ => ?_, fun ⟨hn, e⟩ => ⟨(n / 200 % 25) * 20 + n % 200 % 20, ?_, ?_⟩⟩
  · omega
  · omega
  · omega

theorem nodup_regionTiles (r : Nat) : (regionTiles r).Nodup := by
  refine List.pairwise_map.2 (List.Pairwise.imp_of_mem (fun {i j} hi hj apart e => apart ?_) List.nodup_range)
  rw [List.mem_range] at hi hj
  omega

theorem forAll_modRouter {l : List Nat} (distinct : l.Nodup) (f : Router → Router) (s : State) (m : Nat) :
    (forAll l s fun t u => u.modRouter t f).router m = if m ∈ l then f (s.router m) else s.router m := by
  induction l generalizing s with
  | nil => simp
  | cons t l ih =>
    rw [List.nodup_cons] at distinct
    rw [forAll_cons, ih distinct.2, State.modRouter_eq, State.router_setRouter]
    by_cases same : t = m
    · subst same
      simp [distinct.1]
    · simp [same, Ne.symm same]

/-! ## A tile starts -/

/-- A tile that has started starts the same. -/
theorem start_start (x : Tile) (sela audit : Bool) : (x.start sela audit).start sela audit = x.start sela audit := by
  have arrays := Tab.mapEntries_mapEntries ({} : MArray) (f := fun a => { a with split := 0, acc := [] }) (fun _ => rfl) x.arrays
  have fold (t : Tab MArray) : t.foldl (fun (u : Tab MArray) p => u.put {} p.1 { p.2 with split := 0, acc := [] }) [] =
      t.mapEntries {} fun a => { a with split := 0, acc := [] } := rfl
  unfold Tile.start
  simp only [fold, arrays]

/-! ## A region opens -/

/-- The routers of a region whose run opens (R154): bank 0 is active on the partition-owned outputs. -/
def Router.opened (x : Router) : Router :=
  { x with
    active := ([0, 1, 2, 3, 4] : List Nat).foldl (fun a o => if x.transit o then a else clearBit a o) x.active
    pSwaps := (x.pSwaps + 1) % 65536 }

/-- The ports that face a region whose run opens. -/
def Edge.opened (g : Edge) (e : EdgeId) (r : Nat) : Edge :=
  { g with ports := g.ports.foldl (fun tb q =>
      if regionOf (edgeTile e q.1).1 = r then tb.put {} q.1 { q.2 with active := false, pos := 0, off := 0 } else tb) g.ports }

/-- The hen of a region whose run opens. -/
def HenCtl.opened (c : HenCtl) : HenCtl :=
  { c with
    run := true, tables := true, sched := 0, posBase := 0, held := false, hstate := .running, reasons := 0
    atStart := none, atHold := none, atResume := none, atPSwap := none, bars := [] }

/-- What a run start changes before the tiles start. -/
def State.prepared (s : State) (r : Nat) (i : Image) : State :=
  ((allEdges.foldl (fun u e => u.modEdge e fun g => g.opened e r)
    (forAll (regionTiles r) s fun t u => u.modRouter t Router.opened)).modCtl r HenCtl.opened).modPwr r
      fun q => { q with phase := 0, learn := learnStart i r, learnOn := true }

theorem openRegion_eq (s : State) (p r : Nat) (i : Image) : s.openRegion p r i =
    forAll (((s.prepared r i).part p).owned.filter fun t => regionOf t = r) (s.prepared r i) fun t u =>
      u.modTile t fun x => x.start (i.flags.getLsbD 0) (i.flags.getLsbD 1) := rfl

/-- A property of states that a modification of a router, an edge, a hen and a tile each keeps. -/
theorem prepared_same {α : Type} (g : State → α) (router : ∀ (u : State) t, g (u.modRouter t Router.opened) = g u)
    (edge : ∀ (u : State) e r, g (u.modEdge e fun x => x.opened e r) = g u)
    (region : ∀ (u : State) r f, g (u.modRegion r f) = g u) (s : State) (r : Nat) (i : Image) :
    g (s.prepared r i) = g s := by
  have routers : g (forAll (regionTiles r) s fun t u => u.modRouter t Router.opened) = g s :=
    forAll_same (f := fun t u => u.modRouter t Router.opened) g (fun t u => router u t) (regionTiles r) s
  have edges (w : State) : g (allEdges.foldl (fun u e => u.modEdge e fun x => x.opened e r) w) = g w :=
    List.foldlRecOn (motive := fun u : State => g u = g w) allEdges _ rfl fun u kept e _ => (edge u e r).trans kept
  unfold State.prepared State.modPwr State.modCtl
  rw [region, region, edges, routers]

theorem prepared_region (s : State) (r : Nat) (i : Image) (m : Nat) : (s.prepared r i).region m = if r = m then
    { s.region r with
      ctl := (s.region r).ctl.opened
      pwr := { (s.region r).pwr with phase := 0, learn := learnStart i r, learnOn := true } } else s.region m := by
  have routers : (forAll (regionTiles r) s fun t u => u.modRouter t Router.opened).regions = s.regions :=
    forAll_same (f := fun t u => u.modRouter t Router.opened) State.regions (fun _ _ => rfl) (regionTiles r) s
  have edges (w : State) : (allEdges.foldl (fun u e => u.modEdge e fun x => x.opened e r) w).regions = w.regions :=
    List.foldlRecOn (motive := fun u : State => u.regions = w.regions) allEdges _ rfl
      fun u kept e _ => (modEdge_regions u e _).trans kept
  have same (u : State) (kept : u.regions = s.regions) (n : Nat) : u.region n = s.region n :=
    congrArg (·.look {} n) kept
  unfold State.prepared State.modPwr State.modCtl
  simp only [State.modRegion_eq, State.region_setRegion, State.setRegion_setRegion, if_true]
  rw [same _ ((edges _).trans routers), same _ ((edges _).trans routers)]

theorem prepared_tiles (s : State) (r : Nat) (i : Image) : (s.prepared r i).tiles = s.tiles :=
  prepared_same State.tiles (fun _ _ => rfl) (fun _ e _ => by cases e <;> rfl) (fun _ _ _ => rfl) s r i

theorem prepared_parts (s : State) (r : Nat) (i : Image) : (s.prepared r i).parts = s.parts :=
  prepared_same State.parts (fun _ _ => rfl) (fun _ e _ => by cases e <;> rfl) (fun _ _ _ => rfl) s r i

theorem prepared_router {r : Nat} (hr : r < 40) (s : State) (i : Image) {n : Nat} (hn : n < 20000) :
    (s.prepared r i).router n = if regionOf n = r then (s.router n).opened else s.router n := by
  have edges (w : State) : (allEdges.foldl (fun u e => u.modEdge e fun x => x.opened e r) w).routers = w.routers :=
    List.foldlRecOn (motive := fun u : State => u.routers = w.routers) allEdges _ rfl
      fun u kept e _ => (show (u.modEdge e _).routers = u.routers by cases e <;> rfl).trans kept
  have routers := forAll_modRouter (nodup_regionTiles r) Router.opened s n
  simp only [mem_regionTiles hr, hn, true_and] at routers
  rw [← routers]
  unfold State.prepared State.modPwr State.modCtl State.router
  rw [State.modRegion_eq, State.setRegion_routers, State.modRegion_eq, State.setRegion_routers, edges]

/-- What the starting of tiles leaves as it was. -/
theorem openRegion_same {α : Type} (g : State → α) (tile : ∀ (u : State) t x, g (u.setTile t x) = g u)
    (s : State) (p r : Nat) (i : Image) : g (s.openRegion p r i) = g (s.prepared r i) := by
  rw [openRegion_eq]
  refine forAll_same (f := fun t u => u.modTile t fun x => x.start (i.flags.getLsbD 0) (i.flags.getLsbD 1)) g (fun t u => ?_) _ _
  exact tile u t _

theorem openRegion_tile (s : State) (p r : Nat) (i : Image) (n : Nat) :
    (s.openRegion p r i).tile n = if n ∈ (s.part p).owned ∧ regionOf n = r
      then (s.tile n).start (i.flags.getLsbD 0) (i.flags.getLsbD 1) else s.tile n := by
  have part : (s.prepared r i).part p = s.part p := congrArg (·.look {} p) (prepared_parts s r i)
  have tile : (s.prepared r i).tile n = s.tile n := congrArg (·.look {} n) (prepared_tiles s r i)
  rw [openRegion_eq, part, forAll_modTile (fun x => start_start x _ _), tile]
  simp only [List.mem_filter, decide_eq_true_eq]

theorem execRunStartBeat_run {s u v : State} {r p k : Nat} {i : Image} (hr : r < 40) (clock : (s.region r).clk.on = true)
    (start : (s.region r).ctl.atStart = some k) (come : k ≤ (s.region r).clk.count)
    (assigned : (s.region r).ctl.assigned = true) (hp : p = (s.region r).ctl.part) (image : (s.part p).img = some i)
    (status : (s.part p).st = .starting ∨ (s.part p).st = .running) (hu : u = s.openRegion p r i)
    (hv : v = (forAll ((i.channels.map (·.chan)).filter fun c => (u.chan c).part = p && (u.chan c).st == .idle)
      (u.modPart p fun y => { y with st := .running, startTime := u.stampIn r, startCid := none, norm := [] })
      fun c w => w.modChan c fun y => { y with
        st := .active, next := y.seqBase, done := y.seqBase - 1, passes := [], ops := [], seen := [] })) :
    execRunStartBeat r s = .next (if (s.region r).ctl.lead = false then u else match (s.part p).startCid with
      | some cid => v.finish (p + 1) { doneWith (BitVec.ofNat 16 cid) 0 0 with
          result := (s.part p).runNo.setWidth 64, info := u.stampIn r }
      | none => v) := by
  subst hp
  rw [execRunStartBeat, onUnit_of (by simpa using hr)]
  simp only [start, image]
  rw [due_of (by simp [clock, come, assigned, status]), ← hu]
  cases lead : (s.region r).ctl.lead
  · rfl
  · rw [hv]
    rfl

/-- Settles O20: the run opens in a region, and in the lead region the partition runs. -/
theorem runOpens : Obligations.RunOpens := by
  refine ⟨fun s u v r p k i hr clock start come assigned hp image status hu hv => ?runs,
    fun s u r p i hr hu => ?opens, fun x sela audit => ⟨rfl, rfl, rfl, fun _ => ?sreg, fun _ => ?vreg, rfl, rfl, rfl, rfl, rfl, rfl, rfl, rfl⟩⟩
  case runs =>
    rw [exec_runStartBeat, execRunStartBeat_run hr clock start come assigned hp image status hu hv]
    exact ⟨fun other => by rw [if_pos other], fun lead none_ => by rw [if_neg (by simp [lead]), none_],
      fun cid lead some_ => by rw [if_neg (by simp [lead]), some_]⟩
  case sreg => exact ite_self _
  case vreg => rfl
  case opens =>
    have region (m : Nat) : u.region m = (s.prepared r i).region m :=
      hu ▸ openRegion_same (fun u => u.region m) (fun _ _ _ => rfl) s p r i
    have router (m : Nat) : u.router m = (s.prepared r i).router m :=
      hu ▸ openRegion_same (fun u => u.router m) (fun _ _ _ => rfl) s p r i
    refine ⟨?_, fun q other => ?_, fun n _ => hu ▸ openRegion_tile s p r i n, fun n hn here => ?_, fun n hn other => ?_, ?_⟩
    · rw [region, prepared_region, if_pos rfl]
      rfl
    · rw [region, prepared_region, if_neg (Ne.symm other)]
    · rw [router, prepared_router hr s i hn, if_pos here]
      rfl
    · rw [router, prepared_router hr s i hn, if_neg other]
    · let others := fun v : State => (v.hbm, v.mgt, v.parts, v.flight, v.pages, v.host)
      have rest : others u = others s := hu ▸ (openRegion_same others (fun _ _ _ => rfl) s p r i).trans
        (prepared_same others (fun _ _ => rfl) (fun _ e _ => by cases e <;> rfl) (fun _ _ _ => rfl) s r i)
      simp only [others, Prod.mk.injEq] at rest
      exact rest

end Sys2Proof.Machine
end

section
/-!
PROOFS. A run ends: its regions close, its tiles are dumped and scrubbed.
-/
namespace Sys2Proof.Machine

/-! ## What the closing of a region leaves as it was -/

/-- What the closing of a region concerns but its routers and edges. -/
def State.core (s : State) : Tab Tile × Tab Region × Tab (Byte) × List Host.Cell × Tab Part :=
  (s.tiles, s.regions, s.hbm, s.host, s.parts)

theorem tile_of_core {s u : State} (same : u.core = s.core) (n : Nat) : u.tile n = s.tile n :=
  congrArg (fun c => c.1.look {} n) same

theorem region_of_core {s u : State} (same : u.core = s.core) (r : Nat) : u.region r = s.region r :=
  congrArg (fun c => c.2.1.look {} r) same

theorem parts_of_core {s u : State} (same : u.core = s.core) : u.parts = s.parts := congrArg (fun c => c.2.2.2.2) same

theorem dropRouters_core (s : State) (r : Nat) : (s.dropRouters r).core = s.core := by
  unfold State.dropRouters
  refine forAll_same (f := fun t s' => s'.modRouter t fun x => x.dropPart fun i => s.inTransit t (dirOf i)) State.core ?_ _ _
  exact fun _ _ => rfl

theorem foldl_modEdge_core (l : List EdgeId) (f : EdgeId → Edge → Edge) (s : State) :
    (l.foldl (fun u e => u.modEdge e (f e)) s).core = s.core :=
  List.foldlRecOn (motive := fun u : State => u.core = s.core) l _ rfl
    fun u kept e _ => (show (u.modEdge e (f e)).core = u.core by cases e <;> rfl).trans kept

theorem dropPorts_core (s : State) (rs : List Nat) : (s.dropPorts rs).core = s.core := foldl_modEdge_core ..

/-- With no pause waiting, the tests that are abandoned are those of tiles alone. -/
theorem abandonTests_of_idle {s : State} {r : Nat} (none_ : (s.region r).test.pending = false) :
    s.abandonTests r = forAll (s.testTiles r (· == .testing)) s fun t u =>
      u.modTile t fun x => { x with test := { x.test with st := x.test.before, hit := false } } := by
  have kept := forAll_same (fun u : State => (u.region r).test.pending)
    (f := fun t u => u.modTile t fun x => { x with test := { x.test with st := x.test.before, hit := false } })
    (fun t u => rfl) (s.testTiles r (· == .testing)) s
  unfold State.abandonTests
  dsimp only at kept ⊢
  rw [kept, none_, Bool.false_and, if_neg (by decide)]

/-- The hen of a region that has closed. -/
def HenCtl.closed (c : HenCtl) : HenCtl :=
  { c with
    run := false, tables := false, held := false, hstate := .running, reasons := 0, atStart := none, atStop := none
    atHold := none, atResume := none, atPSwap := none }

/-- One tile is scrubbed, unless it is already. -/
def State.scrubOnce (s : State) (r : Nat) (dump : Bool) (t : Nat) : State :=
  if (s.tile t).st == .scrub then s else s.scrubTile r dump t

/-- The region of a run that has closed, its tiles in SCRUB. -/
def State.shut (s : State) (p r : Nat) (dump : Bool) : State :=
  (((forAll ((s.part p).owned.filter fun t => regionOf t = r) s fun t u => u.scrubOnce r dump t).modCtl r HenCtl.closed).modTest r
    fun h => { h with pending := false, coord := false, waiting := [], failed := false, tested := 0 }).modPwr r
      fun q => { q with heldPower := false }

/-- Scrubbing tiles leaves all but the tiles. -/
theorem scrubbed_same {α : Type} (g : State → α) (tile : ∀ (u : State) t x, g (u.setTile t x) = g u) (l : List Nat) (s : State)
    (r : Nat) (dump : Bool) : g (forAll l s fun t u => u.scrubOnce r dump t) = g s := by
  refine forAll_same (f := fun t u => u.scrubOnce r dump t) g (fun t u => ?_) l s
  unfold State.scrubOnce State.scrubTile
  split
  · rfl
  · exact tile u t _

/-- A tile whose test is abandoned. -/
def Tile.untested (x : Tile) : Tile := { x with test := { x.test with st := x.test.before, hit := false } }

theorem shut_eq (s : State) (p r : Nat) (dump : Bool) : ∃ x, s.shut p r dump =
    (forAll ((s.part p).owned.filter fun t => regionOf t = r) s fun t u => u.scrubOnce r dump t).setRegion r x := by
  unfold State.shut State.modPwr State.modTest State.modCtl
  simp only [State.modRegion_eq, State.setRegion_setRegion]
  exact ⟨_, rfl⟩

theorem shut_region (s : State) (p r : Nat) (dump : Bool) : ((s.shut p r dump).region r).ctl = (s.region r).ctl.closed ∧
    ((s.shut p r dump).region r).test.pending = false := by
  have scrubbed := scrubbed_same (fun u => u.region r) (fun _ _ _ => rfl) ((s.part p).owned.filter fun t => regionOf t = r) s r dump
  unfold State.shut State.modPwr State.modTest State.modCtl
  simp only [State.modRegion_eq, State.region_setRegion, State.setRegion_setRegion, if_true]
  rw [scrubbed]
  exact ⟨rfl, trivial⟩

/-- A closed region: its routers and edges have dropped what was the partition's, and its tests are abandoned. -/
theorem closeRegion_eq (s : State) (p r : Nat) (dump : Bool) : ∃ u l, u.core = (s.shut p r dump).core ∧
    s.closeRegion p r dump = forAll l u fun t u => u.modTile t Tile.untested := by
  have eq : s.closeRegion p r dump = (((s.shut p r dump).dropRouters r).dropPorts [r]).abandonTests r := rfl
  have same := (dropPorts_core ((s.shut p r dump).dropRouters r) [r]).trans (dropRouters_core ..)
  refine ⟨_, _, same, eq.trans (abandonTests_of_idle ?_)⟩
  rw [region_of_core same]
  exact (shut_region s p r dump).2

/-- No test and no pipe of a tile in SCRUB. -/
def Tile.Scrubbing (x : Tile) : Prop :=
  x.st = .scrub ∧ x.pend = [] ∧ x.rds = [] ∧ x.wrs = [] ∧ x.entries = [] ∧ x.drains = []

theorem tile_scrubTile (s : State) (r : Nat) (dump : Bool) (n : Nat) : ((s.scrubTile r dump n).tile n).Scrubbing := by
  unfold State.scrubTile
  rw [State.modTile_eq, State.tile_setTile, if_pos rfl]
  dsimp only
  split
  · exact ⟨rfl, rfl, rfl, rfl, rfl, rfl⟩
  · exact ⟨rfl, rfl, rfl, rfl, rfl, rfl⟩

theorem scrubOnce_other {n t : Nat} (other : t ≠ n) (s : State) (r : Nat) (dump : Bool) :
    (s.scrubOnce r dump t).tile n = s.tile n := by
  unfold State.scrubOnce State.scrubTile
  split
  · rfl
  · rw [State.modTile_eq, State.tile_setTile, if_neg other]

theorem scrubOnce_self {n : Nat} {s : State} (r : Nat) (dump : Bool) (fresh : (s.tile n).st ≠ .scrub ∨ (s.tile n).Scrubbing) :
    ((s.scrubOnce r dump n).tile n).Scrubbing := by
  unfold State.scrubOnce
  split
  · next scrub => exact fresh.resolve_left fun h => h (by simpa using scrub)
  · exact tile_scrubTile s r dump n

/-- A tile of the list that is not in SCRUB yet is scrubbed. -/
theorem forAll_scrubOnce {l : List Nat} {n r : Nat} {dump : Bool} {s : State} (mem : n ∈ l ∨ (s.tile n).Scrubbing)
    (fresh : (s.tile n).st ≠ .scrub ∨ (s.tile n).Scrubbing) :
    ((forAll l s fun t u => u.scrubOnce r dump t).tile n).Scrubbing := by
  induction l generalizing s with
  | nil => simpa using mem
  | cons t l ih =>
    rw [forAll_cons]
    by_cases same : t = n
    · subst same
      have done := scrubOnce_self r dump fresh
      exact ih (.inr done) (.inr done)
    · refine ih ?_ ?_
      · rw [scrubOnce_other same]
        exact mem.imp_left fun m => (List.mem_cons.1 m).resolve_left (Ne.symm same)
      · rwa [scrubOnce_other same]

theorem closeRegion_tile {s : State} {p r n : Nat} (dump : Bool) (owned : n ∈ (s.part p).owned) (here : regionOf n = r)
    (fresh : (s.tile n).st ≠ .scrub) : ((s.closeRegion p r dump).tile n).Scrubbing := by
  obtain ⟨v, l, same, eq⟩ := closeRegion_eq s p r dump
  rw [eq]
  refine forAll_keep (fun u => (u.tile n).Scrubbing) l v (fun t _ u kept => ?_) ?_
  case refine_2 =>
    obtain ⟨x, shut⟩ := shut_eq s p r dump
    rw [tile_of_core same, shut, State.tile_setRegion]
    exact forAll_scrubOnce (.inl (List.mem_filter.2 ⟨owned, by simpa using here⟩)) (.inl fresh)
  rw [State.modTile_eq, State.tile_setTile]
  split
  · next same => subst same; exact kept
  · exact kept

/-- What closing a region leaves, and how it leaves its hen. -/
theorem closeRegion_same (s : State) (p r : Nat) (dump : Bool) :
    ((s.closeRegion p r dump).region r).ctl = (s.region r).ctl.closed ∧ (s.closeRegion p r dump).hbm = s.hbm ∧
      (s.closeRegion p r dump).host = s.host ∧ (s.closeRegion p r dump).parts = s.parts := by
  obtain ⟨v, l, same, eq⟩ := closeRegion_eq s p r dump
  have untested {α : Type} (g : State → α) (tile : ∀ (u : State) t x, g (u.setTile t x) = g u) :
      g (s.closeRegion p r dump) = g v := by
    rw [eq]
    exact forAll_same (f := fun t u => u.modTile t Tile.untested) g (fun t u => tile u t _) l v
  let rest := fun u : State => (u.hbm, u.host, u.parts)
  obtain ⟨x, closed⟩ := shut_eq s p r dump
  have shut : rest (s.shut p r dump) = rest s := by
    rw [closed]
    exact scrubbed_same rest (fun _ _ _ => rfl) ((s.part p).owned.filter fun t => regionOf t = r) s r dump
  have kept : rest (s.closeRegion p r dump) = rest s :=
    (untested rest fun _ _ _ => rfl).trans ((congrArg (fun c => c.2.2) same).trans shut)
  simp only [rest, Prod.mk.injEq] at kept
  refine ⟨?_, kept⟩
  rw [untested (fun u => u.region r) fun _ _ _ => rfl, region_of_core same]
  exact (shut_region s p r dump).1

/-! ## A run is over -/

theorem raiseEdge_parts (s : State) (e : EdgeId) (part : Nat) (runGen : BitVec 8) (kind cause beat : Nat)
    (region : Bool) : (s.raiseEdge e part runGen kind cause beat region).parts = s.parts := by
  cases e
  · rfl
  · rfl

theorem writeMem_parts (s : State) (a : Nat) (bs : List Byte) : (s.writeMem a bs).parts = s.parts := by
  induction bs generalizing s a with
  | nil => rfl
  | cons b bs ih =>
    unfold State.writeMem
    rw [ih]
    split
    · rfl
    · rfl

theorem writeRecord_parts (s : State) (c : Nat) (o : ColOp) (aborted : Bool) : (s.writeRecord c o aborted).parts = s.parts := by
  unfold State.writeRecord
  dsimp only
  rw [State.modChan_eq, State.setChan_parts, State.modMgt_parts]
  dsimp only
  split
  · exact writeMem_parts ..
  · split
    · exact raiseEdge_parts ..
    · rfl

theorem abortChan_parts (c : Nat) (s : State) : (s.abortChan c).parts = s.parts := by
  unfold State.abortChan
  dsimp only
  rw [State.modChan_eq, State.setChan_parts]
  exact List.foldlRecOn (motive := fun u : State => u.parts = s.parts) _ _ rfl
    fun u kept o _ => (writeRecord_parts ..).trans kept

theorem dropChans_parts (s : State) (p : Nat) (aborted : Bool) : (s.dropChans p aborted).parts = s.parts := by
  unfold State.dropChans
  refine forAll_keep (fun u => u.parts = s.parts) _ s (fun c _ u kept => ?_) rfl
  split
  · exact (abortChan_parts c u).trans kept
  · exact kept

theorem markPending_parts (s : State) : s.markPending.parts = s.parts := by
  unfold State.markPending
  refine List.foldlRecOn (motive := fun u : State => u.parts = s.parts) _ _ rfl fun u kept m _ => ?_
  split
  · exact kept
  · split
    · exact kept
    · exact kept

theorem modEdge_parts (s : State) (e : EdgeId) (f : Edge → Edge) : (s.modEdge e f).parts = s.parts := by
  cases e
  · rfl
  · rfl

theorem forAll_modIod_parts (l : List Nat) (f : Iod → Iod) (s : State) :
    (forAll l s fun d u => u.modIod d f).parts = s.parts :=
  forAll_same (f := fun d u => u.modIod d f) State.parts (fun _ _ => rfl) l s

theorem dropPorts_parts (s : State) (rs : List Nat) : (s.dropPorts rs).parts = s.parts :=
  parts_of_core (dropPorts_core s rs)

theorem dropShares_parts (s : State) (p : Nat) : (s.dropShares p).parts = s.parts := by
  unfold State.dropShares
  rw [markPending_parts]
  refine List.foldlRecOn (motive := fun u : State => u.parts = s.parts) _ _ rfl fun u kept e _ => ?_
  split
  · exact kept
  · refine (forAll_modIod_parts ..).trans ((modEdge_parts ..).trans kept)

theorem closeRun_part (s : State) (p k : Nat) : (s.closeRun p k).part p = { s.part p with
    st := .ending, endReason := k, dump := s.dumpStatus p, stopAt := none, altAt := none } := by
  have routers (l : List Nat) (u : State) : (forAll l u fun r v => v.dropRouters r).parts = u.parts :=
    forAll_same (f := fun r v => v.dropRouters r) State.parts (fun r v => parts_of_core (dropRouters_core v r)) l u
  unfold State.closeRun
  dsimp only
  unfold State.part
  rw [dropChans_parts, dropShares_parts, dropPorts_parts, routers, State.modPart_eq, ← State.part, State.part_setPart, if_pos rfl]
  rfl

/-- A tile's dump that succeeds is written at the tile's place in the window. -/
theorem execDumpComplete_window {s : State} {n p base len place : Nat} {bytes : List Byte} (hn : n < 20000)
    (hp : p = (s.region (regionOf n)).ctl.part) (scrub : (s.tile n).st = .scrub) (waits : (s.tile n).dumped = false)
    (ending : (s.part p).st = .ending) (dumps : (s.part p).dump = 1) (bright : (s.region (regionOf n)).dark = false)
    (window : (s.fn (p + 1)).windows.look none (s.part p).dumpWindow = some (base, len))
    (hb : bytes = s.dumpBytes n (s.part p).endReason) (ho : place = 471040 * (s.part p).rankOf n) :
    execDumpComplete n true s = .next ({ s with
      host := writeBytes s.host (base + place) bytes }.setTile n { s.tile n with dumped := true }) := by
  subst hp
  rw [execDumpComplete, onUnit_of (by simpa using hn)]
  dsimp only
  rw [due_of (by simp [scrub, waits, ending, dumps, bright]), if_pos rfl, ← hb, ← ho, window]
  rfl

/-- Settles O21: a run that completes or is stopped, its regions that close, and its tiles that are dumped and scrubbed. -/
theorem runEnds : Obligations.RunEnds := by
  refine ⟨fun s p hp running open_ finished => ?complete, fun s u r p k reason hr at_ past run hp' hu => ?endBeat,
    fun s p r d => ?closes, fun s p k => ?isOver, fun s n hn scrub dumped bright => ?scrubbed,
    fun s n p hn hp scrub waits ending dumps bright => ⟨fun base len window => ?dumped, fun none_ => ?noWindow,
      fun left hleft mem => ?failed⟩⟩
  case complete =>
    rw [exec_runComplete, execRunComplete, onUnit_of (by simpa using hp)]
    dsimp only
    rw [due_of]
    simp only [running, BEq.rfl, Bool.true_and, Bool.and_eq_true, List.all_eq_true, Bool.not_eq_true']
    exact ⟨open_, finished⟩
  case endBeat =>
    subst hp'
    rw [exec_endBeat, execEndBeat, onUnit_of (by simpa using hr)]
    simp only [at_]
    rw [due_of (by simp [past, run]), ← hu]
  case closes =>
    obtain ⟨ctl, rest⟩ := closeRegion_same s p r d
    exact ⟨ctl, fun n owned here fresh => closeRegion_tile d owned here fresh, rest⟩
  case isOver =>
    rw [closeRun_part]
    exact ⟨rfl, rfl, rfl⟩
  case scrubbed =>
    rw [exec_scrubComplete, execScrubComplete, onUnit_of (by simpa using hn)]
    dsimp only
    rw [due_of (by simp [scrub, dumped, bright])]
    rfl
  case dumped => rw [exec_dumpComplete, execDumpComplete_window hn hp scrub waits ending dumps bright window rfl rfl]
  case noWindow =>
    subst hp
    rw [exec_dumpComplete, execDumpComplete, onUnit_of (by simpa using hn)]
    dsimp only
    rw [due_of (by simp [scrub, waits, ending, dumps, bright]), if_pos rfl]
    simp only [none_]
    rfl
  case failed =>
    subst hp
    rw [exec_dumpComplete, execDumpComplete, onUnit_of (by simpa using hn)]
    dsimp only
    rw [due_of (by simp [scrub, waits, ending, dumps, bright]), if_neg (by decide)]
    unfold State.stopDump
    dsimp only
    rw [← hleft, if_pos]
    simp [ending, dumps, List.ne_nil_of_mem mem]

end Sys2Proof.Machine
end

section
/-!
PROOFS. The clocks: ticks, slip, resynchronisation, droop, the device rate and the reference.
-/
namespace Sys2Proof.Machine

theorem tickOn_fMhz (m : Mgt) : m.tickOn.fMhz = m.fMhz := by
  unfold Mgt.tickOn
  dsimp only
  rw [apply_ite Mgt.fMhz]
  exact ite_self _

/-! ## A real tick (R189, R190) -/

/-- The counts that a clock measures its ticks by. -/
def HenClk.counts (k : HenClk) : Nat × Nat × Frac × Nat × Nat := (k.expect, k.tick, k.lag, k.synth, k.count)

/-- The rate that a clock follows is none of its counts. -/
theorem retarget_counts (k : HenClk) (f top : Nat) : (k.retarget f top).counts = k.counts := by
  have branches (a b c : Bool) (j : HenClk) (x y z : Frac) (same : j.counts = k.counts) :
      (if a then j.setRate x else if b then (if c then { j with rising := false, slowed := 0 }.setRate y else j)
        else j.setRate z).counts = k.counts := by
    cases a <;> cases b <;> cases c <;> exact same
  exact branches _ _ _ { k with slowing := _ } _ _ _ rfl

theorem countWaits_regions (s : State) (r : Nat) : (s.countWaits r).regions = s.regions := by
  unfold State.countWaits
  refine forAll_keep (fun u => u.regions = s.regions) _ s (fun t _ u kept => ?_) rfl
  split
  · split
    · exact kept
    · exact kept
  · exact kept

/-- A state in which the clock of one region has given counts, and the other regions are those of another state. -/
def State.ClockOnly (u s : State) (r : Nat) (c : Nat × Nat × Frac × Nat × Nat) : Prop :=
  (u.region r).clk.counts = c ∧ ∀ q, q ≠ r → u.region q = s.region q

theorem State.ClockOnly.modRegion {u s : State} {r : Nat} {c : Nat × Nat × Frac × Nat × Nat} (h : u.ClockOnly s r c)
    {f : Region → Region} (hf : ∀ x : Region, (f x).clk.counts = x.clk.counts) : (u.modRegion r f).ClockOnly s r c := by
  unfold State.ClockOnly
  simp only [State.modRegion_eq, State.region_setRegion, if_true]
  exact ⟨(hf _).trans h.1, fun q other => (if_neg (Ne.symm other)).trans (h.2 q other)⟩

theorem State.ClockOnly.modPwr {u s : State} {r : Nat} {c : Nat × Nat × Frac × Nat × Nat} (h : u.ClockOnly s r c)
    (f : HenPwr → HenPwr) : (u.modPwr r f).ClockOnly s r c := h.modRegion fun _ => rfl

theorem State.ClockOnly.modClk {u s : State} {r : Nat} {c : Nat × Nat × Frac × Nat × Nat} (h : u.ClockOnly s r c)
    {f : HenClk → HenClk} (hf : ∀ k, (f k).counts = k.counts) : (u.modClk r f).ClockOnly s r c := h.modRegion fun _ => hf _

theorem raise_regions (s : State) (r kind cause unit beat : Nat) (region : Bool) :
    (s.raise r kind cause unit beat region).regions = s.regions := rfl

theorem State.ClockOnly.congr {u v s : State} {r : Nat} {c : Nat × Nat × Frac × Nat × Nat} (same : u.regions = v.regions)
    (h : v.ClockOnly s r c) : u.ClockOnly s r c := by
  unfold State.ClockOnly State.region at h ⊢
  rwa [same]

/-- A real tick advances E, takes the tick's number, measures LAG and has no synthetic tick counted. -/
theorem realTick_clock (s : State) (dead amps : List (Nat × Nat)) (r : Nat) : (s.realTick dead amps r).ClockOnly s r
    ((s.region r).clk.expect + s.mgt.fMhz, s.now,
      fracInt (((s.region r).clk.expect : Int) + s.mgt.fMhz - (s.region r).clk.count), 0, (s.region r).clk.count) := by
  unfold State.realTick
  dsimp only
  generalize hk : HenClk.retarget _ _ _ = k
  have counts : k.counts = ((s.region r).clk.expect + s.mgt.fMhz, s.now,
      fracInt (((s.region r).clk.expect : Int) + s.mgt.fMhz - (s.region r).clk.count), 0, (s.region r).clk.count) := by
    rw [← hk, retarget_counts]
    rfl
  have first : ((s.modClk r fun _ => k).countWaits r).ClockOnly s r k.counts := by
    refine State.ClockOnly.congr (countWaits_regions ..) ?_
    unfold State.ClockOnly
    simp only [State.modClk_eq, State.region_setRegion, if_true]
    exact ⟨trivial, fun q other => if_neg (Ne.symm other)⟩
  rw [← counts]
  have learnt : State.ClockOnly (match amps.find? fun a => a.1 = r with
      | some a => ((s.modClk r fun _ => k).countWaits r).modPwr r fun p => p.learnFrom (s.region r).ctl.held s.mgt.fMhz a.2
      | none => (s.modClk r fun _ => k).countWaits r) s r k.counts := by
    split
    · exact first.modPwr _
    · exact first
  split
  · exact State.ClockOnly.congr (raise_regions ..) ((learnt.modPwr _).modClk fun _ => rfl)
  · exact learnt.modPwr _

/-- Settles O36: what a clock does with a tick, without one, at an epoch, and after it has lost lock. -/
theorem clockEvents : Obligations.ClockEvents := by
  refine ⟨fun s u dead amps ok lit hu => ?tick, fun m w hw => ?tickOn, fun s t dead amps r k ht hk => ?realTick,
    fun s r hr on => ?miss, fun k bit => rfl, fun s u v r x hr hx on epoch fresh hu hv => ?epoch,
    fun s r hr out caught => ?recovered,
    fun s u v w r x jump sched delta hr hx on due_ hj hs hd hu hv hw => ?resync⟩
  case tick =>
    subst hu
    rw [exec_roosterTick, execRoosterTick, onUnit_true, due_of (by simp [ok, lit])]
    dsimp only
    refine congrArg _ (foldl_congr_mem fun v r _ => ?_)
    simp only [Bool.not_eq_true', State.modMgt_mgt, tickOn_fMhz]
    rfl
  case tickOn =>
    subst hw
    rfl
  case realTick =>
    subst ht hk
    obtain ⟨counts, others⟩ := realTick_clock s dead amps r
    simp only [HenClk.counts, Prod.mk.injEq] at counts
    obtain ⟨expect, tick, lag, synth, count⟩ := counts
    exact ⟨expect, tick, lag, synth, count, others⟩
  case miss =>
    rw [exec_tickMiss, execTickMiss, onUnit_of (by simpa using hr), due_of on]
  case epoch =>
    subst hx hu hv
    rw [exec_epochMark, execEpochMark, onUnit_of (by simpa using hr)]
    dsimp only
    rw [due_of (by simp [on, epoch, fresh])]
    simp only [Bool.and_eq_true]
    cases (fracInt 24).lt (s.region r).clk.lag
    · rfl
    · rfl
  case recovered =>
    rw [exec_slipRecovered, execSlipRecovered, onUnit_of (by simpa using hr)]
    dsimp only
    rw [due_of (by simp [out, caught])]
  case resync =>
    subst hx hj hs hd hu hv hw
    rw [exec_resync, execResync, onUnit_of (by simpa using hr)]
    dsimp only
    rw [due_of (by simp [on, due_])]
    rfl

/-! ## Rates -/

/-- FIXED_CLOCK_APPLY announces F where the mode is to be turned on at another, and else lets the mode take effect. -/
theorem execFixedClockApply_run {s : State} (waits : s.mgt.modeWait = true) (idle : s.anyRun = false) :
    execFixedClockApply s = .next (s.modMgt fun m => if m.fixed && m.fMhz ≠ m.fixedMhz then
      { m with fNext := match m.fNext with
        | some q => if q.2 = m.fixedMhz then some q else some (m.nextTick + 2, m.fixedMhz)
        | none => some (m.nextTick + 2, m.fixedMhz) }
      else { m with modeWait := false, fixedOn := m.fixed, fNext := if m.fixed then none else m.fNext }) := by
  rw [execFixedClockApply, onUnit_true, due_of (by simp [waits, idle])] <;> rfl

theorem modMgt_congr {s : State} {f g : Mgt → Mgt} (same : f s.mgt = g s.mgt) : s.modMgt f = s.modMgt g :=
  congrArg (fun m => { s with mgt := m }) same

/-- Settles O37: droop, the rate of the device, the fixed clock and the reference. -/
theorem rateEvents : Obligations.RateEvents := by
  refine ⟨fun s r mv n hr on deep hn => ?trip, fun f top n => rfl, fun s r hr on tripped => ?clear,
    fun k f top calm rising => ?rise, fun s k f next come => ?change, fun s waits idle => ⟨fun fixed other => ⟨fun ann => ?same,
      fun none_ => ?announce⟩, fun done => ?applied⟩,
    fun s ok here => ?lost, fun s lost => ?restored, fun s lock late => ?lockLost⟩
  case trip =>
    subst hn
    rw [exec_droopTrip, execDroopTrip, onUnit_of (by simpa using hr)]
    dsimp only
    rw [due_of (by simp [on, deep])]
    rfl
  case clear =>
    rw [exec_droopClear, execDroopClear, onUnit_of (by simpa using hr)]
    dsimp only
    rw [due_of (by simp [on, tripped])]
  case rise =>
    unfold HenClk.nextRate
    dsimp only
    rw [calm, rising]
    rfl
  case change =>
    rw [exec_fChange, execFChange, onUnit_true]
    simp only [next]
    rw [due_of (decide_eq_true (show k ≤ s.now + 1 from come))]
  case same =>
    obtain ⟨k, at_⟩ := ann
    rw [exec_fixedClockApply, execFixedClockApply_run waits idle]
    refine congrArg _ ((modMgt_congr ?_).trans (rfl : s.modMgt id = s))
    rw [if_pos (by simp [fixed, other]), at_]
    dsimp only
    rw [if_pos rfl, ← at_]
    rfl
  case announce =>
    rw [exec_fixedClockApply, execFixedClockApply_run waits idle]
    refine congrArg _ (modMgt_congr ?_)
    rw [if_pos (by simp [fixed, other])]
    split
    · next q at_ => rw [if_neg fun same => none_ q.1 (by rw [at_, ← same])]
    · rfl
  case applied =>
    rw [exec_fixedClockApply, execFixedClockApply_run waits idle]
    refine congrArg _ (modMgt_congr ?_)
    rw [if_neg]
    rcases done with moving | same
    · simp [moving]
    · simp [same]
  case lost =>
    rw [exec_refLost, execRefLost, onUnit_true, due_of (by simp [ok, here])]
    rfl
  case restored =>
    rw [exec_refRestored, execRefRestored, onUnit_true, due_of lost]
  case lockLost =>
    rw [exec_fabricLockLoss, execFabricLockLoss, onUnit_true, due_of (by simp [lock, State.now, late])]
    rfl

end Sys2Proof.Machine
end

section
/-!
SUPPORT. What the sending of a packet and the completion of a ring command leave as they were: what no port, die or function
holds.
-/
namespace Sys2Proof.Machine

/-! ## Packets -/

section
variable {α : Type} (g : State → α)

theorem sendCredit_same (port : ∀ u p x, g (State.setPort u p x) = g u) (s : State) (p : Nat) : g (s.sendCredit p) = g s := by
  unfold State.sendCredit State.sendLink
  dsimp only
  rw [State.modPort_eq, port, State.modPort_eq, port]

theorem freeCredit_same (port : ∀ u p x, g (State.setPort u p x) = g u) (s : State) (p pool n : Nat) :
    g (s.freeCredit p pool n) = g s := by
  unfold State.freeCredit
  dsimp only
  split
  · rw [sendCredit_same g port, State.modPort_eq, port]
  · rw [State.modPort_eq, port]

theorem pump_same (port : ∀ u p x, g (State.setPort u p x) = g u) (s : State) (p n : Nat) : g (s.pump p n) = g s := by
  induction n generalizing s with
  | zero => rfl
  | succ n ih =>
    unfold State.pump
    dsimp only
    split
    · rfl
    · split
      · rfl
      · rw [ih]
        split
        · rw [freeCredit_same g port, port]
        · rw [port]

theorem queueAt_same (port : ∀ u p x, g (State.setPort u p x) = g u) (s : State) (p input : Nat) (pkt : List Line) :
    g (s.queueAt p input pkt) = g s := by
  unfold State.queueAt
  dsimp only
  rw [pump_same g port, State.modPort_eq, port]

theorem sendRsp_same (port : ∀ u p x, g (State.setPort u p x) = g u) (die : ∀ u d x, g (State.setIod u d x) = g u)
    (s : State) (d : Nat) (pkt : List Line) : g (s.sendRsp d pkt) = g s := by
  unfold State.sendRsp
  split
  · exact queueAt_same g port ..
  · rw [State.modIod_eq, die]

theorem answer_same (port : ∀ u p x, g (State.setPort u p x) = g u) (die : ∀ u d x, g (State.setIod u d x) = g u)
    (s : State) (p : Nat) (req : Line) (status op0 : Nat) (data : List Line) : g (s.answer p req status op0 data) = g s := by
  unfold State.answer
  dsimp only
  rw [sendRsp_same g port die, State.modIod_eq, die, State.modPort_eq, port]

/-! ## Completions -/

theorem complete_same (fn : ∀ u f x, g (State.setFn u f x) = g u)
    (host : ∀ (u : State) m i, g { u with host := m, msix := i } = g u) (s : State) (f : Nat) (e : CqEntry) :
    g (s.complete f e) = g s := by
  unfold State.complete
  dsimp only
  split
  · rw [State.modFn_eq, fn]
  · rw [State.modFn_eq, fn, host]

theorem unregDone_same (fn : ∀ u f x, g (State.setFn u f x) = g u)
    (host : ∀ (u : State) m i, g { u with host := m, msix := i } = g u) (s : State) (f : Nat) : g (s.unregDone f) = g s := by
  unfold State.unregDone
  refine List.foldlRecOn (motive := fun u : State => g u = g s) _ _ rfl fun u kept w _ => ?_
  split
  · split
    · exact kept
    · rw [complete_same g fn host, State.modFn_eq, fn, kept]
  · exact kept

theorem rejects_same (fn : ∀ u f x, g (State.setFn u f x) = g u)
    (host : ∀ (u : State) m i, g { u with host := m, msix := i } = g u) (s : State) (f n : Nat) : g (s.rejects f n) = g s := by
  induction n generalizing s with
  | zero => rfl
  | succ n ih =>
    unfold State.rejects
    dsimp only
    split
    · rfl
    · split
      · split
        · rfl
        · rw [ih, complete_same g fn host, State.modFn_eq, fn]
      · rfl

theorem finish_same (fn : ∀ u f x, g (State.setFn u f x) = g u)
    (host : ∀ (u : State) m i, g { u with host := m, msix := i } = g u) (s : State) (f : Nat) (e : CqEntry) :
    g (s.finish f e) = g s := by
  unfold State.finish State.ringOn
  dsimp only
  rw [rejects_same g fn host, unregDone_same g fn host, complete_same g fn host, State.modFn_eq, fn]

end

end Sys2Proof.Machine
end

section
/-!
PROOFS. Descriptor passes, the requests of the ring, and what happens in a stack.
-/
namespace Sys2Proof.Machine

theorem edge_modEdge {s : State} {e : EdgeId} (f : Edge → Edge) : (s.modEdge e f).edge e = f (s.edge e) := by
  cases e with
  | hbm x => simp only [State.modEdge, State.setEdge, State.edge, State.modSite_eq, State.site_setSite, if_true]
  | iod d => simp only [State.modEdge, State.setEdge, State.edge, State.modIod_eq, State.iod_setIod, if_true]

/-! ## Passes -/

theorem execOxPassStart_run {s u : State} {e : EdgeId} {sh i b k st dl : Nat} {g : Edge} {h : Share} {d : OxDesc}
    (ok : shareOk e sh i = true) (hg : g = s.edge e) (hh : h = g.share sh) (hd : d = g.desc sh i) (valid : h.valid = true)
    (known : i < h.descCount) (beat : s.oxBeat e h.part = some b) (next : g.nextPass sh i = some (k, st, dl)) (come : st ≤ b)
    (idle : g.running sh i = false) (free : s.passWaits d = false)
    (first : ∀ q ∈ s.waiting e, dl < q.1 ∨ (dl = q.1 ∧ h.descBase + i ≤ q.2))
    (hu : u = s.modEdge e (fun g => { g with passes := g.passes ++ [{ share := sh, desc := i, k := k, next := 0 : Pass }] })) :
    execOxPassStart e sh i s = .next (if oxRemote d then u.askAll e sh i else
      if (if d.lines = 0 then 0 else s.memStatus s.mgt.ownId h.part (!oxFill d) (oxLocal d) (64 * d.lines.toNat)) = 0
      then u.passAsk e sh i
      else ((if oxFill d then u.stage e (g.stageAt sh i) (List.replicate d.lines.toNat 0) else u).oxRefused e sh).passDone e sh i) := by
  subst hu
  rw [execOxPassStart, onUnit_of ok]
  dsimp only
  rw [← hg, ← hh, ← hd]
  simp only [beat, next]
  rw [due_of]
  simp only [Bool.and_eq_true, decide_eq_true_eq, Bool.not_eq_true', List.all_eq_true, Bool.or_eq_true]
  exact ⟨⟨⟨⟨⟨valid, known⟩, come⟩, idle⟩, free⟩, first⟩

theorem execOxPassComplete_run {s : State} {e : EdgeId} {sh i : Nat} {bad : List Nat} {p : Pass} {g : Edge} {d : OxDesc}
    (ok : shareOk e sh i = true) (hg : g = s.edge e) (hd : d = g.desc sh i)
    (found : g.passes.find? (fun p => p.share = sh && p.desc = i) = some p) :
    execOxPassComplete e sh i bad s = .next (if p.next < d.lines.toNat || !p.asks.isEmpty || s.inFlight e sh i ≠ 0
      then s.passAsk e sh i
      else (if oxRemote d then s else (List.range d.lines.toNat).foldl (fun u l =>
        u.moveLine e sh i (bad.contains l) l) s).passDone e sh i) := by
  rw [execOxPassComplete, onUnit_of ok]
  dsimp only
  rw [← hg, ← hd]
  simp only [found]
  cases oxRemote d
  · rfl
  · rfl

theorem edgeAsk_edge {α : Type} (g : Edge → α) (queue : ∀ y q, g { y with queue := q } = g y) (s : State) (e : EdgeId)
    (p kind beat : Nat) : g ((s.edgeAsk e p kind beat).edge e) = g (s.edge e) := by
  unfold State.edgeAsk
  split
  · dsimp only
    split
    · rw [edge_modEdge, queue]
    · cases e
      · rfl
      · rfl
  · rfl

theorem markPending_same {α : Type} (g : State → α) (page : ∀ (u : State) p r, g (u.setPage p r) = g u) (s : State) :
    g s.markPending = g s := by
  unfold State.markPending
  refine List.foldlRecOn (motive := fun u : State => g u = g s) _ _ rfl fun u kept m _ => ?_
  split
  · exact kept
  · split
    · exact (page ..).trans kept
    · exact (page ..).trans kept

theorem modEdge_hbm (s : State) (e : EdgeId) (f : Edge → Edge) : (s.modEdge e f).hbm = s.hbm := by
  cases e
  · rfl
  · rfl

theorem edgeAsk_hbm (s : State) (e : EdgeId) (p kind beat : Nat) : (s.edgeAsk e p kind beat).hbm = s.hbm := by
  unfold State.edgeAsk
  split
  · dsimp only
    split
    · exact modEdge_hbm ..
    · cases e
      · rfl
      · rfl
  · rfl

/-- The edge after a pass is done, but for what it holds and its tokens. -/
theorem passDone_edge {α : Type} (g : Edge → α) (queue : ∀ y q, g { y with queue := q } = g y)
    (holding : ∀ y b, g { y with holding := b } = g y) (s : State) (e : EdgeId) (sh i : Nat) :
    g ((s.passDone e sh i).edge e) = g { s.edge e with
      passes := (s.edge e).passes.filter fun p => !(p.share = sh && p.desc = i)
      served := (s.edge e).served.put 0 (servedKey sh i) ((s.edge e).served.look 0 (servedKey sh i) + 1)
      lateAt := (s.edge e).lateAt.filter fun l => l.1 ≠ servedKey sh i } := by
  unfold State.passDone
  dsimp only
  rw [markPending_same (fun u => g (u.edge e)) (fun _ _ _ => by cases e <;> rfl)]
  split
  · rw [edgeAsk_edge g queue, edge_modEdge, holding, edge_modEdge]
  · rw [edge_modEdge]

theorem passDone_hbm (s : State) (e : EdgeId) (sh i : Nat) : (s.passDone e sh i).hbm = s.hbm := by
  unfold State.passDone
  dsimp only
  rw [markPending_same State.hbm (fun _ _ _ => rfl)]
  split
  · rw [edgeAsk_hbm, modEdge_hbm, modEdge_hbm]
  · exact modEdge_hbm ..

/-- A line of a pass is gone where its channel has failed. -/
theorem line_gone {s : State} {a : Nat} : ((lineStarts a 64).any fun k => match s.cell k with
      | some c => s.chanFailed c.1 c.2.1
      | none => true) = true ↔ ∃ k ∈ lineStarts a 64, ∀ c, s.cell k = some c → s.chanFailed c.1 c.2.1 = true := by
  rw [List.any_eq_true]
  refine exists_congr fun k => and_congr_right fun _ => ?_
  cases s.cell k with
  | none => simp
  | some c => simp

theorem moveLine_run {s : State} {e : EdgeId} {sh i l a at_ : Nat} {bad : Bool} {d : OxDesc} {gone : Prop}
    (hd : d = (s.edge e).desc sh i) (ha : a = oxLocal d + 64 * l) (hat : at_ = (s.edge e).stageAt sh i + l)
    (hgone : gone = (∃ k ∈ lineStarts a 64, ∀ c, s.cell k = some c → s.chanFailed c.1 c.2.1 = true)) [Decidable gone] :
    s.moveLine e sh i bad l = if s.ownLine e a = false then s
      else if gone then s.passAnswer e sh i l 1 5 []
      else if oxFill d = false then s.writeLines a [(s.edge e).lines.look 0 at_]
      else if bad then (s.freeLine.2.passAnswer e sh i l 1 4 [s.freeLine.1]).uncorrectable ((s.siteAt a).getD 0)
      else s.stage e at_ (s.readLines a 1) := by
  unfold State.moveLine
  dsimp only
  rw [← hd, ← ha, ← hat]
  simp only [Bool.not_eq_true']
  refine ite_congr_iff Iff.rfl rfl (ite_congr_iff (line_gone.trans (Iff.of_eq hgone.symm)) rfl (ite_congr_iff Iff.rfl rfl ?_))
  rfl

theorem stagingMissAt_run {s : State} {e : EdgeId} {p i : Nat} {c : HenCtl} {y : EPort}
    (hc : c = (s.region (regionOf (edgeTile e p).1)).ctl) (hy : y = (s.edge e).ports.look {} p) :
    s.stagingMissAt e p i = if y.assessed = some c.sched then s else (s.modEdge e fun g => { g with
        beat := if g.beatValid then g.beat else c.sched % 2 ^ 48
        beatShare := if g.beatValid then g.beatShare else decide (i = 1), beatValid := true, miss := true
        missCount := min (g.missCount + 1) 65535
        ports := g.ports.put {} p { y with assessed := some c.sched } }).raiseEdge e c.part c.runGen 2 0x30 c.sched false := by
  unfold State.stagingMissAt
  dsimp only
  rw [← hc, ← hy]
  rfl

/-- Settles O38: the start and the end of a pass, what a line does, and what is counted when one is late or missed. -/
theorem oxPasses : Obligations.OxPasses := by
  refine ⟨?_, ?_, ?_, ?_, ?_, ?_⟩
  · intro s u e sh i b k st dl g h d ok hg hh hd valid known beat next come idle free first hu
    have run := execOxPassStart_run ok hg hh hd valid known beat next come idle free first hu
    rw [exec_oxPassStart, run]
    refine ⟨fun remote => by rw [if_pos remote], fun loc v hv => ?_⟩
    rw [if_neg (by simp [loc]), ← hv]
    exact ⟨fun ok => by rw [if_pos ok], fun bad => by rw [if_neg bad]⟩
  · intro s e sh i bad p g d ok hg hd found
    rw [exec_oxPassComplete, execOxPassComplete_run ok hg hd found]
    refine ⟨fun more => by rw [if_pos (by simpa [or_assoc] using more)], fun all none_ settled => ?_⟩
    rw [if_neg (by simpa [none_, settled] using all)]
  · intro s e sh i l a at_ bad d gone hd ha hat hgone
    classical
    rw [moveLine_run hd ha hat hgone]
    refine ⟨fun other => if_pos other, fun own lost => ?_, fun own kept drain => ?_, fun own kept fill good => ?_,
      fun own kept fill bad => ?_⟩
    · rw [if_neg (by simp [own]), if_pos lost]
    · rw [if_neg (by simp [own]), if_neg kept, if_pos drain]
    · rw [if_neg (by simp [own]), if_neg kept, if_neg (by simp [fill]), if_neg (by simp [good])]
    · rw [if_neg (by simp [own]), if_neg kept, if_neg (by simp [fill]), if_pos bad]
  · intro s t e sh i _ ht
    subst ht
    exact ⟨passDone_edge Edge.passes (fun _ _ => rfl) (fun _ _ => rfl) s e sh i,
      passDone_edge Edge.lateAt (fun _ _ => rfl) (fun _ _ => rfl) s e sh i,
      passDone_edge Edge.served (fun _ _ => rfl) (fun _ _ => rfl) s e sh i,
      passDone_edge Edge.lines (fun _ _ => rfl) (fun _ _ => rfl) s e sh i, passDone_hbm s e sh i⟩
  · intro s e sh i b k st dl g h ok hg hh valid known beat next come new
    subst hg hh
    rw [exec_oxLatePoint, execOxLatePoint, onUnit_of ok]
    dsimp only
    simp only [beat, next]
    rw [due_of (by simp [valid, known, come, new])]
    rfl
  · intro s e p i c y ok miss hc hy
    have run : exec (.stagingMiss e p) s = .next (s.stagingMissAt e p i) := by
      rw [exec_stagingMiss]
      unfold execStagingMiss
      rw [onUnit_of (by cases e <;> simpa using ok)]
      simp only [miss]
    rw [run, stagingMissAt_run hc hy]
    exact ⟨fun seen => by rw [if_pos seen], fun fresh => by rw [if_neg fresh]⟩

/-! ## Requests of the ring -/

theorem ringRow_run {s : State} {x op : Nat} {k : List Line} {rest : List (List Line)} {f : List Line → State → State}
    (hx : x < 16) (head : (s.site x).oxq.items = k :: rest) (cls : hCls (headOf k) = op)
    (ready : s.mustWait (hAddr (headOf k) % 2 ^ 40) (64 * reqLines (headOf k)) = false) :
    ringRow op x s f = .next (f k s) := by
  rw [ringRow, onUnit_of (by simpa using hx)]
  simp only [head]
  rw [due_of (by rw [ready, decide_eq_true cls]; rfl)]

section
variable {s : State} {x st : Nat} {k : List Line} {write : Bool} {f : Line → State → Nat × Nat × List Line × State}

theorem ringServe_refused
    (hst : st = s.memStatus (hSrc (headOf k)) (hPart (headOf k)) write (hAddr (headOf k) % 2 ^ 40) (64 * reqLines (headOf k)))
    (bad : st ≠ 0) : s.ringServe x k write f =
      (s.popOx x k.length (askerDie (headOf k))).ringAnswer (headOf k) st 0 [] := by
  rw [State.ringServe, ← hst, if_pos bad]

theorem ringServe_allowed
    (hst : st = s.memStatus (hSrc (headOf k)) (hPart (headOf k)) write (hAddr (headOf k) % 2 ^ 40) (64 * reqLines (headOf k)))
    (good : st = 0) {u : State} (hu : u = s.popOx x k.length (askerDie (headOf k))) : s.ringServe x k write f =
      (f (headOf k) u).2.2.2.ringAnswer (headOf k) (f (headOf k) u).1 (f (headOf k) u).2.1 (f (headOf k) u).2.2.1 := by
  rw [State.ringServe, ← hst, if_neg (not_not_intro good), hu]

end

theorem readChecked_succ (u : State) (x a m : Nat) (bad : List Nat) :
    (m ∉ bad → u.readChecked x a bad (m + 1) = ((u.readChecked x a bad m).1 ++
        (u.readChecked x a bad m).2.readLines (a + 64 * m) 1, (u.readChecked x a bad m).2)) ∧
      (m ∈ bad → u.readChecked x a bad (m + 1) = ((u.readChecked x a bad m).1 ++
        [(u.readChecked x a bad m).2.freeLine.1], (u.readChecked x a bad m).2.freeLine.2.uncorrectable x)) := by
  constructor
  · intro good
    rw [State.readChecked]
    exact if_neg (by simpa using good)
  · intro bad_
    rw [State.readChecked]
    exact if_pos (by simpa using bad_)

theorem popOx_hbm (s : State) (x n d : Nat) : (s.popOx x n d).hbm = s.hbm := rfl

theorem popOx_oxq (s : State) (x n d : Nat) : ((s.popOx x n d).site x).oxq = (s.site x).oxq.pop := by
  have popped : (s.popOx x n d).site x = (s.setSite x { s.site x with oxq := (s.site x).oxq.pop }).site x := rfl
  rw [popped, State.site_setSite, if_pos rfl]

/-- Settles O39: a request at the head of an ox's queue is served, or refused with the first check that fails. -/
theorem ringRequests : Obligations.RingRequests := by
  intro s u x a n st k rest h hx head hh ha hn ready hu
  subst hh ha hn
  refine ⟨?_, fun m bad => ⟨rfl, readChecked_succ u x _ m bad⟩, ?_, ?_, hu ▸ popOx_hbm .., hu ▸ popOx_oxq .., ?_⟩
  · intro cls hst bad
    rw [exec_ringRead, execRingRead, ringRow_run hx head cls ready]
    refine ⟨fun refused => by rw [ringServe_refused hst refused, ← hu], fun good => ?_⟩
    rw [ringServe_allowed hst good hu]
    simp only [List.any_eq_true, decide_eq_true_eq]
  · intro cls hst
    rw [exec_ringWrite, execRingWrite, ringRow_run hx head cls ready]
    refine ⟨fun refused => by rw [ringServe_refused hst refused, ← hu], fun good lines => ?_, fun good masked => ?_⟩
    · rw [ringServe_allowed hst good hu]
      dsimp only
      rw [if_neg lines]
    · rw [ringServe_allowed hst good hu]
      dsimp only
      rw [if_pos masked]
  · intro cls hst new hnew
    subst hnew
    refine ⟨fun refused bad => ?_, fun old good hold => ?_, fun old good hold => ?_⟩
    · rw [exec_ringAtomic, execRingAtomic, ringRow_run hx head cls ready, ringServe_refused hst refused, ← hu]
    · rw [exec_ringAtomic, execRingAtomic, ringRow_run hx head cls ready, ringServe_allowed hst good hu, hold]
      rfl
    · rw [exec_ringAtomic, execRingAtomic, ringRow_run hx head cls ready, ringServe_allowed hst good hu, hold]
      rfl
  · rw [hu, popOx_oxq, GQueue.pop, head]

end Sys2Proof.Machine
end

section
/-!
PROOFS. What happens in a stack: reports of errors, failed channels and rows, heat, and pages that change hands.
-/
namespace Sys2Proof.Machine

theorem cper_site (s : State) (f : Finding) (x : Nat) : (s.cper f).site x = s.site x := by
  rw [State.cper]; dsimp only; split <;> rfl

theorem cper_now (s : State) (f : Finding) : (s.cper f).mgt.nextTick = s.mgt.nextTick := by
  rw [State.cper]; dsimp only; split <;> rfl

theorem eccReport_corrected {s u v : State} {x : Nat} {r : EccReport} (corrected : r.corrected = true)
    (hu : u = s.cper { source := 4, unitKind := 8, unit := channelIndex x r.channel
                       severity := (if r.corrected then 2 else 0) })
    (hv : v = u.modSite x fun y => { y with
      corr := min (y.corr + 1) 65535, corrRows := y.corrRows ++ [(r.channel, r.bank, r.row, s.mgt.nextTick)] }) :
    State.eccReport x s r = if (∃ q ∈ (s.site x).corrRows, q.1 = r.channel ∧ q.2.1 = r.bank ∧ q.2.2.1 = r.row ∧
      s.mgt.nextTick ≤ q.2.2.2 + 86400000000) then v.repairRow x r.channel r.bank r.row else v := by
  have same : u.site x = s.site x := hu ▸ cper_site ..
  have time : u.now = s.mgt.nextTick := hu ▸ cper_now ..
  unfold State.eccReport
  dsimp only
  rw [if_pos corrected, ← hu, time, same]
  refine ite_congr_iff ?_ (hv ▸ rfl) (hv ▸ rfl)
  simp only [List.any_eq_true, Bool.and_eq_true, decide_eq_true_eq, and_assoc]

theorem eccReport_uncorrected {s u : State} {x : Nat} {r : EccReport} (uncorrected : r.corrected = false)
    (hu : u = s.cper { source := 4, unitKind := 8, unit := channelIndex x r.channel
                       severity := (if r.corrected then 2 else 0) }) :
    State.eccReport x s r = (u.modSite x fun y => { y with uncorr := min (y.uncorr + 1) 65535 }).repairRow x r.channel r.bank r.row := by
  unfold State.eccReport
  dsimp only
  rw [if_neg (by simp [uncorrected]), ← hu]
  rfl

theorem repairRow_run {s : State} {x c bank row n : Nat} {y : Site} (hy : y = s.site x)
    (hn : n = ((y.repairing ++ y.repaired ++ y.hardRows).filter fun q => q.1 = c && q.2.1 = bank).length) :
    s.repairRow x c bank row = if (c, bank, row) ∈ y.repairing ∨ y.chFailed.getLsbD c = true then s
      else if Config.bankRepairs ≤ n then s.failChannel x c
      else s.modSite x fun y => { y with repairing := y.repairing ++ [(c, bank, row)] } := by
  unfold State.repairRow
  dsimp only
  rw [← hy, ← hn]
  exact ite_congr_iff (by simp) rfl rfl

theorem failChannel_run {s : State} {x c : Nat} {y : Site} {st : SiteSt} (hy : y = s.site x)
    (up : y.chFailed.getLsbD c = false) (hst : (y.st = .failed ∧ st = SiteSt.failed) ∨ (y.st = .absent ∧ st = SiteSt.absent) ∨
      (y.st ≠ .failed ∧ y.st ≠ .absent ∧ st = if 8 < popcount (setBit y.chFailed c) then .failed else .degraded)) :
    s.failChannel x c = (((s.setSite x { y with chFailed := setBit y.chFailed c, st := st }).log 8 2
      (channelIndex x c)).cper { source := 7, unitKind := 8, finding := 2, unit := channelIndex x c, published := true }) := by
  have next : (match y.st with
      | .failed => .failed
      | .absent => .absent
      | _ => if 8 < popcount (setBit y.chFailed c) then .failed else .degraded) = st := by
    obtain ⟨now, rfl⟩ | ⟨now, rfl⟩ | ⟨notFailed, notAbsent, rfl⟩ := hst
    · rw [now]
    · rw [now]
    · split
      · contradiction
      · contradiction
      · rfl
  unfold State.failChannel
  rw [← hy, if_neg (by simp [up]), State.modSite_eq, ← hy, ← next] <;> rfl

theorem endMove_same {α : Type} (g : State → α) (port : ∀ u p x, g (State.setPort u p x) = g u)
    (die : ∀ u d x, g (State.setIod u d x) = g u) (fn : ∀ u f x, g (State.setFn u f x) = g u)
    (host : ∀ (u : State) m i, g { u with host := m, msix := i } = g u) (s : State) (m : HandOver) (r : BitVec 32) :
    g (s.endMove m r) = g ({ s with moves := s.moves.filter fun (q : HandOver) => q.page ≠ m.page }.setPage m.page r) := by
  unfold State.endMove
  dsimp only
  split
  · rw [finish_same g fn host]
    split
    · rw [answer_same g port die]
    · rfl
  · split
    · rw [answer_same g port die]
    · rfl

/-- Settles O41: reports, channels, rows, staging blocks, heat, and the end of a hand-over and of a zeroing. -/
theorem stackEvents : Obligations.StackEvents := by
  refine ⟨?_, ?_, ?_, ?_, ?_, ?_, ?_, ?_, ?_, ?_, ?_, ?_⟩
  · intro s x l hx chans fitted
    rw [exec_hbmEccPoll, execHbmEccPoll, onUnit_of (by simpa [hx] using chans), due_of fitted]
  · exact fun s u x r hu => ⟨fun yes v hv => eccReport_corrected yes hu hv, fun no => eccReport_uncorrected no hu⟩
  · exact fun s x c bank row n y hy hn => repairRow_run hy hn
  · intro s x c hx hc fitted
    rw [exec_hbmChannelFail, execHbmChannelFail, onUnit_of (by simp [hx, hc]), due_of fitted]
  · intro s x c y hy
    exact ⟨fun failed => if_pos (hy ▸ failed), fun up st hst => failChannel_run hy up hst⟩
  · intro s x c bank row hx hc listed
    rw [exec_hbmSoftRepairComplete, execHbmSoftRepairComplete, onUnit_of (by simp [hx, hc]), due_of (by simpa using listed)]
    rfl
  · intro s u e he fitted none0 none1
    refine ⟨?_, fun fresh hu => ⟨fun x site => ?_, fun d die => ?_⟩⟩
    · rw [exec_stagingBlockTest]
      unfold execStagingBlockTest
      rw [onUnit_of (by cases e <;> simpa using he)]
      simp
    · subst site hu
      rw [exec_stagingBlockTest, execStagingBlockTest, onUnit_of (by simpa using he),
        due_of (by simp [fitted, none0, none1, fresh])]
    · subst die hu
      rw [exec_stagingBlockTest, execStagingBlockTest, onUnit_of (by simpa using he),
        due_of (by simp [fitted, none0, none1, fresh])]
  · intro s x hx fitted full
    rw [exec_hbmHot, execHbmHot, onUnit_of (by simpa using hx), due_of (by simp [fitted, full])]
    rfl
  · intro s x hx
    rw [exec_hbmStackCool, execHbmStackCool, onUnit_of (by simpa using hx)]
  · intro s page m hp found pending fresh
    have run : exec (.handoverComplete page) s = .next (s.completeMove page).advanceAll := by
      rw [exec_handoverComplete, execHandoverComplete, onUnit_of (by simpa using hp)]
    rw [run, State.completeMove]
    simp only [found]
    rw [due_of (by simp [pending, fresh])]
    exact ⟨fun take => by rw [if_neg take], fun release => by rw [if_pos release]⟩
  · intro s page m hp found release pending idle
    rw [exec_pageZeroingComplete, execPageZeroingComplete, onUnit_of (by simpa using hp), State.completeZero]
    simp only [found]
    rw [due_of (by simp [release, pending, idle])]
    rfl
  · intro s m r
    refine ⟨?_, fun q hq => ?_, ?_, ?_⟩
    · refine (endMove_same (fun u => u.page m.page) (fun _ _ _ => rfl) (fun _ _ _ => rfl) (fun _ _ _ => rfl)
        (fun _ _ _ => rfl) s m r).trans ?_
      simp [State.page, State.setPage]
    · refine (endMove_same (fun u => u.page q) (fun _ _ _ => rfl) (fun _ _ _ => rfl) (fun _ _ _ => rfl)
        (fun _ _ _ => rfl) s m r).trans ?_
      simp [State.page, State.setPage, hq.symm]
    · exact endMove_same State.moves (fun _ _ _ => rfl) (fun _ _ _ => rfl) (fun _ _ _ => rfl) (fun _ _ _ => rfl) s m r
    · exact endMove_same State.hbm (fun _ _ _ => rfl) (fun _ _ _ => rfl) (fun _ _ _ => rfl) (fun _ _ _ => rfl) s m r

end Sys2Proof.Machine
end

section
/-!
PROOFS. The requests of the fabric at the head of a port's queue.
-/
namespace Sys2Proof.Machine

section
variable {s : State} {p : Nat} {k : List Line}

theorem fabricRow_run {f : Line → Bool} {g : List Line → State → State} (hp : p < 48) (head : s.fqHead p = some k)
    (op : f (headOf k) = true) (lit : (s.iod (dieOf p)).st ≠ .dark) : fabricRow p s f g = .next (g k s) := by
  rw [fabricRow, onUnit_of (by simpa using hp)]
  simp only [head]
  rw [due_of (by simp [op, lit])]

theorem atomicRow_run (hp : p < 48) (head : s.fqHead p = some k) (lit : (s.iod (dieOf p)).st ≠ .dark)
    (op : hOp (headOf k) = 3) {n : Nat} (kind : hArg (headOf k) % 8 = n) : atomicRow n p s = .next (s.serveMemory p k) :=
  fabricRow_run hp head (by simp [op, kind]) lit

theorem memoryRow_run (hp : p < 48) (head : s.fqHead p = some k) (lit : (s.iod (dieOf p)).st ≠ .dark) {n : Nat}
    (op : hOp (headOf k) = n) : memoryRow n p s = .next (s.serveMemory p k) :=
  fabricRow_run hp head (decide_eq_true op) lit

theorem serveMemory_refused (bad : s.fabricCheck p k ≠ 0) :
    s.serveMemory p k = (s.popFq p).answer p (headOf k) (s.fabricCheck p k) 0 [] := by
  rw [State.serveMemory, if_pos bad]

theorem serveMemory_unmapped (good : s.fabricCheck p k = 0) (out : s.locate (hAddr (headOf k) % 2 ^ 40) = none) :
    s.serveMemory p k = (s.popFq p).answer p (headOf k) 2 0 [] := by
  rw [State.serveMemory, if_neg (not_not_intro good)]
  simp only [out]

theorem serveMemory_mapped {x o : Nat} (good : s.fabricCheck p k = 0)
    (place : s.locate (hAddr (headOf k) % 2 ^ 40) = some (x, o)) : s.serveMemory p k =
      if (lineStarts (hAddr (headOf k) % 2 ^ 40) (64 * reqLines (headOf k))).any (fun l => (s.cell l).isNone)
        then (s.popFq p).answer p (headOf k) 2 0 []
      else if (s.site x).st = .failed then (s.popFq p).answer p (headOf k) 5 0 []
      else if k.length ≤ s.ringCredit x ∧ s.ringJoins (.iod (dieOf p)) (.hbm x) = true
        then (s.popFq p).ringPush x (ringHead (ringOp (headOf k)) p 1 (headOf k) :: k.drop 1) else s := by
  rw [State.serveMemory, if_neg (not_not_intro good)]
  simp only [place]
  refine ite_congr_iff Iff.rfl rfl (ite_congr_iff (by simp) rfl (ite_congr_iff (by simp [State.ringRoom]) rfl rfl))

end

/-- Settles O43: the memory, atomic, ownership and control operations, with the first check that refuses each. -/
theorem fabricRequests : Obligations.FabricRequests := by
  intro s u p st a page k h hp head hh lit hst ha hpage hu
  subst hh ha hpage hu hst
  refine ⟨memoryRow_run hp head lit, memoryRow_run hp head lit, memoryRow_run hp head lit,
    fun op => ⟨atomicRow_run hp head lit op, atomicRow_run hp head lit op, atomicRow_run hp head lit op,
      atomicRow_run hp head lit op, atomicRow_run hp head lit op, atomicRow_run hp head lit op,
      atomicRow_run hp head lit op, atomicRow_run hp head lit op⟩,
    serveMemory_refused, serveMemory_unmapped, fun x o => serveMemory_mapped, fun op => ?_, fun op c why => ?_,
    fun op good fm mapped rest still => ?_, fun w ok hw hok => ⟨fun op => ⟨fun c why => ?_, fun b off good allowed block => ?_⟩,
      fun op v hv => ⟨fun c why => ?_, fun b off good allowed block inside => ?_⟩⟩⟩
  · rw [exec_irantHandover, execIrantHandover, fabricRow_run hp head (decide_eq_true op) lit]
    refine ⟨fun bad => by rw [if_pos bad], fun c good hc => ?_⟩
    rw [if_neg (not_not_intro good), ← hc]
    exact ⟨fun bad => by rw [if_pos bad], fun good => by rw [if_neg (not_not_intro good)]⟩
  · rw [exec_reclaim, execReclaim, fabricRow_run hp head (decide_eq_true op) lit]
    obtain ⟨bad, rfl⟩ | ⟨good, notFm, rfl⟩ | ⟨good, fm, unmapped, rfl⟩ | ⟨good, fm, mapped, busy, rfl⟩ := why
    · rw [if_pos bad]
    · rw [if_neg (not_not_intro good), if_pos (by simp [notFm])]
    · rw [if_neg (not_not_intro good), if_neg (by simp [fm]), if_pos (by rw [unmapped]; rfl)]
    · rw [if_neg (not_not_intro good), if_neg (by simp [fm]), if_neg (by rw [mapped]; exact Bool.false_ne_true), if_pos (by rwa [Bool.or_eq_true])]
  · rw [exec_reclaim, execReclaim, fabricRow_run hp head (decide_eq_true op) lit]
    dsimp only
    rw [if_neg (not_not_intro good), if_neg (by simp [fm]), if_neg (by rw [mapped]; exact Bool.false_ne_true),
      if_neg (by rw [rest, still]; exact Bool.false_ne_true)]
  · rw [exec_ctlRead, execCtlRead, fabricRow_run hp head (decide_eq_true op) lit]
    dsimp only
    rw [← hw, ← hok]
    obtain ⟨bad, rfl⟩ | ⟨good, denied, rfl⟩ | ⟨good, allowed, none_, rfl⟩ := why
    · rw [if_pos bad]
    · rw [if_neg (not_not_intro good), if_pos (by simp [denied])]
    · rw [if_neg (not_not_intro good), if_neg (by simp [allowed])]
      simp only [none_]
  · rw [exec_ctlRead, execCtlRead, fabricRow_run hp head (decide_eq_true op) lit]
    dsimp only
    rw [← hw, ← hok, if_neg (not_not_intro good),
      if_neg (by simp [allowed])]
    simp only [block]
  · rw [exec_ctlWrite, execCtlWrite, fabricRow_run hp head (decide_eq_true op) lit]
    dsimp only
    rw [← hw, ← hok, ← hv]
    obtain ⟨bad, rfl⟩ | ⟨good, denied, rfl⟩ | ⟨good, allowed, none_, rfl⟩ | ⟨good, allowed, rfl, b, off, block, past⟩ := why
    · rw [if_pos bad]
    · rw [if_neg (not_not_intro good), if_pos (by simp [denied])]
    · rw [if_neg (not_not_intro good), if_neg (by simp [allowed])]
      simp only [none_]
    · rw [if_neg (not_not_intro good), if_neg (by simp [allowed])]
      simp only [block]
      rw [if_pos past]
  · rw [exec_ctlWrite, execCtlWrite, fabricRow_run hp head (decide_eq_true op) lit]
    dsimp only
    rw [← hw, ← hok, ← hv,
      if_neg (not_not_intro good), if_neg (by simp [allowed])]
    simp only [block]
    rw [if_neg (by rw [inside]; exact Bool.false_ne_true)]

end Sys2Proof.Machine
end

section
/-!
PROOFS. Codewords and the packets of a link.
-/
namespace Sys2Proof.Machine

theorem modPort_setPort (s : State) (p : Nat) (y : Port) (f : Port → Port) : (s.setPort p y).modPort p f = s.setPort p (f y) := by
  rw [State.modPort_eq, State.port_setPort, if_pos rfl, State.setPort_setPort]

/-- Nothing of a port changes where it is put as it stands. -/
theorem modPort_modPort_of_same {s : State} {p : Nat} {f g : Port → Port} (same : g (f (s.port p)) = f (s.port p)) :
    (s.modPort p f).modPort p g = s.modPort p f := by
  rw [State.modPort_eq s, modPort_setPort, same]

section
variable {s u : State} {p lane frame : Nat} {errs : CodeErrors} {flits : List Line} {x y : Port}

theorem codeword_noted {l : Lane} (hx : x = s.port p) (hl : l = x.lanes.look {} lane)
    (decoded : (errs.symbols ≤ 15 ∧ y = { x with
        lanes := x.lanes.put {} lane (l.decoded s.mgt.nextTick errs.symbols errs.bits)
        frames := (x.frames.filter fun f => !(f.1 = frame && f.2.1 = lane)) ++ [(frame, lane, flits.take 10)] }) ∨
      (15 < errs.symbols ∧ y = { x with
        cwUncorr := min (x.cwUncorr + 1) 65535, lanes := x.lanes.put {} lane { l with badRun := l.badRun + 1 }
        frames := (x.frames.filter fun f => !(f.1 = frame && f.2.1 = lane)) ++ [(frame, lane, [])] })) :
    (let good : Bool := errs.symbols ≤ 15;
      s.modPort p fun x => { x with
        cwUncorr := if good then x.cwUncorr else sat16 (x.cwUncorr + 1),
        lanes :=
          let l := x.lanes.look {} lane
          x.lanes.put {} lane (if good then l.decoded s.now errs.symbols errs.bits else { l with badRun := l.badRun + 1 }),
        frames := (x.frames.filter fun f => !(f.1 = frame && f.2.1 = lane)) ++
          [(frame, lane, if good then flits.take 10 else [])] }) = s.setPort p y := by
  subst hx hl
  obtain ⟨few, rfl⟩ | ⟨many, rfl⟩ := decoded
  · rw [decide_eq_true few]
    rfl
  · rw [decide_eq_false (by omega)]
    rfl

theorem execCodewordReceived_run (hp : p < 48) (hlane : lane < 9) (hframe : frame < 65536) (hx : x = s.port p)
    (listens : x.listens = true) (serves : x.inService.contains lane = true)
    (noted : (let good : Bool := errs.symbols ≤ 15;
      s.modPort p fun x => { x with
        cwUncorr := if good then x.cwUncorr else sat16 (x.cwUncorr + 1),
        lanes :=
          let l := x.lanes.look {} lane
          x.lanes.put {} lane (if good then l.decoded s.now errs.symbols errs.bits else { l with badRun := l.badRun + 1 }),
        frames := (x.frames.filter fun f => !(f.1 = frame && f.2.1 = lane)) ++
          [(frame, lane, if good then flits.take 10 else [])] }) = s.setPort p y) (hu : u = s.setPort p y) :
    execCodewordReceived p lane frame errs flits s = .next (match y.frameFlits frame with
      | none => u
      | some fs => ((fs.drop x.inService.length).foldl (fun a f => a.takeFlit p f)
          ((fs.take x.inService.length).foldl (fun a f => if f.isNone then (a.takeFlit p f).sendNak p else a.takeFlit p f)
            (u.setPort p { y with frame := (frame + 1) % 65536, frames := y.frames.filter fun f => f.1 ≠ frame }))).repeatMap p) := by
  have port_u : u.port p = y := by rw [hu, State.port_setPort, if_pos rfl]
  rw [execCodewordReceived, onUnit_of (by simp [hp, hlane])]
  dsimp only at noted ⊢
  rw [← hx, due_of (by rw [listens, serves, decide_eq_true hframe]; rfl), noted, ← hu, port_u]
  cases y.frameFlits frame with
  | none => rfl
  | some fs => rw [State.modPort_eq, port_u]

end

theorem takePacket_run {s : State} {p ahead : Nat} {k : List Line} {h : Line} {x : Port} (hh : h = headOf k)
    (hx : x = s.port p) (hahead : ahead = (hSeq h + 65536 - x.rxLseq) % 65536) :
    s.takePacket p k = if crcGood k = false then
        (s.modPort p fun x => { x with crcErr := min (x.crcErr + 1) 65535 }).sendNak p
      else if hCls h = 4 then (if 8 ≤ hOp h then s.modPort p fun x => { x with crcErr := min (x.crcErr + 1) 65535 }
        else s.modPort p fun x => { x with rx := x.rx ++ [(s.stampAt (.iod (dieOf p)), k)] })
      else if 4 < hCls h ∨ x.st ≠ .up then s
      else if ahead = 0 then (s.modPort p fun x => { x with
        rxLseq := (x.rxLseq + 1) % 65536, nakked := false }).acceptPacket p k
      else if 32768 ≤ ahead ∨ x.nakked = true then s else s.sendNak p := by
  unfold State.takePacket
  dsimp only
  rw [← hh, ← hx, ← hahead]
  simp only [Bool.not_eq_true', Bool.or_eq_true, decide_eq_true_eq, ite_or_eq, sat16]

/-- The port once the first packet `k` of a link's operation is taken out. -/
theorem port_taken {s u : State} {p : Nat} {came : Dword} {k : List Line} {x : Port} (hx : x = s.port p) (hu : u = s.modPort p fun x => { x with rx := x.rx.erase (came, k) }) :
    u.port p = { x with rx := x.rx.erase (came, k) } := by
  rw [hu, port_modPort, ← hx]

/-- What an ACK of `n` leaves of a port's replay buffer. -/
def Port.ackedUpTo (x : Port) (n : Nat) : Port :=
  match x.replay.map fun k => hSeq (headOf k) with
  | [] => x
  | b :: bs => if (b :: bs).contains n then { x with replay := x.replay.filter fun k => !seqLe b (hSeq (headOf k)) n } else x

theorem Port.ackedUpTo_of_mem {x : Port} {n b : Nat} (first : (x.replay.map fun k => hSeq (headOf k)).head? = some b)
    (held : n ∈ x.replay.map fun k => hSeq (headOf k)) :
    x.ackedUpTo n = { x with replay := x.replay.filter fun k => !seqLe b (hSeq (headOf k)) n } := by
  rw [Port.ackedUpTo]
  cases seqs : x.replay.map fun k => hSeq (headOf k) with
  | nil => rw [seqs] at first; exact nomatch first
  | cons c cs =>
    rw [seqs] at first held
    obtain rfl : c = b := Option.some.inj first
    exact if_pos (by simpa using held)

theorem Port.ackedUpTo_of_not_mem {x : Port} {n : Nat} (out : n ∉ x.replay.map fun k => hSeq (headOf k)) :
    x.ackedUpTo n = x := by
  rw [Port.ackedUpTo]
  cases seqs : x.replay.map fun k => hSeq (headOf k) with
  | nil => rfl
  | cons c cs => exact if_neg (by rw [seqs] at out; simpa using out)

theorem Port.ackedUpTo_txq (x : Port) (n : Nat) : (x.ackedUpTo n).txq = x.txq := by
  rw [Port.ackedUpTo]
  split
  · rfl
  · exact (apply_ite Port.txq ..).trans (ite_self _)

theorem execAck_run {s u : State} {p : Nat} {came : Dword} {k : List Line} (hp : p < 48)
    (found : (s.port p).rx.find? (fun k => hCls (headOf k.2) = 4 && hOp (headOf k.2) = 0) = some (came, k))
    (hu : u = s.modPort p fun x => { x with rx := x.rx.erase (came, k) }) : execAck p s =
      .next ((u.modPort p fun x => x.ackedUpTo (hAddr (headOf k) % 65536)).pump p (u.port p).txq.length) := by
  rw [execAck, linkRow_run _ hp found hu]
  dsimp only
  rw [← Port.ackedUpTo_txq (u.port p) (hAddr (headOf k) % 65536), ← port_modPort u p fun x => x.ackedUpTo _]
  rfl

/-- Settles O44: how codewords, flits and packets are taken, and what each packet of a link does. -/
theorem linkPackets : Obligations.LinkPackets := by
  refine ⟨?_, fun l now errs bitErrs e he => he ▸ rfl, fun s p ahead k h x hh hx ha => takePacket_run hh hx ha, ?_,
    fun s p n stuck => ?_, fun s p op a b c d => by rw [State.sendLink, State.modPort_eq, State.modPort_eq],
    fun s p => by rw [State.becomeUp]⟩
  · intro s u v a p lane frame errs flits x y l hp hlane hframe hx listens serves hl decoded hu
    rw [exec_codewordReceived,
      execCodewordReceived_run hp hlane hframe hx listens serves (codeword_noted hx hl decoded) hu]
    refine ⟨fun part => by rw [part], fun fs whole hv ha => ?_⟩
    rw [whole, ha, hv]
  · intro s u p op n came k h x hp hx hh hn found hu
    have taken : u.port p = { x with rx := x.rx.erase (came, k) } := port_taken hx hu
    have state : (u.port p).st = x.st := by rw [taken]
    refine ⟨fun op b first held => ?_, fun op out => ?_, fun op => ?_, fun op => ?_, fun op t2 t3 v hv => ?_,
      fun op t4 v hv => ?_, fun op v hv => ?_, fun op v hv => ?_, fun op f late m hm hf hlate => ?_⟩
    · subst op
      have left : (u.port p).ackedUpTo n = { u.port p with
          replay := (u.port p).replay.filter fun k => !seqLe b (hSeq (headOf k)) n } :=
        Port.ackedUpTo_of_mem (by rw [taken]; exact first) (by rw [taken]; exact held)
      rw [exec_ack, execAck_run hp (hx ▸ found) hu, ← hh, ← hn, State.modPort_eq, left, State.modPort_eq, taken]
    · subst op
      have left : (u.port p).ackedUpTo n = u.port p := Port.ackedUpTo_of_not_mem (by rw [taken]; exact out)
      have whole : u.setPort p (u.port p) = u := by rw [taken, hu, State.modPort_eq, State.setPort_setPort, hx]
      rw [exec_ack, execAck_run hp (hx ▸ found) hu, ← hh, ← hn, State.modPort_eq, left, whole, taken]
    · subst op
      rw [exec_nak, execNak, linkRow_run _ hp (hx ▸ found) hu, ← hh, ← hn, state, due]
      refine congrArg _ (ite_congr_iff (by simp) rfl rfl)
    · subst op
      rw [exec_credit, execCredit, linkRow_run _ hp (hx ▸ found) hu, ← hh]
      dsimp only
      rw [port_modPort, taken]
    · subst op
      rw [exec_timeSync, execTimeSync, linkRow_run _ hp (hx ▸ found) hu, ← hh, state, due, hv]
      exact congrArg _ (ite_congr_iff (by simp) rfl rfl)
    · subst op
      rw [exec_timeResp, execTimeResp, linkRow_run _ hp (hx ▸ found) hu, ← hh, state, due, hv]
      exact congrArg _ (ite_congr_iff (by simp [and_assoc]) rfl rfl)
    · subst op
      have after : (v.port p).st = x.st := by rw [hv, port_modPort, taken]
      rw [exec_depart, execDepart, linkRow_run _ hp (hx ▸ found) hu, ← hh]
      dsimp only
      rw [← hv, after]
      exact congrArg (fun w : State => Host.Outcome.next w.chooseParent) (ite_congr_iff (by simp) rfl rfl)
    · subst op
      have after : (v.port p).st = x.st ∧ (v.port p).sentAdmit = x.sentAdmit := by rw [hv, port_modPort, taken]; exact ⟨rfl, rfl⟩
      rw [exec_admitted, execAdmitted, linkRow_run _ hp (hx ▸ found) hu, ← hh]
      dsimp only
      rw [← hv, after.1, after.2]
      exact congrArg _ (ite_congr_iff (by simp) rfl rfl)
    · subst op
      rw [exec_laneMap, execLaneMap, linkRow_run _ hp (hx ▸ found) hu, ← hh, state, due]
      refine congrArg _ (ite_congr_iff (by simp) ?_ rfl)
      have frame : late = ((u.port p).frame + 65536 - f) % 65536 := by rw [taken]; exact hlate
      rw [State.modPort_eq, State.modPort_eq, ← hm, ← hf, ← frame]
      simp only [Bool.and_eq_true, decide_eq_true_eq, sat16]
  · cases n with
    | zero => rfl
    | succ n => rw [State.pump]; exact if_pos (by rw [stuck]; rfl)

end Sys2Proof.Machine
end

section
/-!
PROOFS. The lanes, the timers and the packets of an Irant port, and its requests that run out of time.
-/
namespace Sys2Proof.Machine

section
variable {s u : State} {p : Nat}

theorem execLaneRetire_run {lane f : Nat} {x : Port} (hp : p < 48) (hlane : lane < 9) (up : (s.port p).st = .up)
    (kept : (s.port p).retired.getLsbD lane = false)
    (failing : ((s.port p).lanes.look {} lane).failing s.mgt.nextTick = true)
    (hx : x = { s.port p with
      retired := setBit (s.port p).retired lane, laneRetires := min ((s.port p).laneRetires + 1) 65535 })
    (hu : u = (s.setPort p x).raiseEdge (.iod (dieOf p)) 0 0 6 5 s.mgt.nextTick false) (hf : f = (x.frame + 64) % 65536) :
    execLaneRetire p lane s = .next (if x.good.length < 4 then (u.leaveUp p .down false).chooseParent
      else if x.inService.contains lane then
        (u.sendLink p 7 ((laneMask x.lanesLeft).toNat + f * 2 ^ 16) 0 0 0).modPort p fun y => { y with
          mapAt := some (f, laneMask x.lanesLeft), mapOwn := true }
      else u) := by
  have marked : (s.modPort p fun x => { x with
      retired := setBit x.retired lane, laneRetires := sat16 (x.laneRetires + 1) }) = s.setPort p x := by
    rw [State.modPort_eq, hx, sat16]
  have port : u.port p = x := by
    have same : u.port p = (s.setPort p x).port p := by rw [hu]; rfl
    rw [same, State.port_setPort, if_pos rfl]
  rw [execLaneRetire, onUnit_of (by simp [hp, hlane]),
    due_of (by rw [up, kept, State.now, failing]; rfl)]
  dsimp only
  rw [marked, State.now, State.setPort_mgt, ← hu, port, ← hf]

theorem startRetrain_down {full : Bool} (down : (s.port p).st = .down) : s.startRetrain p full = s.modPort p fun x =>
    { x with
      st := .retraining, full := full || !s.portSaved p, sentAdmit := false, gotAdmit := false, failedQual := false
      tail := [], frames := [] } := by
  rw [State.startRetrain]
  dsimp only
  simp only [down]

theorem execAutoRetrain_run (hp : p < 48) (ready : s.mgt.ready = true) (down : (s.port p).st = .down)
    (stayed : (s.port p).downByDepart = false) (qualifies : (s.port p).failedQual = false)
    (rested : ∀ t, (s.port p).autoTime = some t → t + 60000000 ≤ s.mgt.nextTick) (lit : (s.iod (dieOf p)).st ≠ .dark) :
    execAutoRetrain p s = .next (s.modPort p fun x => { x with
      autoTime := some s.mgt.nextTick, st := .retraining, full := !s.portSaved p, sentAdmit := false, gotAdmit := false
      failedQual := false, tail := [], frames := [] }) := by
  have enough : (match (s.port p).autoTime with
      | some t => decide (t + 60000000 ≤ s.now)
      | none => true) = true := by
    split
    · rename_i t time
      exact decide_eq_true (rested t time)
    · rfl
  have marked : (s.modPort p fun x => { x with autoTime := some s.mgt.nextTick }).port p =
      { s.port p with autoTime := some s.mgt.nextTick } := port_modPort ..
  have saved : (s.modPort p fun x => { x with autoTime := some s.mgt.nextTick }).portSaved p = s.portSaved p := by
    rw [State.portSaved, marked]
    rfl
  rw [execAutoRetrain, onUnit_of (by simpa using hp)]
  dsimp only
  rw [due_of]
  · rw [State.now, startRetrain_down (by rw [marked]; exact down), saved, State.modPort_eq, marked, State.modPort_eq,
      State.setPort_setPort, State.modPort_eq]
    rfl
  · simp only [Bool.and_eq_true, beq_iff_eq, Bool.not_eq_true', decide_eq_true_eq]
    exact ⟨⟨⟨⟨⟨ready, down⟩, stayed⟩, qualifies⟩, enough⟩, lit⟩

theorem qualified_run {bad : List Nat} {x : Port}
    (hx : x = { s.port p with retired := laneMask bad, mapAt := none, mapOwn := false }) (hu : u = s.setPort p x) :
    s.qualified p bad = if x.good.length < 4 then u.setPort p (if x.full
        then { x with st := .down, failedQual := true, downByDepart := false }
        else { x with st := if s.mgt.ready then .retraining else .training, full := true })
      else ((if x.full then u.modMgt fun m => m.save (4, p) x.peerKey else u).setPort p { x with
          st := .ready, inService := x.lanesLeft, failedQual := false }).tryAdmit p := by
  have port : u.port p = x := by rw [hu, State.port_setPort, if_pos rfl]
  have port_saved (f : Mgt → Mgt) : (if x.full then u.modMgt f else u).port p = x :=
    (apply_ite (fun u : State => u.port p) ..).trans ((ite_self _).trans port)
  have marked : (s.modPort p fun x => { x with retired := laneMask bad, mapAt := none, mapOwn := false }) = u := by
    rw [State.modPort_eq, hu, hx]
  rw [State.qualified]
  dsimp only
  rw [marked, port, State.modPort_eq, State.modPort_eq, port, port_saved]
  rw [hu, State.setPort_mgt]

end

/-- A packet of a port that `accepts` takes. -/
theorem takeRx_run {s u : State} {p : Nat} {accepts : Line → Bool} {came : Dword} {k : List Line}
    (found : (s.port p).rx.find? (fun k => accepts (headOf k.2)) = some (came, k))
    (hu : u = s.modPort p fun x => { x with rx := x.rx.erase (came, k) }) : s.takeRx p accepts = some (came, k, u) := by
  rw [State.takeRx, found, hu]

theorem execTransitForward_run {s u : State} {p : Nat} {came : Dword} {k : List Line} {h : Line} (hp : p < 48)
    (valid : s.mgt.devValid = true) (lit : (s.iod (dieOf p)).st ≠ .dark) (hh : h = headOf k)
    (found : (s.port p).rx.find? (fun k => 1 ≤ hCls (headOf k.2) && hCls (headOf k.2) ≤ 3 && !s.isOwn (headOf k.2)) =
      some (came, k)) (hu : u = (s.modPort p fun x => { x with rx := x.rx.erase (came, k) })) :
    execTransitForward p s = .next (if 32 ≤ hHops h + 1 then u.noRoute (dieOf p) p k
      else match u.routeTo (dieOf p) (hDst h) with
        | some q => (u.modIod (dieOf p) fun x => { x with transit := (x.transit + 1) % 2 ^ 32 }).queueAt q p
          (setField h 24 8 (hHops h + 1) :: k.drop 1)
        | none => u.noRoute (dieOf p) p k) := by
  rw [execTransitForward, onUnit_of (by simpa using hp), due_of (by simp [valid, lit]),
    takeRx_run (accepts := fun h => 1 ≤ hCls h && hCls h ≤ 3 && !s.isOwn h) found hu, hh] <;> rfl

theorem headOf_singleton (h : Line) : headOf [h] = h := rfl

/-- Settles O46: each event of a port and of a request that it holds. -/
theorem portEvents : Obligations.PortEvents := by
  refine ⟨?_, ?_, ?_, ?_, ?_, ?_, ?_, ?_, ?_, ?_, ?_, ?_⟩
  · intro s p f m hp map come
    rw [exec_laneSwitch, execLaneSwitch, onUnit_of (by simpa using hp)]
    simp only [map]
    rw [due_of (decide_eq_true come)]
  · intro s u p lane f x hp hlane up kept failing hx hu hf
    rw [exec_laneRetire, execLaneRetire_run hp hlane up kept failing hx hu hf]
  · intro s p hp up
    refine ⟨?_, fun new => ?_, ?_, fun t1 => ?_⟩
    · rw [exec_portSignalLoss, execPortSignalLoss, onUnit_of (by simpa using hp), due_of (by simp [up])]
    · rw [exec_ackTimer, execAckTimer, onUnit_of (by simpa using hp), due_of (by simp [up, new])]
      have same : ((s.sendLink p 0 (((s.port p).rxLseq + 65535) % 65536) 0 0 0).port p).rxLseq = (s.port p).rxLseq := by
        rw [State.sendLink, port_modPort]
      rw [State.modPort_eq, State.modPort_eq, same]
    · rw [exec_creditTimer, execCreditTimer, onUnit_of (by simpa using hp), due_of (by simp [up])]
    · rw [exec_timeSyncTimer, execTimeSyncTimer, onUnit_of (by simpa using hp), due_of (by simp [up])]
  · intro s p hp ready down stayed qualifies rested lit
    rw [exec_autoRetrain, execAutoRetrain_run hp ready down stayed qualifies rested lit]
  · intro s p hp draining
    rw [exec_replayDrainEnd, execReplayDrainEnd, onUnit_of (by simpa using hp), due_of draining]
  · intro s p ok hp training settled
    rw [exec_portTrainingComplete, execPortTrainingComplete, onUnit_of (by simpa using hp),
      due_of (by simpa [settled] using training)]
    simp only [Bool.or_eq_true]
  · intro s u p bad x hp lanes qualifying hx hu
    rw [exec_portQualificationComplete, execPortQualificationComplete, onUnit_of (by simpa [hp] using lanes),
      due_of (by simp [qualifying]), qualified_run hx hu]
    exact ⟨fun few => by rw [if_pos few], fun enough => by rw [if_neg (by omega)]⟩
  · intro s u p came k h hp valid lit hh found hu
    rw [exec_transitForward, execTransitForward_run hp valid lit hh found hu]
    refine ⟨fun q near route => by rw [if_neg (by omega), route], fun stuck => ?_⟩
    obtain far | lost := stuck
    · rw [if_pos far]
    · rw [lost]
      exact congrArg _ (ite_self _)
  · intro s u p d came k hp hd found hu
    have run : exec (.rsp p) s = .next (u.takeRsp (dieOf p) d k) := by
      rw [exec_rsp, execRsp, onUnit_of (by simpa using hp), takeRx_run (accepts := fun h => hCls h = 2 && s.isOwn h) found rfl,
        hu, hd]
    rw [run, State.takeRsp]
    exact ⟨fun q asked => by rw [asked], fun late => by rw [late]; rfl⟩
  · intro s d tag q hd asked
    rw [exec_requestTimeout, execRequestTimeout, onUnit_of (by simpa using hd), asked]
    rfl
  · intro s p src tag came his move mine q hp late hhis hmine hmove hq
    subst hhis hmine hmove hq
    rw [exec_requestExpired, execRequestExpired, onUnit_of (by simpa using hp)]
    simp only [late, headOf_singleton]
    refine ⟨fun m moved => ?_, fun x k still asked waits => ?_, fun k still none_ waits => ?_⟩
    · split
      · rename_i same
        obtain rfl := Option.some.inj (moved.symm.trans same)
        rfl
      · rename_i none_
        exact nomatch moved.symm.trans none_
    · simp only [asked, waits]
      split
      · rename_i same
        exact nomatch still.symm.trans same
      · rfl
    · have unasked : (List.range 16).find? (fun x => (s.site x).oxq.items.any fun k =>
          ringKind (headOf k) = 1 && ringWho (headOf k) = p && (hSrc (headOf k) = src && hTag (headOf k) = tag)) = none :=
        List.find?_eq_none.2 fun x hx => by rw [none_ x (List.mem_range.1 hx)]; exact Bool.false_ne_true
      simp only [unasked, waits]
      split
      · rename_i same
        exact nomatch still.symm.trans same
      · rfl
  · intro s p st b
    rw [State.leaveUp]

end Sys2Proof.Machine
end

section
/-!
PROOFS. Phases, trips, drops and ramps of a region.
-/
namespace Sys2Proof.Machine

theorem modPwr_pwr (s : State) (r : Nat) (f : HenPwr → HenPwr) : ((s.modPwr r f).region r).pwr = f (s.region r).pwr := by
  rw [State.modPwr, State.modRegion_eq, State.region_setRegion, if_pos rfl]

theorem modPwr_congr {s : State} {r : Nat} {f g : HenPwr → HenPwr} (same : f (s.region r).pwr = g (s.region r).pwr) :
    s.modPwr r f = s.modPwr r g := by
  rw [State.modPwr, State.modPwr, State.modRegion_eq, State.modRegion_eq, same]

section
variable {s u : State} {r : Nat}

theorem execPhaseFail_run {ph n : Nat} (hr : r < 40) (hph : ph < 64) (good : (s.region r).pwr.phFailed.getLsbD ph = false)
    (hn : n = popcount (setBit (s.region r).pwr.phFailed ph))
    (hu : u = (((s.modPwr r fun p => { p with
        phFailed := setBit p.phFailed ph
        topMhz := if n ≤ 16 then 1300 else if n ≤ 24 then 25 * (64 - n) else p.topMhz
        st := if p.st = .dark ∨ p.st = .isolated then p.st else if n ≤ 16 then .normal else .capped }).log 7 2
          (phaseIndex r ph)).pwrError r 0 2).cper
            { source := 7, unitKind := 7, finding := 2, unit := phaseIndex r ph, published := true }) :
    execPhaseFail r ph s = .next (if 25 ≤ n then u.requestDark r .phases else u) := by
  have marked : (s.modPwr r fun p =>
        let p := { p with phFailed := setBit p.phFailed ph }
        let n := p.phCount
        { p with
          topMhz := if n ≤ 16 then 1300 else if n ≤ 24 then 25 * (64 - n) else p.topMhz,
          st := if p.st == .dark || p.st == .isolated then p.st else p.service }) = s.modPwr r fun p => { p with
        phFailed := setBit p.phFailed ph
        topMhz := if n ≤ 16 then 1300 else if n ≤ 24 then 25 * (64 - n) else p.topMhz
        st := if p.st = .dark ∨ p.st = .isolated then p.st else if n ≤ 16 then .normal else .capped } := by
    refine modPwr_congr ?_
    simp only [HenPwr.service, HenPwr.phCount, ← hn, Bool.or_eq_true, beq_iff_eq]
  have count : (u.region r).pwr.phCount = n := by
    rw [hu, cper_region, pwrError_region, if_pos rfl, log_region, HenPwr.phCount, modPwr_pwr, hn]
  rw [execPhaseFail, onUnit_of (by simp [hr, hph])]
  dsimp only at marked ⊢
  rw [due_of (by rw [good]; rfl), marked, ← hu, count]

theorem feedLost_run {v : State} {q : Nat} (hq : q = partner r)
    (hu : u = (s.modPwr r fun p => { p with feedOwn := false }).modPwr q (fun p => { p with feedNb := false }))
    (hv : v = (if (u.region r).pwr.feedOwn = true ∨ (u.region r).pwr.feedNb = true then u else u.planeOff r)) :
    s.feedLost r = if (v.region q).pwr.feedOwn = true ∨ (v.region q).pwr.feedNb = true then v else v.planeOff q := by
  simp only [State.feedLost, Bool.or_eq_true, ← hq, ← hu, ← hv]

/-- What a ramp that ends leaves of its region's power: the rail up, unless a reason to be off stands. -/
def HenPwr.rampEnded (p : HenPwr) : HenPwr :=
  let p := { p with ramping := false, halfRate := false, railUp := true, railOff := false }
  match p.reason with
  | some c => if p.st == .isolated then { p with railUp := false } else { p with st := .dark, cause := c, railUp := false }
  | none => p

theorem execRampComplete_eq : execRampComplete r s = onUnit (r < 40) s fun s => due (s.region r).pwr.ramping s fun s =>
    (adjacent r).foldl (fun u q => if (adjacent q).any (fun z => z ≠ r && u.longWait z) then u
      else u.modPwr q fun p => { p with near255 := false }) (s.modPwr r HenPwr.rampEnded) := rfl

theorem execDropMeasurement_run {v : State} {drop amps low high base k k25 : Nat} {p : HenPwr} (hr : r < 40)
    (hp : p = (s.region r).pwr) (hbase : base = baseAt amps (s.mgt.dropBins.look [] r)) (known : 0 < base)
    (high_ : 100 ≤ amps) (even : 20 * (high - low) < amps) (hk : k = if 3 * base < 2 * drop then min (p.streak + 1) 15 else 0)
    (hk25 : k25 = if 5 * base < 2 * drop then min (p.streak25 + 1) 15 else 0)
    (hu : u = s.modPwr r fun p => { p with
      drop := min drop 4095, base := min base 4095, ratio := min (256 * drop / base) 4095, streak := k
      streak25 := k25 })
    (hv : v = if 3 ≤ k ∧ p.crack = false then
      ((u.modPwr r fun p => { p with crack := true, limitA := 220 }).pwrError r 2 6).cper
        { source := 7, unitKind := 7, unit := r, published := true } else u) :
    execDropMeasurement r drop ⟨amps, low, high⟩ s =
      .next (if 3 ≤ k25 ∧ p.st ≠ .isolated then (v.pwrError r 1 5).isolate r true else v) := by
  have marked : (s.modPwr r fun p => { p with
        drop := min drop 4095, base := min base 4095, ratio := min (256 * drop / base) 4095,
        streak := if 3 * base < 2 * drop then min (p.streak + 1) 15 else 0,
        streak25 := if 5 * base < 2 * drop then min (p.streak25 + 1) 15 else 0 }) = u := by
    rw [hu]
    refine modPwr_congr ?_
    rw [← hp, hk, hk25]
  have shown : (u.region r).pwr = { p with
      drop := min drop 4095, base := min base 4095, ratio := min (256 * drop / base) 4095, streak := k
      streak25 := k25 } := by rw [hu, modPwr_pwr, hp]
  have crack : (3 ≤ k && !p.crack) = true ↔ 3 ≤ k ∧ p.crack = false := by simp
  have again : (3 ≤ k25 && p.st ≠ .isolated) = true ↔ 3 ≤ k25 ∧ p.st ≠ .isolated := by simp
  rw [execDropMeasurement, onUnit_of (by simpa using hr)]
  dsimp only at crack again ⊢
  rw [← hbase, due_of (by simp [known, high_, even]), marked, shown]
  dsimp only
  simp only [crack, ← hv, again]

theorem execRampComplete_run {p q : HenPwr} (hr : r < 40) (hp : p = (s.region r).pwr) (ramping : p.ramping = true)
    (hq : q = { p with ramping := false, halfRate := false, railUp := true, railOff := false })
    (hu : (p.reason = none ∧ u = s.modPwr r (fun _ => q)) ∨
        (∃ c, p.reason = some c ∧ p.st = .isolated ∧ u = s.modPwr r fun _ => { q with railUp := false }) ∨
        (∃ c, p.reason = some c ∧ p.st ≠ .isolated ∧ u = s.modPwr r fun _ => { q with
          st := .dark, cause := c, railUp := false })) :
    execRampComplete r s = .next ((adjacent r).foldl (fun u q =>
        if (adjacent q).any (fun z => z ≠ r && u.longWait z) then u
        else u.modPwr q fun p => { p with near255 := false }) u) := by
  have ended : s.modPwr r HenPwr.rampEnded = u := by
    subst hq
    obtain ⟨none_, rfl⟩ | ⟨c, some_, isolated, rfl⟩ | ⟨c, some_, other, rfl⟩ := hu
    · refine modPwr_congr ?_
      rw [HenPwr.rampEnded, ← hp]
      split
      · rename_i same
        exact nomatch none_.symm.trans same
      · rfl
    · refine modPwr_congr ?_
      rw [HenPwr.rampEnded, ← hp]
      split
      · exact if_pos (by rw [isolated]; rfl)
      · rename_i same
        exact nomatch some_.symm.trans same
    · refine modPwr_congr ?_
      rw [HenPwr.rampEnded, ← hp]
      split
      · rename_i same
        obtain rfl := Option.some.inj (some_.symm.trans same)
        exact if_neg (by rw [beq_iff_eq]; exact other)
      · rename_i same
        exact nomatch some_.symm.trans same
  rw [execRampComplete_eq, onUnit_of (by simpa using hr), due_of (hp ▸ ramping), ended]

end

/-- Settles O47: each event of a region's power, and what its shared operations do. -/
theorem regionPower : Obligations.RegionPower := by
  refine ⟨?_, ?_, ?_, ?_, ?_, ?_, ?_, ?_, ?_, ?_, ?_, ?_⟩
  · intro s u r ph n hr hph good hn hu
    rw [exec_phaseFail, execPhaseFail_run hr hph good hn hu]
  · intro s r p hr hp ready
    subst hp
    rw [exec_trip, execTrip, onUnit_of (by simpa using hr)]
    dsimp only
    rw [due_of (by simpa using ready)]
  · intro s u r final x hx hu
    rw [State.isolate, ← hx, hu]
  · intro s u v r q hq hu hv
    exact feedLost_run hq hu hv
  · intro s u r hu
    rw [State.railsOff, ← hu]
    rfl
  · exact fun s r bit cause => rfl
  · intro s r q hr hq isolated may notYet rested
    rw [exec_blockReenable, execBlockReenable, onUnit_of (by simpa using hr)]
    dsimp only
    rw [due_of (by simp [isolated, may, notYet, rested]), hq]
  · exact fun s r => rfl
  · intro s u v r drop amps low high base k k25 p hr hp hbase char steady even hk hk25 hu hv
    rw [exec_dropMeasurement, execDropMeasurement_run hr hp hbase char steady even hk hk25 hu hv]
  · intro s r loaded hr waits few room first
    rw [exec_rampRecheck, execRampRecheck, onUnit_of (by simpa using hr)]
    dsimp only
    rw [due_of (by rw [waits, first, decide_eq_true few, decide_eq_true room]; rfl)]
  · intro s r hr waits long
    rw [exec_rampWaitLong, execRampWaitLong, onUnit_of (by simpa using hr)]
    dsimp only
    rw [due_of (by rw [waits, decide_eq_true long]; rfl)]
    rfl
  · intro s u r p q hr hp ramping hq hu
    rw [exec_rampComplete, execRampComplete_run hr hp ramping hq hu]

end Sys2Proof.Machine
end

section
/-!
PROOFS. Retention, the run of a dark region, and the heat of a region, a die and the coolant.
-/
namespace Sys2Proof.Machine

theorem modPwr_ctl (s : State) (r : Nat) (f : HenPwr → HenPwr) : ((s.modPwr r f).region r).ctl = (s.region r).ctl := by
  rw [State.modPwr, State.modRegion_eq, State.region_setRegion, if_pos rfl]

section
variable {s u v : State} {r : Nat} {x : Region}

theorem requestDark_run {c : DarkCause} (hu : u = s.modPwr r (fun p => p.hold c)) (hx : x = s.region r)
    (hv : v = u.modPwr r (fun p => { p with wantDark := some c })) :
    s.requestDark r c = if x.pwr.st = .isolated then u
      else if x.pwr.st = .dark then u.modPwr r fun p => { p with cause := p.darkFor c, rampWait := false }
      else if x.ctl.run then v.report r x.pwr.iAvg 1 else v := by
  have st : (u.region r).pwr.st = x.pwr.st := by rw [hu, modPwr_pwr, hold_st, hx]
  have avg : (u.region r).pwr.iAvg = x.pwr.iAvg := by rw [hu, modPwr_pwr, hold_iAvg, hx]
  have ctl : (u.region r).ctl = x.ctl := by rw [hu, modPwr_ctl, hx]
  simp only [State.requestDark, ← hu, st, avg, ctl, ← hv, beq_iff_eq]

theorem reasonGone_dark (hx : x = s.region r) (dark : x.pwr.st = .dark) : s.reasonGone r = match x.pwr.reason with
    | some c => s.modPwr r fun p => { p with cause := p.darkFor c }
    | none => if x.pwr.railOff then s else s.requestRamp r := by
  rw [State.reasonGone, ← hx]
  exact if_pos (by rw [dark]; rfl)

theorem reasonGone_lit (hx : x = s.region r) (lit : x.pwr.st ≠ .dark) : s.reasonGone r =
    match x.pwr.wantDark, x.pwr.reason with
    | some _, some c => s.modPwr r fun p => { p with wantDark := some c }
    | some _, none =>
      let s := s.modPwr r fun p => { p with wantDark := none }
      if x.ctl.run then s.report r x.pwr.iAvg 2 else s
    | none, _ => s := by
  rw [State.reasonGone, ← hx]
  exact if_neg (by rw [beq_iff_eq]; exact lit)

theorem reasonGone_run (hx : x = s.region r) (hu : u = s.modPwr r (fun p => { p with wantDark := none })) :
    (x.pwr.st = .dark → x.pwr.reason = none → s.reasonGone r = if x.pwr.railOff then s else s.requestRamp r) ∧
      (∀ c, x.pwr.st = .dark → x.pwr.reason = some c → s.reasonGone r = s.modPwr r fun p => { p with cause := p.darkFor c }) ∧
      (x.pwr.st ≠ .dark → x.pwr.wantDark = none → s.reasonGone r = s) ∧
      (x.pwr.st ≠ .dark → x.pwr.wantDark ≠ none → x.pwr.reason = none →
        s.reasonGone r = if x.ctl.run then u.report r x.pwr.iAvg 2 else u) ∧
      (∀ c, x.pwr.st ≠ .dark → x.pwr.wantDark ≠ none → x.pwr.reason = some c →
        s.reasonGone r = s.modPwr r fun p => { p with wantDark := some c }) := by
  refine ⟨fun dark none_ => ?_, fun c dark some_ => ?_, fun lit calm => ?_, fun lit wants none_ => ?_,
    fun c lit wants some_ => ?_⟩
  · rw [reasonGone_dark hx dark, none_]
  · rw [reasonGone_dark hx dark, some_]
  · rw [reasonGone_lit hx lit, calm]
  · obtain ⟨w, want⟩ := Option.ne_none_iff_exists'.1 wants
    rw [reasonGone_lit hx lit, want, none_, hu]
  · obtain ⟨w, want⟩ := Option.ne_none_iff_exists'.1 wants
    rw [reasonGone_lit hx lit, want, some_]

end

theorem setDie_run {s u : State} {d : Nat} {f : Iod → Iod} (hu : u = s.modIod d (fun x => (f x).settle)) :
    s.setDie d f = if (s.iod d).st = .running ∧ (u.iod d).st ≠ .running then u.abortDie d else u := by
  rw [State.setDie, ← hu]
  exact ite_congr_iff (by simp) rfl rfl

/-! ## The time stays as it is -/

theorem writeMem_now (s : State) (a : Nat) (bs : List Byte) : (s.writeMem a bs).now = s.now := by
  induction bs generalizing s a with
  | nil => rfl
  | cons b bs ih =>
    unfold State.writeMem
    rw [ih]
    split
    · rfl
    · rfl

theorem raiseEdge_now (s : State) (e : EdgeId) (part : Nat) (runGen : BitVec 8) (kind cause beat : Nat)
    (region : Bool) : (s.raiseEdge e part runGen kind cause beat region).now = s.now := by
  cases e
  · rfl
  · rfl

theorem writeRecord_now (s : State) (c : Nat) (o : ColOp) (aborted : Bool) : (s.writeRecord c o aborted).now = s.now := by
  have noted (u : State) (l : List (Nat × Int)) (d : DigestLog) :
      (({ u with dlog := d }).modMgt fun m => { m with slacks := l }).now = u.now := rfl
  unfold State.writeRecord
  dsimp only
  rw [State.modChan_eq, State.now, State.setChan_mgt]
  refine (noted _ _ _).trans ?_
  split
  · exact writeMem_now ..
  · split
    · exact raiseEdge_now ..
    · rfl

theorem abortChan_now (c : Nat) (s : State) : (s.abortChan c).now = s.now := by
  unfold State.abortChan
  dsimp only
  rw [State.modChan_eq, State.now, State.setChan_mgt]
  exact List.foldlRecOn (motive := fun u : State => u.now = s.now) _ _ rfl
    fun u kept o _ => (writeRecord_now ..).trans kept

theorem setDie_now (s : State) (d : Nat) (f : Iod → Iod) : (s.setDie d f).now = s.now := by
  rw [setDie_run rfl]
  split
  · exact forAll_same (fun u => u.now) abortChan_now ..
  · rfl

theorem requestDark_now (s : State) (r : Nat) (c : DarkCause) : (s.requestDark r c).now = s.now :=
  congrArg Mgt.nextTick (requestDark_mgt s r c)

theorem Iod.settle_eq (x : Iod) : x.settle = { x with
    st := if x.st = .absent then .absent else if x.darkTillBoot then .dark
      else if x.hotOnly || x.coolOnly || x.laneOnly then .transitOnly else .running } := by
  rw [Iod.settle]
  congr 1
  split
  · rename_i absent
    rw [if_pos absent]
  · rename_i fitted
    rw [if_neg fitted]

/-- Every region asks to go dark and every die carries transit alone, as when the coolant is lost, at the same time. -/
theorem coolantLost_now {s u : State} (same : u.now = s.now) :
    (forAll (List.range 4) (forAll (List.range 40) u fun r s => (s.pwrNote r 7).requestDark r .coolant)
      fun d s => s.setDie d fun x => { x with coolOnly := true }).now = s.now := by
  rw [forAll_same (f := fun d s => s.setDie d fun x => { x with coolOnly := true }) (fun u => u.now)
      fun d u => setDie_now u d _,
    forAll_same (f := fun r s => (s.pwrNote r 7).requestDark r .coolant) (fun u => u.now)
      fun r u => requestDark_now (u.pwrNote r 7) r .coolant, same]

/-- Settles O48: each event of a region's heat, of a die's and of the coolant. -/
theorem regionHeat : Obligations.RegionHeat := by
  refine ⟨?_, ?_, ?_, ?_, ?_, ?_, ?_, ?_, ?_, ?_, ?_, ?_, ?_, ?_⟩
  · intro s r c hr wants still may
    rw [exec_retentionEntry, execRetentionEntry, onUnit_of (by simpa using hr)]
    simp only [wants]
    rw [due_of (by simpa [still] using may)]
  · intro s u r x hr hx dark up lag none_ may hu
    rw [exec_retentionExit, execRetentionExit, onUnit_of (by simpa using hr)]
    dsimp only
    rw [← hx, due_of (by rw [dark, up, lag, none_, may]; rfl), ← hu]
  · intro s r n hr kill assigned running late
    rw [exec_darkRunKill, execDarkRunKill, onUnit_of (by simpa using hr)]
    simp only [kill]
    rw [due_of (by rw [assigned, running, decide_eq_true late]; rfl)]
  · intro s r temp hr
    rw [exec_derate, execDerate, onUnit_of (by simpa using hr)]
  · intro s r hr
    rw [exec_heatOff, execHeatOff, onUnit_of (by simpa using hr), exec_thermTrip, execThermTrip,
      onUnit_of (by simpa using hr)]
    exact ⟨rfl, rfl⟩
  · exact fun s u v r c x hu hx hv => requestDark_run hu hx hv
  · intro s r p hr hp kept
    subst hp
    refine ⟨fun hot => ?_, fun dark trip => ?_⟩
    · rw [exec_heatReturn, execHeatReturn, onUnit_of (by simpa using hr)]
      dsimp only
      rw [due_of (by simpa [kept] using hot)]
    · rw [exec_thermTripRailOff, execThermTripRailOff, onUnit_of (by simpa using hr)]
      dsimp only
      rw [due_of (by simp [dark, trip, kept])]
  · exact fun s u r x hx hu => reasonGone_run hx hu
  · intro s d hd
    refine ⟨fun cool => ?_, ?_, fun lit => ?_⟩
    · rw [exec_iodHot, execIodHot, onUnit_of (by simpa using hd), due_of (by rw [cool]; rfl)]
    · rw [exec_iodCool, execIodCool, onUnit_of (by simpa using hd)]
    · rw [exec_iodTrip, execIodTrip, onUnit_of (by simpa using hd), due_of (by rw [lit]; rfl)]
  · exact fun s u d f hu => setDie_run hu
  · exact Iod.settle_eq
  · intro s u good hu
    rw [exec_coolantLoss, execCoolantLoss, onUnit_of rfl, due_of good, ← hu]
    dsimp only
    have same : u.now = s.now := by rw [hu]; rfl
    rw [due, coolantLost_now same]
    exact congrArg _ (ite_congr_iff (by
      rw [hu]
      simp only [Bool.and_eq_true, decide_eq_true_eq, Bool.not_eq_true', and_assoc]
      exact Iff.rfl) rfl rfl)
  · intro s t0 bad lost
    refine ⟨fun late w e u hu => ?_, fun late => ?_⟩
    · rw [exec_coolantRailCheck, execCoolantRailCheck, onUnit_of rfl]
      simp only [lost]
      rw [due_of (by rw [bad, decide_eq_true late]; rfl)]
      simp only [Bool.and_eq_true, Bool.not_eq_true', ← hu]
    · rw [exec_coolantDepart, execCoolantDepart, onUnit_of rfl]
      simp only [lost]
      rw [due_of (by rw [bad, decide_eq_true late]; rfl)]
      simp only [beq_iff_eq]
      rfl
  · intro s u bad hu
    rw [exec_coolantReturn, execCoolantReturn, onUnit_of rfl, due_of (by rw [bad]; rfl), ← hu]
    dsimp only
    rw [due]
    exact congrArg _ (ite_congr_iff (by rw [hu]; simp) rfl rfl)

end Sys2Proof.Machine
end

section
/-!
PROOFS. The budgeter: intervals, budgets, reports, duty holds and the floor.
-/
namespace Sys2Proof.Machine

theorem stepF_spec (f t : Nat) : (t < f → f ≤ stepF f t + 100 ∧ t ≤ stepF f t ∧ stepF f t < f) ∧
    (f < t → stepF f t = f + 25) ∧ (t = f → stepF f t = f) := by
  refine ⟨fun down => ?_, fun up => ?_, fun level => ?_⟩
  · rw [stepF, if_pos down]
    omega
  · rw [stepF, if_neg (by omega), if_pos up]
  · rw [stepF, if_neg (by omega), if_neg (by omega)]

section
variable {s : State} {m : PowerMeas} {k : Nat}

/-- Where the rate of the interval that begins at tick `k` may not move. -/
def State.rateStays (s : State) (k : Nat) : Prop :=
  s.mgt.fixedOn = true ∨ (s.mgt.modeWait = true ∧ s.mgt.fixed = true) ∨ k < s.now + 2

theorem rateStays_iff : (s.mgt.fixedOn || (s.mgt.modeWait && s.mgt.fixed) || k < s.now + 2) = true ↔ s.rateStays k := by
  simp only [State.rateStays, Bool.or_eq_true, Bool.and_eq_true, decide_eq_true_eq, or_assoc]

theorem nextF_stays (stays : s.rateStays k) : s.nextF m k = (s.mgt.fNext.map (·.2)).getD s.mgt.fMhz := by
  rw [State.nextF]
  refine (if_pos (rateStays_iff.2 stays)).trans ?_
  cases s.mgt.fNext
  · rfl
  · rfl

theorem nextF_moves (moves : ¬ s.rateStays k) : s.nextF m k = stepF s.mgt.fMhz (s.targetF m) := by
  rw [State.nextF]
  exact if_neg (mt rateStays_iff.1 moves)

theorem budgeter_run {f : Nat} {next : Option (Nat × Nat)} (hf : f = s.nextF m k)
    (announced : (s.rateStays k ∧ next = s.mgt.fNext) ∨
      (¬ s.rateStays k ∧ next = if f = s.mgt.fMhz then none else some (k, f))) :
    s.budgeter m k = (List.range 40).foldl (fun u r => u.sendBudget m f (k / 100) r) (s.modMgt fun g => { g with
      demandW := (s.powerAt m 1200 0).floor.toNat % 65536, fNext := next }) := by
  have rate : (if s.mgt.fixedOn || (s.mgt.modeWait && s.mgt.fixed) || k < s.now + 2 then s.mgt.fNext
      else if f = s.mgt.fMhz then none else some (k, f)) = next := by
    obtain ⟨stays, rfl⟩ | ⟨moves, rfl⟩ := announced
    · exact if_pos (rateStays_iff.2 stays)
    · exact if_neg (mt rateStays_iff.1 moves)
  rw [State.budgeter, ← hf, ← rate]
  rfl

theorem excess_run {u : State} {ex : Nat}
    (hex : ex = if s.mgt.fixedOn = true ∧ s.mgt.appliedW ≠ 0 then m.inputW10 - s.mgt.appliedW else 0)
    (hu : u = s.modMgt (fun g => { g with excessW := ex })) : s.excess m = if s.mgt.excessW = 0 ∧ 0 < ex
      then u.fly .mc (faultTok .mc 0 0 5 7 0x7FFF s.now false) else u := by
  have above : (if s.mgt.fixedOn && s.mgt.appliedW ≠ 0 then m.inputW10 - s.mgt.appliedW else 0) = ex := by
    rw [hex]
    exact ite_congr_iff (by simp) rfl rfl
  have same : u.now = s.now := by rw [hu]; rfl
  rw [State.excess, above, ← hu, same]
  exact ite_congr_iff (by simp) rfl rfl

end

theorem beginInterval_run {p : HenPwr} {n i b d : Nat} (kept : p.nextBudget = some (i, b, d)) :
    p.beginInterval n = if i = n % 256 then { p with
      budget := b, duty := d, interval := n % 65536, nextBudget := none } else p := by
  rw [HenPwr.beginInterval, kept]

theorem leadReport_run (s : State) (l q : Nat) : s.leadReport l q = if q = 1 then s.holdRequest l 0 8
    else if q = 2 ∧ (s.region l).pwr.heldPower = false ∧ (∀ r ∈ s.partRegions (s.region l).ctl.part,
      (s.region r).dark = false ∧ (s.region r).pwr.wantDark = none) then s.resumeRequest l 8 else s := by
  have busy : ((s.region l).pwr.heldPower || (s.partRegions (s.region l).ctl.part).any fun r =>
      (s.region r).dark || (s.region r).pwr.wantDark.isSome) = true ↔ ¬ ((s.region l).pwr.heldPower = false ∧
        ∀ r ∈ s.partRegions (s.region l).ctl.part, (s.region r).dark = false ∧ (s.region r).pwr.wantDark = none) := by
    rw [← Bool.not_eq_false]
    refine not_congr ?_
    simp only [Bool.or_eq_false_iff, List.any_eq_false, Bool.or_eq_true, not_or, Bool.not_eq_true,
      Option.isSome_eq_false_iff, Option.isNone_iff_eq_none]
  rw [State.leadReport]
  refine ite_congr_iff Iff.rfl rfl ?_
  by_cases two : q = 2
  · rw [if_pos two]
    dsimp only
    simp only [busy, two, true_and, ite_not]
  · rw [if_neg two, if_neg fun both => two both.1]

/-- Settles O49: what the budgeter computes, and what each event of a budget does. -/
theorem powerBudget : Obligations.PowerBudget := by
  refine ⟨?_, ?_, ?_, stepF_spec, ?_, ?_, ?_, ?_, ?_, leadReport_run, ?_, ?_, ?_⟩
  · intro s m k ready num den hk new
    have interval : (s.now / 100 + 1) * 100 / 100 = s.now / 100 + 1 := by omega
    rw [exec_budgetInterval, execBudgetInterval, onUnit_true]
    dsimp only
    rw [interval, due_of (by simp [ready, num, den, new]), hk]
  · exact fun s u m ex hex hu => excess_run hex hu
  · intro s m k f stays hf hstays
    subst hstays
    exact ⟨fun stays => hf.trans (nextF_stays stays), fun moves => hf.trans (nextF_moves moves),
      fun next announced => budgeter_run hf announced⟩
  · intro s r k heard mine
    rw [exec_budget, execBudget, henToken_run heard, due_of (decide_eq_true mine)]
    rfl
  · exact fun p n i b d kept => beginInterval_run kept
  · intro s k cls kind known
    rw [exec_report, execReport, onUnit_true, due_of (by simp [cls, kind])]
    dsimp only
    rw [if_neg (by simp [known])]
  · intro s u r k c heard hc hu
    have own : ((u.region r).ctl.assigned && (u.region r).ctl.part = k.part.toNat) = true ↔
        c.assigned = true ∧ c.part = k.part.toNat := by
      rw [hc, hu]
      simp only [Bool.and_eq_true, decide_eq_true_eq]
      exact Iff.rfl
    rw [exec_report, execReport, henToken_run heard, ← hu]
    simp only [own, due]
    rw [hc, hu]
    rfl
  · intro s k n
    refine ⟨fun hn => ?_, fun hn => ?_, fun hn => ?_⟩
    · rw [exec_report, execReport, onUnit_of (by simpa using hn)]; rfl
    · rw [exec_report, execReport, onUnit_of (by simpa using hn)]; rfl
    · rw [exec_report, execReport, onUnit_of (by simpa using hn)]; rfl
  · intro s u r amps m p hr ready num den above hu hp
    rw [exec_overBudgetReport, execOverBudgetReport, onUnit_of (by simpa using hr),
      due_of (by simp [ready, num, den, above])]
    have same : u.now = s.now := by rw [hu, State.now, report_mgt, State.now]
    dsimp only
    rw [← hu, ← hp, same]
  · intro s p l hp lead
    refine ⟨fun running sub duty free new => ?_, fun held less => ?_⟩
    · rw [exec_dutySubperiod, execDutySubperiod, onUnit_of (by simpa using hp)]
      simp only [lead]
      rw [due_of (by simp [running, sub, duty, free, new])]
    · rw [exec_dutyHoldEnd, execDutyHoldEnd, onUnit_of (by simpa using hp)]
      simp only [lead]
      rw [due_of (by simpa [held] using less)]
  · intro s m ready num den
    rw [exec_floorRecompute, execFloorRecompute, onUnit_true, due_of (by simp [ready, num, den])]

end Sys2Proof.Machine
end

section
/-!
PROOFS. Bring-up stage by stage.
-/
namespace Sys2Proof.Machine

theorem pickSlot_spec {m : Mgt} {a : Bool} {ok : Bool → Prop}
    (hok : ∀ b, ok b ↔ (m.slotOf b).failed = false ∧ fwGood (m.slotOf b).bytes = true) :
    (ok a → m.pickSlot a = some a) ∧ (¬ ok a → ok (!a) → m.pickSlot a = some (!a)) ∧
      (¬ ok a → ¬ ok (!a) → m.pickSlot a = none) := by
  have test (b : Bool) : (fun b => !(m.slotOf b).failed && fwGood (m.slotOf b).bytes) b = true ↔ ok b := by simp [hok b]
  rw [Mgt.pickSlot]
  generalize (fun b => !(m.slotOf b).failed && fwGood (m.slotOf b).bytes) = accepts at test ⊢
  refine ⟨fun good => ?_, fun bad good => ?_, fun bad worse => ?_⟩
  · rw [List.find?_cons_of_pos ((test a).2 good)]
  · rw [List.find?_cons_of_neg (mt (test a).1 bad), List.find?_cons_of_pos ((test (!a)).2 good)]
  · rw [List.find?_cons_of_neg (mt (test a).1 bad), List.find?_cons_of_neg (mt (test (!a)).1 worse), List.find?_nil]

theorem execControllerFirmware_run {s : State} {a : Bool} (powered : s.mgt.powered = true) (stage : s.mgt.stage = 1)
    (runs : s.mgt.stopped = false) (whole : s.mgt.recovery = false)
    (ha : a = (if (s.mgt.slotOf s.mgt.cfgSlot).failed then !s.mgt.cfgSlot else s.mgt.cfgSlot)) :
    (∀ b, s.mgt.pickSlot a = some b → execControllerFirmware s = .next (s.modMgt fun m => { m with
        slot := b, svn := Config.firmwareSvn (m.slotOf b).bytes
        restarts := if b = m.slot ∧ m.ready = false then m.restarts else 0, stage := if m.ready then 9 else 2 })) ∧
      (s.mgt.pickSlot a = none → execControllerFirmware s =
        .next (s.modMgt fun m => { m with recovery := true, fail := 1 }).unpower) := by
  rw [execControllerFirmware, onUnit_true]
  dsimp only
  rw [due_of (by simp [powered, stage, runs, whole]), ← ha]
  refine ⟨fun b found => ?_, fun none_ => ?_⟩
  · rw [found]
    simp only [Bool.and_eq_true, decide_eq_true_eq, Bool.not_eq_true']
  · rw [none_]

theorem retry_spec (m : Mgt) : (m.stopped = true → m.retried = false → m.fail = 4 ∨ m.fail = 5 ∨ m.fail = 6 →
      m.retry = { m with retried := true, stopped := false, fail := 0, stage := 2 }) ∧
    (m.stopped = false ∨ m.retried = true ∨ (m.fail ≠ 4 ∧ m.fail ≠ 5 ∧ m.fail ≠ 6) → m.retry = m) := by
  refine ⟨fun stopped first code => ?_, fun stays => ?_⟩
  · exact if_pos (by simp [stopped, first, code, or_assoc])
  · refine if_neg ?_
    simp only [Bool.and_eq_true, Bool.not_eq_true', Bool.or_eq_true, decide_eq_true_eq]
    rintro ⟨⟨stopped, first⟩, code⟩
    rw [stopped, first] at stays
    simp only [Bool.true_eq_false, Bool.false_eq_true, false_or] at stays
    omega

theorem restart_spec {m n : Mgt}
    (hn : n = { m with restarts := m.restarts + 1, stage := 1, act := if m.act = .running then .failed else m.act }) :
    (m.restarts < 2 → m.restart = n) ∧ (2 ≤ m.restarts → m.restart = n.dropSlot) := by
  have restarted : { m with restarts := m.restarts + 1, stage := 1, act := if m.act == .running then .failed else m.act } = n := by
    simp only [hn, beq_iff_eq]
  have count : n.restarts = m.restarts + 1 := by rw [hn]
  rw [Mgt.restart, restarted]
  exact ⟨fun few => if_neg (by omega), fun many => if_pos (by omega)⟩

theorem dropSlot_run {m n : Mgt} (hn : n = m.setSlot m.slot { m.slotOf m.slot with failed := true }) :
    m.dropSlot = if (n.slotOf (!m.slot)).failed then { n with recovery := true, fail := 1 } else { n with restarts := 0 } := by
  have slot : n.slot = m.slot := by
    rw [hn, Mgt.setSlot]
    exact (apply_ite Mgt.slot ..).trans (ite_self _)
  rw [Mgt.dropSlot, ← hn, slot]

theorem unpower_run (s : State) : (s.mgt.recovery = false → s.unpower = s) ∧ (s.mgt.recovery = true → s.unpower =
    ((List.range 40).foldl (fun v r => (v.railsOff r).planeOff r) s).modMgt fun m => { m with ready := false }) :=
  ⟨fun whole => if_pos (by rw [whole]; rfl), fun recovery => if_neg (by rw [recovery]; exact Bool.false_ne_true)⟩

theorem execFuseMaps_run {s : State} {f : Fuses} (works : s.works 3 = true) (hf : f = s.mgt.fuses) :
    execFuseMaps s = .next (if f.checkOk = false then s.modMgt fun m => m.halt 2 else
      ((List.range 4).foldl (fun (v : State) d => v.modIod d fun x => { x with
          st := if iodFitted f d then .running else .absent, hotOnly := false, laneOnly := false, darkTillBoot := false })
        ((List.range 16).foldl (fun (v : State) x => v.modSite x fun y => { y with
          st := if hbmFitted f x then .ok else .absent }) { s with units := {
            tiles := f.tiles.foldl (fun (a : Tab Nat) t => a.put 0 t 1) [], badRouters := f.routers
            planeLost := s.units.planeLost } })).modMgt fun m => { m with stage := 4 }) := by
  rw [execFuseMaps, onUnit_true, due_of works, ← hf]
  simp only [Bool.not_eq_true']
  rfl

theorem trainFindings_ok {q : TrainFindings} (segments : ∀ k ∈ q.segments, k < 20)
    (ticks : ∀ p ∈ q.ticks, p.1 < 40 ∧ p.2.1 < 6) (mbps : ∀ p ∈ q.mbps, p.1 < 16) (peers : ∀ p ∈ q.peers, p.1 < 48) :
    (q.segments.all (fun k => k < 20) && q.ticks.all (fun p => p.1 < 40 && p.2.1 < 6) &&
      q.mbps.all (fun p => p.1 < 16) && q.peers.all fun p => p.1 < 48) = true := by
  simp only [Bool.and_eq_true, List.all_eq_true, decide_eq_true_eq]
  exact ⟨⟨⟨segments, ticks⟩, mbps⟩, peers⟩

theorem treeReaches_modMgt (s : State) (f : Mgt → Mgt) (ins : List (Nat × Nat × Nat)) (u : Units) :
    (s.modMgt f).treeReaches ins u = s.treeReaches ins u := rfl

theorem forAll_foldl {l : List Nat} {s t : State} {f : Nat → State → State} {g : State → Nat → State} (same : s = t)
    (step : ∀ u n, f n u = g u n) : forAll l s f = l.foldl g t := by
  have steps : (fun u n => f n u) = g := funext fun u => funext fun n => step u n
  rw [forAll, steps, same]

section
variable {s a b c d e g h : State} {q : TrainFindings} {f : Fuses}

/-- The state that link training leaves where the levels agree and the tick tree reaches every fed hen. -/
theorem execLinkTraining_run (works : s.works 7 = true) (hf : f = s.mgt.fuses) (kept : s.mgt.refLost = false)
    (segments : ∀ k ∈ q.segments, k < 20) (ticks : ∀ p ∈ q.ticks, p.1 < 40 ∧ p.2.1 < 6) (mbps : ∀ p ∈ q.mbps, p.1 < 16)
    (peers : ∀ p ∈ q.peers, p.1 < 48) (caps : capsMatch f q = true) (level : ifLevel f.stepWest = ifLevel f.stepEast)
    (reach : s.treeReaches q.ticks (s.units.trained q) = true)
    (ha : a = (s.modMgt fun m => { m with
      numLevel := deviceLevel f, bands := q.temps.foldl (fun t p => t.put 0 p.1 (bandOf p.2)) [] }).modMgt (fun m =>
        { m with fullLinks := m.inFull q.eyeBad }))
    (hb : b = ((List.range 16).filter fun x => hbmFitted f x).foldl (fun v x => v.modSite x fun y =>
      y.train (Tab.look 0 q.mbps x)) a)
    (hc : c = (fittedDies f).foldl (fun v d => v.modIod d fun x => { x with
      capLevel := if f.iodS.getLsbD d then 1 else 2 }) b)
    (hd : d = q.peers.foldl (fun v p => v.modPort p.1 fun x => { x with peerKey := p.2 })
      (c.modUnits fun u => u.trained q).cutOff)
    (he : e = ((List.range 48).filter fun p => iodFitted f (dieOf p)).foldl (fun v p =>
      if (v.port p).st = .dark ∧ (v.iod (dieOf p)).st ≠ .dark then v.modPort p fun x => { x with
        st := .training, full := !v.mgt.restore || !v.mgt.savedOk (4, p) x.peerKey } else v) d)
    (hg : g = e.growTree q.ticks)
    (hh : h = (List.range 40).foldl (fun v r => v.modRegion r fun x => { x with
      clk := if x.clk.on then x.clk.origin0 v.now else { x.clk with count := 0, expect := 0, lag := {} }
      ctl := { x.ctl with tBase := 0 } }) g) :
    execLinkTraining q s = .next (h.modMgt fun m => { m with originSet := true, bistTime := m.nextTick, stage := 8 }) := by
  rw [execLinkTraining, onUnit_of (trainFindings_ok segments ticks mbps peers)]
  dsimp only
  rw [due_of (by rw [works, kept]; rfl), ← hf, if_neg (by rw [caps]; exact Bool.false_ne_true), if_neg (not_not_intro level),
    State.modMgt_units, treeReaches_modMgt, due_of reach]
  refine congrArg (fun u : State => Host.Outcome.next (u.modMgt fun m => { m with
    originSet := true, bistTime := m.nextTick, stage := 8 })) ?_
  rw [hh]
  refine forAll_foldl ?_ fun u r => ?_
  · rw [hg, he]
    refine congrArg (fun u : State => u.growTree q.ticks) (forAll_foldl ?_ fun u p => ?_)
    · rw [hd, hc]
      refine congrArg (fun u : State => q.peers.foldl (fun v p => v.modPort p.1 fun x => { x with peerKey := p.2 })
        (u.modUnits fun u => u.trained q).cutOff) (forAll_foldl ?_ fun u d => ?_)
      · rw [hb]
        exact forAll_foldl (ha ▸ rfl) fun u x => rfl
      · have level : min (if f.iodS.getLsbD d then 1 else 2) 2 = if f.iodS.getLsbD d then 1 else 2 := by
          split
          · rfl
          · rfl
        rw [level]
    · exact ite_congr_iff (by simp) rfl rfl
  · rw [State.modRegion_eq, State.modRegion_eq, State.modRegion_eq]
    by_cases on : (u.region r).clk.on = true
    · rw [if_pos on, if_pos on]
    · rw [if_neg on, if_neg on]

end

/-- Settles O50: what each stage of bring-up leaves, and what its shared operations do. -/
theorem bringUp : Obligations.BringUp := by
  refine ⟨?_, ?_, fun m a ok hok => pickSlot_spec hok, ?_, fun m code => ⟨rfl, retry_spec m⟩, ?_, ?_, ?_, ?_, ?_, ?_, ?_, ?_,
    ?_, fun m n hn => restart_spec hn, fun m n hn => dropSlot_run hn, unpower_run⟩
  · intro s stage dark
    rw [exec_powerGood, execPowerGood, onUnit_true, due_of (by simp [stage, dark])]
    rfl
  · intro s a powered stage runs whole ha
    rw [exec_controllerFirmware]
    exact execControllerFirmware_run powered stage runs whole ha
  · intro s q hq works
    subst hq
    refine ⟨?_, ?_⟩
    · rw [exec_halfAlwaysOnPower, execHalfAlwaysOnPower, onUnit_true]
      dsimp only
      rw [due_of works, if_pos rfl]
      rfl
    · rw [exec_halfAlwaysOnPower, execHalfAlwaysOnPower, onUnit_true]
      dsimp only
      rw [due_of works, if_neg Bool.false_ne_true]
  · intro s u f works hf
    rw [exec_fuseMaps, execFuseMaps_run works hf]
    exact ⟨fun good hu => by rw [if_neg (by simp [good]), hu], fun bad => by rw [if_pos bad]⟩
  · intro s q works groups wires
    rw [exec_seamAndBridgeRepair, execSeamAndBridgeRepair,
      onUnit_of (by simp only [Bool.and_eq_true, List.all_eq_true]; exact ⟨groups, wires⟩), due_of works]
  · intro s q works rails tiles routers hens phases sites dies tripped
    rw [exec_bist, execBist, onUnit_of, due_of]
    · simp only [Bool.and_eq_true, List.all_eq_true, Bool.or_eq_true, List.mem_range]
      exact ⟨works, rails⟩
    · simp only [Bool.and_eq_true, List.all_eq_true, decide_eq_true_eq]
      exact ⟨⟨⟨⟨⟨⟨tiles, routers⟩, hens⟩, phases⟩, sites⟩, dies⟩, tripped⟩
  · intro s a b c e g h i q f works found hf ha hb hc he hg hh hi
    rw [exec_floorPlanMerge, execFloorPlanMerge, onUnit_true]
    simp only [found]
    rw [due_of works, hi, hh, hg, he, hc, hb, ha, hf]
    rfl
  · intro s a b c d e g h q f works hf
    refine ⟨fun lost => ?_, fun kept segments ticks mbps peers => ⟨fun differ => ?_, fun caps levels => ?_, ?_⟩⟩
    · rw [exec_refclk, execRefclk, onUnit_true, due_of (by rw [works, lost]; rfl)]
    · rw [exec_linkTraining, execLinkTraining, onUnit_of (trainFindings_ok segments ticks mbps peers)]
      dsimp only
      rw [due_of (by rw [works, kept]; rfl), ← hf, if_pos (by rw [differ]; rfl)]
    · rw [exec_linkTraining, execLinkTraining, onUnit_of (trainFindings_ok segments ticks mbps peers)]
      dsimp only
      rw [due_of (by rw [works, kept]; rfl), ← hf, if_neg (by rw [caps]; exact Bool.false_ne_true), if_pos levels]
      rfl
    · intro caps level reach ha hb hc hd he hg hh
      rw [exec_linkTraining,
        execLinkTraining_run works hf kept segments ticks mbps peers caps level reach ha hb hc hd he hg hh]
  · intro s a b c d e q works wires lanes segments channels ha hb hc hd he
    rw [exec_errorRateQualification, execErrorRateQualification, onUnit_of, due_of works, he, hd, hc, hb, ha]
    simp only [Bool.and_eq_true, List.all_eq_true, decide_eq_true_eq]
    exact ⟨⟨⟨wires, lanes⟩, segments⟩, channels⟩
  · intro s a b works ha hb
    rw [exec_publication, execPublication, onUnit_true, due_of works]
    refine congrArg (fun u : State => Host.Outcome.next (u.relock.publish.modMgt fun m => { m with ready := true })) ?_
    rw [hb, ha]
    refine congrArg (fun u : State => u.modMgt fun m => { m with
      ilv := m.bootStriped, striped := m.bootStriped, gen := 0, restarts := 0 }) (forAll_foldl rfl fun u x => ?_)
    rfl
  · intro s stage works
    rw [exec_stageTimeout, execStageTimeout, onUnit_true, due_of (by rw [works, decide_eq_true stage]; rfl)]
  · intro s powered stage whole runs
    rw [exec_watchdogExpiry, execWatchdogExpiry, onUnit_true, due_of (by simp [powered, stage, whole, runs])]

end Sys2Proof.Machine
end

section
/-!
PROOFS. Activation, recovery, the pins and the shutdowns.
-/
namespace Sys2Proof.Machine

/-- What the level of PERST_N that counts once its window ends starts. -/
theorem perstCounts (m : Mgt) :
    (let m := { m with perstWindow := false, perstLow := !m.perstPin };
      if m.perstPin then m.perstHeard else m) = { m with
      perstWindow := false, perstLow := !m.perstPin, pcieTraining := m.pcieTraining || (m.perstPin && !m.refLost)
      pcieWait := m.pcieWait || (m.perstPin && m.refLost) } := by
  dsimp only [Mgt.perstHeard]
  cases high : m.perstPin with
  | false => simp only [Bool.false_and, Bool.or_false, Bool.false_eq_true, if_false]
  | true =>
    cases lost : m.refLost with
    | false => simp only [Bool.not_false, Bool.and_true, Bool.and_false, Bool.or_true, Bool.or_false, if_true,
        Bool.false_eq_true, if_false, Bool.not_true]
    | true => simp only [Bool.not_true, Bool.and_true, Bool.and_false, Bool.or_true, Bool.or_false, if_true]

/-- Settles O51: activation, recovery, the pins, and what the shutdowns and the reset keep and clear. -/
theorem firmwareAndPower : Obligations.FirmwareAndPower := by
  refine ⟨?_, ?_, ?_, ?_, ?_, ?_, fun s m => ?_, fun m => ?_, ?_⟩
  · intro s runs
    refine ⟨fun soon => ?_, fun late => ?_⟩
    · rw [exec_activationHealthy, execActivationHealthy, onUnit_true, due_of (by rw [runs, decide_eq_true soon]; rfl)]
    · rw [exec_activationTimeout, execActivationTimeout, onUnit_true, due_of (by rw [runs, decide_eq_true late]; rfl)]
  · intro s fw recovery addressed
    rw [exec_spdmRecoveryImage, execSpdmRecoveryImage, onUnit_true]
    dsimp only
    rw [recovery, addressed]
    refine ⟨fun bad => by rw [bad]; rfl, fun good => ?_⟩
    rw [good]
    rfl
  · intro s a good
    rw [exec_entdaa, execEntdaa, onUnit_true, due_of good]
  · intro s good window
    rw [exec_perstNDelayEnd, execPerstNDelayEnd, onUnit_true, due_of (by rw [good, window]; rfl)]
    exact congrArg (fun f => Host.Outcome.next (s.modMgt f)) (funext perstCounts)
  · intro s m hm cool rails
    subst hm
    rw [exec_moduleReset, execModuleReset, onUnit_true]
    dsimp only
    rw [due_of (by simpa [cool] using rails)]
  · intro s
    rw [exec_busbarShutdown, execBusbarShutdown, onUnit_true]
  · exact ⟨rfl, rfl, rfl, rfl, rfl, rfl, rfl, rfl, rfl, rfl, rfl, rfl, rfl⟩
  · exact ⟨rfl, rfl, rfl, rfl, rfl, rfl, rfl, rfl, rfl, rfl, rfl, rfl⟩
  · intro s ready
    rw [exec_commandedShutdown, execCommandedShutdown, onUnit_true, due_of ready]
    rfl

end Sys2Proof.Machine
end

section
/-!
PROOFS. The passes, the packets, the chunks and the digest log of the collectives.
-/
namespace Sys2Proof.Machine

/-! ## A pass that falls due -/

theorem execColPassDue_run {s u v : State} {c i b t seq : Nat} {x : Chan} {d : ColDesc} (hc : c < 64) (hx : x = s.chan c)
    (hd : d = x.desc i) (active : x.st = .active) (beat : s.oxBeat (.iod x.home) x.part = some b)
    (next : x.nextDue x.passes = some (t, i)) (come : t ≤ b) (few : (x.ops.filter (·.started)).length < 8)
    (ready : ∀ k, k < dL d → ∀ p ∈ partsAt (dIn d) d.src.toNat d.srcScale.toNat k (dE d) (dElems d k),
      s.mustWait p.1 p.2 = false) (hseq : seq = x.next.toNat) (hu : u = s.openOp c seq)
    (hv : v = (u.modChan c fun y => { y with
        next := y.next + 1, passes := y.passes.put 0 i (y.passes.look 0 i + 1) }).modOp c seq
      (fun o => { o with started := true, tStart := u.chanTime c, present := List.range x.n })) :
    execColPassDue c i s = .next (((x.sendOrder d).foldl
        (if dKind d = 3 then State.sendGather c seq d else State.sendContrib c seq d) v).advance c 8) := by
  have still : ((List.range (dL d)).flatMap fun k =>
      partsAt (dIn d) d.src.toNat d.srcScale.toNat k (dE d) (dElems d k)).any (fun p => s.mustWait p.1 p.2) = false := by
    simp only [List.any_eq_false, List.mem_flatMap, List.mem_range]
    rintro p ⟨k, hk, hp⟩
    rw [ready k hk p hp]
    exact Bool.false_ne_true
  rw [execColPassDue, onUnit_of (by simpa using hc)]
  dsimp only
  rw [← hx, ← hd]
  simp only [beat, next]
  rw [due_of (by rw [active, decide_eq_true come, decide_eq_true few, still]; rfl), ← hseq, ← hu, ← hv]

/-! ## Packets -/

theorem colSeen_run {s : State} {c kind p : Nat} {h : Line} {f : State → State} {q : Nat × Nat × Nat × Nat}
    (hq : q = (cSeq h, kind, cChunk h, cRank h)) :
    (q ∈ (s.chan c).seen → s.colSeen c kind p h f = s.modIod (dieOf p) fun y => { y with
        duplicate := sat16 (y.duplicate + 1) }) ∧
      (q ∉ (s.chan c).seen → s.colSeen c kind p h f = f (s.modChan c fun x => { x with
        seen := (x.seen.filter fun e =>
          (s.chan c).ahead e.1 < 64 || 2 ^ 31 ≤ (s.chan c).ahead e.1) ++ [q] })) := by
  rw [State.colSeen, ← hq]
  refine ⟨fun seen => if_pos (by simpa using seen), fun fresh => (if_neg (by simpa using fresh)).trans ?_⟩
  rw [State.modChan_eq, State.modChan_eq]

section
variable {s u : State} {c seq : Nat} {h : Line} {data : List Line} {came now : Dword} {x : Chan} {o : ColOp}

/-- Whether a contribution to a chunk comes after the chunk's close or its window. -/
theorem contribution_late : (o.closed.contains (cChunk h) || (match o.opened.find? fun q => q.1 = cChunk h with
      | some q => lateAfter came q.2 (dWindow (x.desc o.desc))
      | none => false)) = true ↔ cChunk h ∈ o.closed ∨ ∃ q, o.opened.find? (fun q => q.1 = cChunk h) = some q ∧
        lateAfter came q.2 (dWindow (x.desc o.desc)) = true := by
  rw [Bool.or_eq_true, List.contains_iff_mem]
  refine or_congr Iff.rfl ?_
  cases o.opened.find? fun q => q.1 = cChunk h with
  | none => simp
  | some q => simp

theorem contribute_open (hx : x = s.chan c) (begun : x.op seq = some o) {late : Prop}
    (hlate : late ↔ cChunk h ∈ o.closed ∨ ∃ q, o.opened.find? (fun q => q.1 = cChunk h) = some q ∧
      lateAfter came q.2 (dWindow (x.desc o.desc)) = true) [Decidable late] : s.contribute c seq h data came now =
    if late then
      (let s := (s.modOp c seq fun o => { o with lateRx := o.lateRx ++ [(0, cRank h)] }).modChan c fun x => { x with
        lateRx := sat16 (x.lateRx + 1) };
      if cRank h = x.rank then s.lateNoticed c seq
      else s.colSend c (s.colPacket c { op := 3, dst := (x.peer (cRank h)).1, seq := seq, chunk := cChunk h, rank := cRank h } []))
    else s.modOp c seq fun o => { o with
      opened := if o.opened.any (fun q => q.1 = cChunk h) then o.opened else o.opened ++ [(cChunk h, now)]
      contribs := o.contribs ++ [{
        chunk := cChunk h, rank := cRank h, elems := cElems h, data := data, time := now, digest := cDigest h }]
      rcvdDig := o.rcvdDig ++ [(0, cRank h, cChunk h, cDigest h)] } := by
  rw [State.contribute]
  dsimp only
  rw [← hx]
  simp only [begun]
  exact ite_congr_iff (contribution_late.trans hlate.symm) rfl rfl

end

/-- What a row of collective packets does with its first packet. -/
theorem colRow_first {s u : State} {p op : Nat} {came : Dword} {k : List Line} {h : Line}
    {f : Nat → Dword → List Line → State → State} (hp : p < 48) (hh : h = headOf k)
    (first : (s.port p).rx.find? (fun k => hCls (headOf k.2) = 3 && hOp (headOf k.2) = op && s.isOwn (headOf k.2)) =
      some (came, k)) (hu : u = (s.modPort p fun x => { x with rx := x.rx.erase (came, k) }).freeCredit p 3 k.length) :
    colRow op p s f = .next (if s.colStale h then u.modIod (dieOf p) fun y => { y with stale := sat16 (y.stale + 1) }
      else if 262144 ≤ s.colLines (s.chan (cChan h)).home && 0 < hData h then s
      else if colDigest k ≠ cDigest h then
        (if 2 ^ 31 ≤ (s.chan (cChan h)).ahead (cSeq h) then
          u.modChan (cChan h) fun y => { y with digestRej := sat16 (y.digestRej + 1) }
        else (u.modChan (cChan h) fun y => { y with digestRej := sat16 (y.digestRej + 1) }).openOp (cChan h) (cSeq h)).modOp
          (cChan h) (cSeq h) fun o => { o with
            rejectFlag := true, rejected := o.rejected ++ [(if op = 0 then 0 else 1, cRank h)] }
      else f (cChan h) came k u) := by
  rw [colRow, onUnit_of (by simpa using hp),
    takeRx_run (accepts := fun h => hCls h = 3 && hOp h = op && s.isOwn h) first rfl]
  dsimp only
  rw [← hh, ← hu]

theorem colPacket_first {s u v : State} {p op c seq : Nat} {came : Dword} {k : List Line} {h : Line} {e : Instr}
    {f : Nat → Dword → List Line → State → State} (hp : p < 48) (row : exec e s = colRow op p s f) (hh : h = headOf k)
    (hc : c = cChan h) (hseq : seq = cSeq h)
    (first : (s.port p).rx.find? (fun k => hCls (headOf k.2) = 3 && hOp (headOf k.2) = op && s.isOwn (headOf k.2)) =
      some (came, k)) (hu : u = (s.modPort p fun x => { x with rx := x.rx.erase (came, k) }).freeCredit p 3 k.length) :
    (s.colStale h = true → exec e s = .next (u.modIod (dieOf p) fun y => { y with stale := sat16 (y.stale + 1) })) ∧
      (s.colStale h = false → 262144 ≤ s.colLines (s.chan c).home → 0 < hData h → exec e s = .next s) ∧
      (s.colStale h = false → s.colLines (s.chan c).home < 262144 ∨ hData h = 0 → colDigest k ≠ cDigest h →
        v = u.modChan c (fun y => { y with digestRej := sat16 (y.digestRej + 1) }) →
        exec e s = .next ((if 2 ^ 31 ≤ (s.chan c).ahead seq then v else v.openOp c seq).modOp c seq fun o => { o with
          rejectFlag := true, rejected := o.rejected ++ [(if op = 0 then 0 else 1, cRank h)] })) := by
  rw [row, colRow_first hp hh first hu, ← hc, ← hseq]
  refine ⟨fun stale => by rw [if_pos stale], fun fresh full data => ?_, fun fresh room bad hv => ?_⟩
  · rw [if_neg (by rw [fresh]; exact Bool.false_ne_true), if_pos (by rw [decide_eq_true full, decide_eq_true data]; rfl)]
  · have takes : ¬ (262144 ≤ s.colLines (s.chan c).home && 0 < hData h) = true := by
      simp only [Bool.and_eq_true, decide_eq_true_eq]
      omega
    rw [if_neg (by rw [fresh]; exact Bool.false_ne_true), if_neg takes, if_pos bad, hv]

/-! ## The folds and the digest log -/

theorem foldRanks_spec (a b : Word) (xs : List Word) : foldRanks 0 [a] = a ∧
    foldRanks 0 (a :: xs ++ [b]) = fadd (foldRanks 0 (a :: xs)) b ∧
    foldRanks 2 (a :: xs ++ [b]) = fmax (foldRanks 2 (a :: xs)) b ∧
    foldRanks 3 (a :: xs ++ [b]) = fmin (foldRanks 3 (a :: xs)) b ∧
    foldRanks 1 (a :: xs) = meanOf (foldRanks 0 (a :: xs)) (xs.length + 1) := by
  simp [foldRanks, List.foldl_append]

theorem digestLog_add (l : DigestLog) (e : BitVec 256) :
    (32768 ≤ l.entries → l.add e = { l with discards := sat16 (l.discards + 1) }) ∧
      (l.entries < 32767 → (l.add e).entries = l.entries + 1 ∧ (l.add e).fill = l.fill) ∧
      (l.entries = 32767 → l.freeze = false → (l.add e).entries = 0 ∧ (l.add e).fill = !l.fill) := by
  refine ⟨fun full => if_pos full, fun room => ?_, fun last moves => ?_⟩
  · rw [DigestLog.add, if_neg (by omega)]
    dsimp only
    rw [if_neg (by simp; omega)]
    exact ⟨rfl, rfl⟩
  · rw [DigestLog.add, if_neg (by omega)]
    dsimp only
    rw [if_pos (by simp [last, moves])]
    exact ⟨rfl, rfl⟩

/-! ## Chunks -/

section
variable {s : State} {c seq ch : Nat} {x : Chan} {o : ColOp}

theorem execChunkClose_run {t0 : Dword} {cs : List Contrib} (hc : c < 64) (hx : x = s.chan c) (active : x.st = .active)
    (begun : x.op seq = some o) (opened : o.opened.find? (fun q => q.1 = ch) = some (ch, t0)) (fresh : ch ∉ o.closed)
    (hcs : cs = o.contribs.filter (fun q => q.chunk = ch))
    (ends : cs.length = x.n ∨ lateAfter (s.chanTime c) t0 (dWindow (x.desc o.desc)) = true) :
    execChunkClose c seq ch s = .next (((s.modOp c seq fun o => { o with
          closed := o.closed ++ [ch]
          contribs := o.contribs.map fun q => if q.chunk = ch then { q with data := [] } else q }).sendResult c seq ch
            (x.desc o.desc) ((List.range x.n).filter fun r => cs.any fun q => q.rank = r)
            (cs.foldl (fun a q => if 0 < tsDiff q.time.toNat a.toNat then q.time else a) t0)
            (foldChunk (s.chanSela c) x (x.desc o.desc) seq ch cs)).advance c 8) := by
  rw [execChunkClose, onUnit_of (by simpa using hc)]
  dsimp only
  rw [← hx]
  simp only [begun, opened]
  rw [← hcs, due_of]
  simp only [Bool.and_eq_true, Bool.or_eq_true, Bool.not_eq_true', decide_eq_true_eq, beq_iff_eq]
  exact ⟨⟨active, by simpa using fresh⟩, ends⟩

theorem execChunkGiveUp_run (hc : c < 64) (hx : x = s.chan c) (active : x.st = .active) (begun : x.op seq = some o)
    (started : o.started = true) (key : ch ∈ x.keys (x.desc o.desc)) (fresh : ch ∉ o.missing)
    (absent : ∀ r ∈ o.results, ¬ (resKey (x.desc o.desc) r = ch ∧ x.applicable (x.desc o.desc) o r = true))
    (late : lateAfter (s.chanTime c) o.tStart (giveUpAfter (x.desc o.desc)) = true) :
    execChunkGiveUp c seq ch s = .next (((s.modOp c seq fun o => { o with
        missing := o.missing ++ [ch] }).modChan c fun y => { y with missing := sat16 (y.missing + 1) }).advance c 8) := by
  have held : (o.results.any fun r => resKey (x.desc o.desc) r = ch && x.applicable (x.desc o.desc) o r) = false := by
    simp only [List.any_eq_false, Bool.and_eq_true, decide_eq_true_eq]
    exact absent
  rw [execChunkGiveUp, onUnit_of (by simpa using hc)]
  dsimp only
  rw [← hx]
  simp only [begun]
  rw [due_of]
  simp only [Bool.and_eq_true, Bool.not_eq_true', beq_iff_eq]
  exact ⟨⟨⟨⟨⟨active, started⟩, by simpa using key⟩, held⟩, by simpa using fresh⟩, late⟩

end

/-! ## What a packet of each op does -/

section
variable {s v w : State} {p c seq : Nat} {came : Dword} {k : List Line} {h : Line}

theorem execContrib_run (hh : h = headOf k) (hc : c = cChan h) (hseq : seq = cSeq h) (hw : w = v.openOp c seq)
    (taken : Collected s p 0 came k v) :
    (2 ^ 31 ≤ (v.chan c).ahead seq → execContrib p s = .next (v.colSeen c 0 p h fun u =>
          (u.modChan c fun y => { y with lateRx := sat16 (y.lateRx + 1) }).colSend c (u.colPacket c
            { op := 3, dst := ((v.chan c).peer (cRank h)).1, seq := seq, chunk := cChunk h, rank := cRank h } []))) ∧
      ((v.chan c).ahead seq < 2 ^ 31 → (w.chan c).op seq = none → execContrib p s = .next w) ∧
      (∀ o d n, (v.chan c).ahead seq < 2 ^ 31 → (w.chan c).op seq = some o → d = (v.chan c).desc o.desc →
        n = dElems d (cChunk h) →
        (dKind d = 3 ∨ dL d ≤ cChunk h ∨ (v.chan c).owner (cChunk h) ≠ (v.chan c).rank ∨
          colFits (dIn d) n (chunkLines (dIn d) n) h = false → execContrib p s = .next (w.colDrop p)) ∧
        (dKind d ≠ 3 → cChunk h < dL d → (v.chan c).owner (cChunk h) = (v.chan c).rank →
          colFits (dIn d) n (chunkLines (dIn d) n) h = true → execContrib p s =
            .next (w.colSeen c 0 p h fun u => u.contribute c seq h (k.drop 1) came (u.chanTime c)))) := by
  rw [execContrib, colRow_run taken, ← hh, ← hc]
  dsimp only
  rw [← hseq]
  refine ⟨fun old => by rw [if_pos old], fun new none_ => ?_, fun o d n new begun hd hn => ?_⟩
  · rw [if_neg (Nat.not_le.2 new), ← hw]
    simp only [none_]
  · rw [if_neg (Nat.not_le.2 new), ← hw]
    simp only [begun]
    rw [← hd, ← hn]
    refine ⟨fun differs => if_pos ?_ |> congrArg _, fun kind chunk owner fits => if_neg ?_ |> congrArg _⟩
    · simpa [or_assoc] using differs
    · simp [kind, owner, fits, chunk]

theorem execResult_run (hh : h = headOf k) (hc : c = cChan h) (hseq : seq = cSeq h) (hw : w = v.openOp c seq)
    (taken : Collected s p 1 came k v) :
    (2 ^ 31 ≤ (v.chan c).ahead seq → execResult p s = .next (v.colSeen c 1 p h fun u =>
          u.modChan c fun y => { y with lateRx := sat16 (y.lateRx + 1) })) ∧
      ((v.chan c).ahead seq < 2 ^ 31 → (w.chan c).op seq = none → execResult p s = .next w) ∧
      (∀ o d n key, (v.chan c).ahead seq < 2 ^ 31 → (w.chan c).op seq = some o → d = (v.chan c).desc o.desc →
        n = dElems d (cChunk h) → key = (if dKind d = 3 then cRank h * dL d + cChunk h else cChunk h) →
        (dL d ≤ cChunk h ∨ (dKind d ≠ 3 ∧ (v.chan c).owner (cChunk h) ≠ cRank h) ∨
          colFits (dOut d) n (if dKind d = 2 then 0 else chunkLines (dOut d) n) h = false →
          execResult p s = .next (w.colDrop p)) ∧
        (cChunk h < dL d → dKind d = 3 ∨ (v.chan c).owner (cChunk h) = cRank h →
          colFits (dOut d) n (if dKind d = 2 then 0 else chunkLines (dOut d) n) h = true →
          execResult p s = .next (w.colSeen c 1 p h fun u => if key ∈ o.missing
            then (u.modOp c seq fun o => { o with lateRx := o.lateRx ++ [(1, cRank h)] }).modChan c fun y => { y with
              lateRx := sat16 (y.lateRx + 1) }
            else (u.takeResult c seq h (k.drop 1) []).advance c 8))) := by
  rw [execResult, colRow_run taken, ← hh, ← hc]
  dsimp only
  rw [← hseq]
  refine ⟨fun old => by rw [if_pos old], fun new none_ => ?_, fun o d n key new begun hd hn hkey => ?_⟩
  · rw [if_neg (Nat.not_le.2 new), ← hw]
    simp only [none_]
  · rw [if_neg (Nat.not_le.2 new), ← hw]
    simp only [begun]
    rw [← hd, ← hn, ← hkey]
    refine ⟨fun differs => if_pos ?_ |> congrArg _, fun chunk owner fits => (if_neg ?_ |> congrArg _).trans ?_⟩
    · simpa [or_assoc] using differs
    · simp only [Bool.or_eq_true, Bool.and_eq_true, decide_eq_true_eq, Bool.not_eq_true', fits, Bool.true_eq_false, or_false]
      rintro (past | ⟨kind, other⟩)
      · omega
      · exact owner.elim kind other
    · simp only [List.contains_iff_mem]

theorem execRoster_run (hh : h = headOf k) (hc : c = cChan h) (hseq : seq = cSeq h) (hw : w = v.openOp c seq)
    (taken : Collected s p 2 came k v) : (2 ^ 31 ≤ (v.chan c).ahead seq → execRoster p s = .next v) ∧
      ((v.chan c).ahead seq < 2 ^ 31 → execRoster p s = .next ((w.modOp c seq fun o =>
        if o.rosters.any (fun q => q.1 = cChunk h && q.2.1 = cSeg h) then o else { o with
        rosters := o.rosters ++ [(cChunk h, cSeg h, (List.range 2048).filterMap fun j =>
          if (leNat ((k.drop 1).flatMap lineBytes)).testBit j then some (2048 * cSeg h + j) else none)] }).advance c 8)) := by
  rw [execRoster, colRow_run taken, ← hh, ← hc]
  dsimp only
  rw [← hseq]
  exact ⟨fun old => by rw [if_pos old], fun new => by rw [if_neg (Nat.not_le.2 new), hw]⟩

end

/-- Settles O52: passes, packets, chunks, folds and the digest log. -/
theorem collectives : Obligations.Collectives := by
  refine ⟨?_, ?_, fun s c kind p h f q hq => ?_, ?_, ?_, ?_, ?_, foldRanks_spec, digestLog_add⟩
  · intro s u v c i b t seq x d hc hx hd active beat next come few ready hseq hu hv
    rw [exec_colPassDue, execColPassDue_run hc hx hd active beat next come few ready hseq hu hv]
  · intro s v w p c seq came k h hh hc hseq hw
    refine ⟨fun taken => ?_, fun taken => ?_, fun taken => ?_, fun taken => ?_⟩
    · rw [exec_contrib]
      exact execContrib_run hh hc hseq hw taken
    · rw [exec_result]
      exact execResult_run hh hc hseq hw taken
    · rw [exec_roster]
      exact execRoster_run hh hc hseq hw taken
    · rw [exec_lateNotice, execLateNotice, colRow_run taken, ← hh, ← hc, ← hseq, State.lateNoticed]
  · exact ⟨(colSeen_run hq).1, (colSeen_run hq).2, rfl⟩
  · intro s u c seq h data came now x o late hx begun hlate
    classical
    rw [contribute_open hx begun hlate]
    refine ⟨fun early => if_neg early, fun late_ hu => ⟨fun own => ?_, fun other => ?_⟩⟩
    · rw [if_pos late_, ← hu]
      exact if_pos own
    · rw [if_pos late_, ← hu]
      exact if_neg other
  · intro s u v p op c seq came k h e hp he hh hc hseq first hu
    simp only [List.mem_cons, Prod.mk.injEq, List.not_mem_nil, or_false] at he
    obtain ⟨rfl, rfl⟩ | ⟨rfl, rfl⟩ | ⟨rfl, rfl⟩ | ⟨rfl, rfl⟩ := he
    · exact colPacket_first hp ((exec_contrib ..).trans rfl) hh hc hseq first hu
    · exact colPacket_first hp ((exec_result ..).trans rfl) hh hc hseq first hu
    · exact colPacket_first hp ((exec_roster ..).trans rfl) hh hc hseq first hu
    · exact colPacket_first hp ((exec_lateNotice ..).trans rfl) hh hc hseq first hu
  · intro s c seq ch x o t0 cs hc hx active begun opened fresh hcs ends
    rw [exec_chunkClose, execChunkClose_run hc hx active begun opened fresh hcs ends]
  · intro s c seq ch x o hc hx active begun started key fresh absent late
    rw [exec_chunkGiveUp, execChunkGiveUp_run hc hx active begun started key fresh absent late]

end Sys2Proof.Machine
end

section
/-!
PROOFS. The in-field test: residues, ages, opportunities, results and pauses.
-/
namespace Sys2Proof.Machine

/-! ## Residues -/

theorem residueAgrees_iff (sum : Int) (l : List Nat) :
    residueAgrees sum l = true ↔ sum % 7 = ((l.foldl (fun a r => (a + r) % 7) 0 : Nat) : Int) := by
  rw [residueAgrees, decide_eq_true_iff, residue, addResidue]
  omega

theorem execResidueMismatch_run {s : State} {t unit beat now : Nat} {router tested region : Bool} {sum : Int}
    {carried : List Nat} {x : Region} (ht : t < 20000) (hunit : unit < (if router then 5 else 4))
    (hx : x = s.region (regionOf t))
    (htested : tested = ((s.tile t).test.st == .testing && (!router || (s.tile t).test.routers)))
    (hregion : region = (tested || !x.ctl.run || (router && (s.router t).transit unit)))
    (hnow : now = (if region then x.clk.count else x.ctl.sched)) (formed : beat ≤ now) (recent : now ≤ beat + 16)
    (differs : residueAgrees sum carried = false)
    (adds : router = true → x.planeOn = true ∧ (tested = true ∨ (s.router t).addsAt x.ctl unit beat = true))
    (lit : router = false → x.dark = false) : execResidueMismatch t router unit ⟨beat, sum, carried⟩ s =
        .next ((s.modTile t fun y => { y with test := { y.test with
          arrSeen := y.test.arrSeen || !router, rtrSeen := y.test.rtrSeen || router
          array := if router || y.test.arrSeen then y.test.array else unit
          port := if router && !y.test.rtrSeen then unit else y.test.port
          arrCount := if router then y.test.arrCount else sat16 (y.test.arrCount + 1)
          rtrCount := if router then sat16 (y.test.rtrCount + 1) else y.test.rtrCount
          resBeat := if y.test.resValid then y.test.resBeat else beat
          resRegion := if y.test.resValid then y.test.resRegion else region, resValid := true
          hit := y.test.hit || tested } }).raise (regionOf t) 3 (if router then 16 + unit else unit) t beat region) := by
  have known : (t < 20000 && if router then unit < 5 else unit < 4) = true := by
    cases router
    · simpa [ht] using hunit
    · simpa [ht] using hunit
  have formedAt : (if router then x.planeOn && (tested || (s.router t).addsAt x.ctl unit beat) else !x.dark) = true := by
    cases router
    · simp [lit rfl]
    · simpa using adds rfl
  rw [execResidueMismatch, onUnit_of known]
  dsimp only
  rw [← hx, ← htested, ← hregion, ← hnow, due_of]
  rw [formedAt, differs, decide_eq_true formed, decide_eq_true recent]
  rfl

/-! ## Ages -/

theorem testAge_run {s : State} {t hours : Nat} {f : TestSt → Bool} {g : State → State} (ht : t < 20000)
    (origin : s.mgt.originSet = true) (good : s.tileState t = 0) (old : s.lastTest t + hours * 3600000000 ≤ s.now)
    (st : f (s.tile t).test.st = true) : testAge t hours f s g = .next (g s) := by
  rw [testAge, onUnit_of (by simpa using ht), due_of]
  rw [origin, good, decide_eq_true old, st]
  rfl

/-! ## Opportunities and results -/

theorem testResult_spec (p : TestRegs) (scan second : Bool) (o : TestOutcome) :
    (p.hit = true ∨ scan = true → testResult p scan second o = some 2) ∧
      (p.hit = false → scan = false → testResult p scan second .pass = some 1 ∧ testResult p scan second .failA = some 2 ∧
        testResult p scan second .failC = some 2 ∧ testResult p scan second .mismatch = none ∧
        (p.reran = false → testResult p scan second .refereeAgainst = none ∧ testResult p scan second .refereeFor = none ∧
          testResult p scan second .noReferee = none) ∧
        (p.reran = true → testResult p scan second .refereeAgainst = some 2 ∧ testResult p scan second .refereeFor = some 1 ∧
          testResult p scan second .noReferee = some (if second then 4 else 3))) := by
  refine ⟨fun hit => if_pos (by simpa using hit), fun missed good => ?_⟩
  subst good
  have outcome (o : TestOutcome) : testResult p false second o = match o with
      | .pass => some 1
      | .failA => some 2
      | .failC => some 2
      | .mismatch => none
      | .refereeAgainst => if p.reran then some 2 else none
      | .refereeFor => if p.reran then some 1 else none
      | .noReferee => if p.reran then (if second then some 4 else some 3) else none := by
    unfold testResult
    exact if_neg (by simp [missed])
  refine ⟨outcome _, outcome _, outcome _, outcome _, fun first => ⟨?_, ?_, ?_⟩, fun again => ⟨?_, ?_, ?_⟩⟩
  · rw [outcome, first]; rfl
  · rw [outcome, first]; rfl
  · rw [outcome, first]; rfl
  · rw [outcome, again]; rfl
  · rw [outcome, again]; rfl
  · rw [outcome, again]
    exact (apply_ite some ..).symm

theorem execIftComplete_run {s u v : State} {t r : Nat} {o : TestOutcome} {routerOk second : Bool} {p : TestRegs}
    (ht : t < 20000) (hp : p = (s.tile t).test) (testing : p.st = .testing) (hr : r = regionOf t)
    (late : p.beganAt + 1920000 ≤ (s.region r).clk.count) (hu : u = (if routerOk || !p.routers then s else s.routerBad t 2 2))
    (hsecond : second = (p.before == .suspect || (u.tile p.partner).test.before == .suspect))
    (hv : (testResult p (u.tile t).scanFails second o = none ∧ v = u.modTile t fun x => { x with
          test := x.test.again (u.region r).clk.count }) ∨
        (∃ res, testResult p (u.tile t).scanFails second o = some res ∧ v = u.endTest t res)) :
    execIftComplete t o routerOk s = .next (if p.place = 2 ∧ (v.region r).test.pending = true ∧
          v.testTiles r (· == .testing) = [] then (v.modTest r fun h => { h with
            tested := 0, failed := false }).pauseDone r (v.region r).test.tested (v.region r).test.failed else v) := by
  have judged : (match testResult p (u.tile t).scanFails second o with
        | none => u.modTile t fun x => { x with test := x.test.again (u.region r).clk.count }
        | some res => u.endTest t res) = v := by
    obtain ⟨none_, rfl⟩ | ⟨res, some_, rfl⟩ := hv
    · rw [none_]
    · rw [some_]
  have run : execIftComplete t o routerOk s = .next (due (p.place = 2 && (v.region r).test.pending &&
      (v.testTiles r (· == .testing)).isEmpty) v fun s => (s.modTest r fun h => { h with
        tested := 0, failed := false }).pauseDone r (v.region r).test.tested (v.region r).test.failed) := by
    rw [execIftComplete, onUnit_of (by simpa using ht)]
    dsimp only
    rw [← hp, ← hr, due_of (by rw [testing, decide_eq_true late]; rfl), ← hu, ← hsecond, ← judged] <;> rfl
  rw [run, due]
  exact congrArg _ (ite_congr_iff (by simp [and_assoc]) rfl rfl)

theorem endTest_run {s u v : State} {t r res : Nat} (hr : r = regionOf t)
    (hu : u = ({ s with free := s.free + 1 } : State).modTile t (fun x => { x.afterTest (s.testArea t) with test := { x.test with
        st := if res = 3 then .suspect else .current, result := if res = 4 then 3 else res
        last := if res = 1 then x.test.opened else s.now, tests := sat16 (x.test.tests + 1), hit := false } }))
    (hv : v = (if (s.tile t).test.place = 2 then u.modTest r fun h => { h with
        tested := h.tested + 1, failed := h.failed || decide (res = 2) } else u)) :
    s.endTest t res = if res = 2 then
        (if (s.region r).ctl.run then (v.tileBad t 2 2).raise r 0 0x20 t (s.region r).ctl.sched false else v.tileBad t 2 2)
      else if res = 4 then v.tileBad t 3 2 else v := by
  have place : (u.tile t).test.place = (s.tile t).test.place := by
    rw [hu, State.modTile_eq, State.tile_setTile, if_pos rfl]
    rfl
  have ctl : (v.region r).ctl = (s.region r).ctl := by
    have same : (u.region r).ctl = (s.region r).ctl := by rw [hu, State.modTile_eq, State.region_setTile]; rfl
    rw [hv]
    split
    · rw [State.modTest, State.modRegion_eq, State.region_setRegion, if_pos rfl, same]
    · exact same
  have ended : s.endTest t res = (let v := if (u.tile t).test.place = 2 then u.modTest (regionOf t) fun h => { h with
          tested := h.tested + 1, failed := h.failed || decide (res = 2) } else u;
      if res = 2 then (if (v.region (regionOf t)).ctl.run then (v.tileBad t 2 2).raise (regionOf t) 0 0x20 t
          (v.region (regionOf t)).ctl.sched false else v.tileBad t 2 2)
      else if res = 4 then v.tileBad t 3 2 else v) := by
    rw [hu]
    rfl
  rw [ended, ← hr, place, ← hv]
  dsimp only
  rw [ctl]

/-! ## Pauses -/

theorem pausePoint_spec {start period now : Nat} (runs : 0 < period) : now + 96 ≤ pausePoint start period now ∧
    occurs start period (pausePoint start period now) = true ∧
    ∀ b, occurs start period b = true → now + 96 ≤ b → pausePoint start period now ≤ b := by
  by_cases soon : now + 96 ≤ start
  · rw [pausePoint, if_pos soon]
    refine ⟨soon, by simp [occurs], fun b at_ _ => ?_⟩
    simp only [occurs, Bool.or_eq_true, Bool.and_eq_true, decide_eq_true_eq] at at_
    omega
  · have least (k : Nat) : (now + 96 - start + period - 1) / period ≤ k ↔ now + 96 - start ≤ period * k := by
      rw [Nat.div_le_iff_le_mul_add_pred runs]
      omega
    rw [pausePoint, if_neg soon]
    refine ⟨?_, ?_, fun b at_ late => ?_⟩
    · have reached := (least _).1 Nat.le.refl
      rw [Nat.mul_comm] at reached
      omega
    · simp [occurs, runs]
    · simp only [occurs, Bool.or_eq_true, Bool.and_eq_true, decide_eq_true_eq] at at_
      obtain rfl | ⟨⟨_, after⟩, whole⟩ := at_
      · omega
      · obtain ⟨k, hk⟩ := Nat.dvd_of_mod_eq_zero whole
        have few := Nat.mul_le_mul_right period ((least k).2 (by omega))
        rw [Nat.mul_comm k] at few
        omega

theorem grant_run {s : State} {r p : Nat} {x : Region} (hx : x = s.region r) (hp : p = x.ctl.part) :
    ((s.part p).img = none ∨ x.ctl.assigned = false ∨ s.running p = false → s.grant r = s.modTest r fun t => { t with
        noPause := true }) ∧
      (∀ i, (s.part p).img = some i → i.stepPeriod = 0 → s.grant r = s.modTest r fun t => { t with noPause := true }) ∧
      (∀ i, (s.part p).img = some i → x.ctl.assigned = true → s.running p = true → 0 < i.stepPeriod →
        ((∃ q ∈ s.partRegions p, (s.region q).test.pending = true) → s.grant r = s) ∧
        ((∀ q ∈ s.partRegions p, (s.region q).test.pending = false) → s.grant r = (((s.modTest r fun t => { t with
          pending := true, coord := true, coordRegion := r, waiting := s.partRegions p }).henQueue r
            (s.henToken r 5 1 0 2 (testPay r 0 false x.ctl.runGen.toNat))).askLead r 6
              (pausePoint i.stepStart i.stepPeriod x.ctl.sched) 4))) := by
  rw [State.grant]
  dsimp only
  rw [← hx, ← hp]
  refine ⟨fun stands => ?_, fun i img still => ?_, fun i img assigned running steps => ⟨fun pending => ?_, fun free => ?_⟩⟩
  · cases img : (s.part p).img with
    | none => rfl
    | some i =>
      refine if_neg ?_
      simp only [Bool.and_eq_true]
      rintro ⟨⟨assigned, running⟩, _⟩
      rw [img, assigned, running] at stands
      simp at stands
  · simp only [img]
    exact if_neg (by simp [still])
  · simp only [img]
    refine (if_pos (by simp [assigned, running, steps])).trans (if_pos ?_)
    simpa only [List.any_eq_true] using pending
  · simp only [img]
    refine (if_pos (by simp [assigned, running, steps])).trans (if_neg ?_)
    simpa only [List.any_eq_true, not_exists, not_and, Bool.not_eq_true] using free

theorem writeRgn_grant (s : State) (r : Nat) (wm v one : Dword) : s.writeRgn r 0x600 wm v one =
    if one.getLsbD 0 then (s.modTest r fun t => { t with noPause := t.noPause && !one.getLsbD 10 }).grant r
    else s.modTest r fun t => { t with noPause := t.noPause && !one.getLsbD 10 } := rfl

theorem mcTest_run {s : State} {kind : Nat} {k : Token} (cls : k.cls = 5) (hkind : k.kind.toNat = kind)
    (known : reservedToken k = false) : mcTest kind k s = .next (((s.landed .mc k).event 0 3).cper
      { source := 6, unitKind := 3, unit := bits k.pay 5 0, severity := 3 }) := by
  rw [mcTest, onUnit_true, due_of (by simp [cls, hkind])]
  dsimp only
  rw [if_neg (by rw [known]; exact Bool.false_ne_true)]

/-- Settles O53: the in-field test, from what counts a residue to what ends a pause. -/
theorem inFieldTests : Obligations.InFieldTests := by
  refine ⟨?_, residueAgrees_iff, ?_, ?_, ?_, ?_, ?_, testResult_spec, ?_, fun s u v t r res hr hu hv => endTest_run hr hu hv, ?_,
    ?_, fun start period now runs => pausePoint_spec runs, ?_, ?_⟩
  · intro s t unit beat now router tested region sum carried x ht hunit hx htested hregion hnow formed recent differs adds lit
    rw [exec_residueMismatch,
      execResidueMismatch_run ht hunit hx htested hregion hnow formed recent differs adds lit]
  · intro s t ht origin good
    refine ⟨fun old st => ?_, fun old st => ?_, fun old st => ?_⟩
    · rw [exec_tileDue, execTileDue, testAge_run ht origin good old (by rw [st]; rfl)]
    · rw [exec_tileOverdue, execTileOverdue, testAge_run ht origin good old (by simpa using st)]
    · rw [exec_tileLapsed, execTileLapsed, testAge_run ht origin good old (by simpa [or_assoc] using st)]
  · intro s u t st hu
    refine ⟨fun due_ => ?_, fun past => ?_, fun lapsed => ?_⟩
    · subst due_
      exact hu ▸ rfl
    · subst past
      exact hu ▸ rfl
    · subst lapsed
      exact hu ▸ rfl
  · intro s t c ht ready hc idle lit st aged
    subst hc
    rw [exec_idleRegionTest, execIdleRegionTest, onUnit_of (by simpa using ht)]
    dsimp only
    rw [due_of]
    simp only [Bool.and_eq_true, Bool.or_eq_true, Bool.not_eq_true', beq_iff_eq]
    exact ⟨⟨⟨⟨ready, idle⟩, lit⟩, st⟩, aged⟩
  · intro s r i g f c hr hc img window run runs region at_
    subst hc
    rw [exec_fallowWindow, execFallowWindow, onUnit_of (by simpa using hr)]
    simp only [img, window]
    rw [due_of]
    rw [run, runs, decide_eq_true region, at_]
    rfl
  · intro s u v t r o routerOk second p ht hp testing hr late hu hsecond hv
    rw [exec_iftComplete, execIftComplete_run ht hp testing hr late hu hsecond hv]
  · intro p n
    refine ⟨fun room => if_pos room, fun none_ => ?_⟩
    rw [TestRegs.again, none_]
    exact (if_neg Bool.false_ne_true).trans (by simp only [beq_iff_eq])
  · intro s w r hr permitted may
    rw [exec_grant, execGrant]
    refine regRow_run (by simpa using hr) permitted ((writeReg_rgn ..).trans (congrArg some ?_))
    rw [writeRgn_grant, if_pos (ones_bit rfl may), ones_bit_not _ rfl]
    simp only [Bool.not_false, Bool.and_true]
  · intro s r p x hx hp
    exact grant_run hx hp
  · intro s k cls known f hf
    refine ⟨fun kind => ?_, fun kind => ?_⟩
    · rw [exec_testOverdue, execTestOverdue, mcTest_run cls kind known, hf]
    · rw [exec_testLapsed, execTestLapsed, mcTest_run cls kind known, hf]
  · intro s u v r k hu
    refine ⟨fun heard => ?_, fun heard other => ?_, fun heard coord hv => ?_⟩
    · rw [exec_testGrant, execTestGrant, henToken_run heard, hu]
    · have same : (u.region r).test.coord = false := hu ▸ other
      rw [exec_testDone, execTestDone, henToken_run heard, ← hu, same]
      rfl
    · have same : (u.region r).test.coord = true := hu ▸ coord
      rw [exec_testDone, execTestDone, henToken_run heard, ← hu, due_of same, ← hv]
      refine ⟨fun more => ?_, fun done => ?_⟩
      · exact congrArg _ (if_neg (by simpa using more))
      · exact congrArg _ (if_pos (by simpa using done))

end Sys2Proof.Machine
end

section
/-!
PROOFS. Wires, hens, the ring, the crossings, the map, records and telemetry.
-/
namespace Sys2Proof.Machine

/-! ## Wires -/

section
variable {s u : State} {w v : WireId}

theorem execWireRetire_run {n k : Nat} (wire : isWire w = true) (fitted : wireFitted s.mgt.fuses w = true)
    (carries : s.units.carries w = some v) (up : s.wireDown v = false) (hu : u = s.modUnits (fun x => x.correct w s.now n)) :
    execWireRetire ⟨w, n, k⟩ s = .next (if s.units.badWires.contains w || (u.units.inSecond w s.now < 64 && k < 16) then u
      else if u.units.spareFree w then ((u.modUnits fun x => x.useSpare w).wireState v 1).wireFound w v 1 1
      else if u.units.groupFailing w then ((u.modUnits fun x => x.failing w).wireState v 3).wireFound v v 4 3
      else (((u.modUnits fun x => x.failing w).wireState v 2).wireFound v v 2 2).alternate v) := by
  have same : u.now = s.now := by rw [hu]; rfl
  have bad : u.units.badWires = s.units.badWires := by rw [hu]; rfl
  rw [execWireRetire, onUnit_of wire]
  dsimp only
  rw [carries, Option.getD_some, due_of (by rw [fitted, up]; rfl), ← hu, same, bad]

theorem execDoubleWireError_run {g : Nat × Nat} (wire : isWire w = true) (fitted : wireFitted s.mgt.fuses w = true)
    (carries : s.units.carries w = some v) (up : s.wireDown v = false) (hg : g = checkGroup v)
    (hu : u = (s.spoil v).modUnits (fun x => { x with
        doubles := (g.1, g.2, (s.spoil v).now) :: x.doubles.filter fun q => !(q.1 = g.1 && q.2.1 = g.2) })) :
    execDoubleWireError w s = .next (if s.units.doubles.any fun q => q.1 = g.1 && q.2.1 = g.2 && s.now ≤ q.2.2 + 1000000
      then (u.wireState v 3).wireFound v v 4 4 else u.wireToken v 4) := by
  rw [execDoubleWireError, onUnit_of wire]
  dsimp only
  rw [carries, Option.getD_some, due_of (by rw [fitted, up]; rfl), ← hg, ← hu]

end

/-! ## The map -/

theorem modRegion_congr {s : State} {r : Nat} {f g : Region → Region} (same : f (s.region r) = g (s.region r)) :
    s.modRegion r f = s.modRegion r g := by
  rw [State.modRegion_eq, State.modRegion_eq, same]

theorem event_mgt (s : State) (f bit : Nat) : (s.event f bit).mgt = s.mgt := by
  rw [State.event]
  split
  · rfl
  · rfl

theorem event_fn (s : State) (f bit : Nat) :
    (s.event f bit).fn f = { s.fn f with events := setBit (s.fn f).events bit } := by
  have marked : (s.modFn f fun x => { x with events := setBit x.events bit }).fn f =
      { s.fn f with events := setBit (s.fn f).events bit } := by
    rw [State.modFn_eq, State.fn_setFn, if_pos rfl]
  rw [State.event]
  dsimp only
  split
  · exact marked
  · exact marked

theorem event_fn_other (s : State) {f m : Nat} (bit : Nat) (other : f ≠ m) : (s.event f bit).fn m = s.fn m := by
  have marked : (s.modFn f fun x => { x with events := setBit x.events bit }).fn m = s.fn m := by
    rw [State.modFn_eq, State.fn_setFn, if_neg other]
  rw [State.event]
  split
  · exact marked
  · exact marked

theorem getLsbD_setBit_of_set {w : Nat} {m : BitVec w} {i : Nat} (j : Nat) (set : m.getLsbD i = true) :
    (setBit m j).getLsbD i = true := by
  rw [setBit, BitVec.getLsbD_or, set, Bool.true_or]

/-- That the map `f` is published under `g`, and that the PF has been told. -/
structure State.Published (s : State) (g : BitVec 32) (f : Floor) : Prop where
  gen : s.mgt.gen = g
  pub : s.mgt.pub = some f
  raised : (s.fn 0).events.getLsbD 0 = true

theorem State.Published.event {s : State} {g : BitVec 32} {f : Floor} (h : s.Published g f) (n bit : Nat) :
    (s.event n bit).Published g f := by
  refine ⟨by rw [event_mgt, h.gen], by rw [event_mgt, h.pub], ?_⟩
  by_cases here : n = 0
  · rw [here, event_fn]
    exact getLsbD_setBit_of_set bit h.raised
  · rw [event_fn_other s bit here, h.raised]

theorem State.Published.cper {s : State} {g : BitVec 32} {f : Floor} (h : s.Published g f) (c : Finding) :
    (s.cper c).Published g f := by
  rw [State.cper]
  dsimp only
  split
  · exact ⟨h.gen, h.pub, h.raised⟩
  · exact ⟨h.gen, h.pub, h.raised⟩

theorem State.Published.latchEol {s : State} {g : BitVec 32} {f : Floor} (h : s.Published g f) (i : Nat) (eol : Bool) :
    (s.latchEol i eol).Published g f := by
  have latched : (s.modMgt fun m => if eol then { m with eolCond := setBit m.eolCond i }
      else { m with warnCond := setBit m.warnCond i }).Published g f := by
    cases eol
    · exact ⟨h.gen, h.pub, h.raised⟩
    · exact ⟨h.gen, h.pub, h.raised⟩
  exact (latched.cper _).event 0 5

theorem State.Published.latchIf {s : State} {g : BitVec 32} {f : Floor} (h : s.Published g f) (c : Bool) (i : Nat)
    (eol : Bool) : (if c then s.latchEol i eol else s).Published g f := by
  cases c
  · exact h
  · exact h.latchEol i eol

theorem publish_published (s : State) :
    s.publish.Published (BitVec.ofNat 32 (nextGen s.mgt.gen)) { s.floor with changedAt := s.now } := by
  have told (u : State) (g : BitVec 32) (f : Floor) (gen : u.mgt.gen = g) (pub : u.mgt.pub = some f) :
      (u.event 0 0).Published g f := by
    refine ⟨by rw [event_mgt, gen], by rw [event_mgt, pub], ?_⟩
    rw [event_fn]
    exact getLsbD_setBit _ 0 (by decide)
  rw [State.publish, State.endOfLife]
  refine forAll_keep (fun u => u.Published _ _) _ _ (fun i _ u kept => (kept.latchIf _ i false).latchIf _ i true) ?_
  rw [List.foldl_cons]
  exact List.foldlRecOn (motive := fun u : State => u.Published _ _) _ _ (told _ _ _ rfl rfl)
    fun u kept k _ => kept.event k 0

theorem nextGen_spec (g : BitVec 32) : nextGen g % 2 = 0 ∧ 2 ≤ nextGen g ∧ nextGen g < 2 ^ 32 ∧
    (g.toNat % 2 = 0 → g.toNat < 0xFFFFFFFE → nextGen g = g.toNat + 2) := by
  rw [nextGen]
  split
  · refine ⟨rfl, Nat.le.refl, by decide, fun _ small => ?_⟩
    omega
  · refine ⟨by omega, by omega, by omega, fun even _ => ?_⟩
    omega

theorem swap_spec (q : Telemetry) (f : BitVec 1024) (n : BitVec 32) (k : HenClk) (held : Bool) :
    (q.swap f n k held).fill = (!q.fill) ∧ (q.swap f n k held).seq = n ∧
      (q.fill = false → (q.swap f n k held).bank0 = f ∧ (q.swap f n k held).bank1 = q.bank1) ∧
      (q.fill = true → (q.swap f n k held).bank1 = f ∧ (q.swap f n k held).bank0 = q.bank0) := by
  refine ⟨rfl, rfl, fun first => ⟨?_, ?_⟩, fun second => ⟨?_, ?_⟩⟩
  · exact if_neg (by simp [first])
  · exact if_neg (by simp [first])
  · exact if_pos second
  · exact if_pos second

/-- Settles O54: each unit's failure, what is published, and what a record and a frame hold. -/
theorem unitsAndReports : Obligations.UnitsAndReports := by
  refine ⟨?_, ?_, ?_, ?_, ?_, ?_, ?_, fun s => rfl, ?_, nextGen_spec, ?_, ?_, swap_spec⟩
  · intro s u w v n k wire fitted carries up hu
    rw [exec_wireRetire, execWireRetire_run wire fitted carries up hu]
    refine ⟨fun stays => by rw [if_pos (by simpa using stays)], fun good many => ?_⟩
    have fails : ¬ (s.units.badWires.contains w || (u.units.inSecond w s.now < 64 && k < 16)) = true := by
      simp only [Bool.or_eq_true, Bool.and_eq_true, decide_eq_true_eq, List.contains_iff_mem, not_or, not_and, Nat.not_lt]
      exact ⟨good, fun few => by omega⟩
    rw [if_neg fails]
    refine ⟨fun free => ?_, fun used failing => ?_, fun used first => ?_⟩
    · rw [if_pos free]
    · rw [if_neg (by simp [used]), if_pos failing]
    · rw [if_neg (by simp [used]), if_neg (by simp [first])]
  · intro s u w v g wire fitted carries up hg hu
    rw [exec_doubleWireError, execDoubleWireError_run wire fitted carries up hg hu]
    refine ⟨fun again => ?_, fun first => ?_⟩
    · obtain ⟨t, listed, soon⟩ := again
      rw [if_pos (List.any_eq_true.2 ⟨_, listed, by simp [soon]⟩)]
    · rw [if_neg]
      rw [List.any_eq_true]
      rintro ⟨⟨a, b, t⟩, listed, same⟩
      simp only [Bool.and_eq_true, decide_eq_true_eq] at same
      obtain ⟨⟨rfl, rfl⟩, soon⟩ := same
      exact absurd soon (by have := first t listed; omega)
  · intro s u w v finding cause hu
    rw [State.wireFound, hu]
  · intro s u v r hr ready good
    refine ⟨?_, fun hu => ⟨fun few => ?_, fun many hv => ?_⟩⟩
    · rw [exec_henPoll, execHenPoll, onUnit_of (by simpa using hr), due_of (by rw [ready, good]; rfl), if_pos rfl]
    · have missed : (u.region r).missedPolls = (s.region r).missedPolls + 1 := by
        rw [hu, State.modRegion_eq, State.region_setRegion, if_pos rfl]
      rw [exec_henPoll, execHenPoll, onUnit_of (by simpa using hr), due_of (by rw [ready, good]; rfl),
        if_neg Bool.false_ne_true, ← hu]
      dsimp only
      rw [missed, due, if_neg (by simp; omega)]
    · have missed : (u.region r).missedPolls = (s.region r).missedPolls + 1 := by
        rw [hu, State.modRegion_eq, State.region_setRegion, if_pos rfl]
      rw [exec_henPoll, execHenPoll, onUnit_of (by simpa using hr), due_of (by rw [ready, good]; rfl),
        if_neg Bool.false_ne_true, ← hu]
      dsimp only
      rw [missed, due_of (by simp; omega), ← hv]
  · intro s g hg fresh
    rw [exec_ringSegmentFail, execRingSegmentFail, onUnit_of (by simpa using hg), due_of (by simpa using fresh)]
  · intro s south
    have joins (a b : Bool) : (if a then true else b) = (b || a) := by
      cases a
      · exact (Bool.or_false b).symm
      · exact (Bool.or_true b).symm
    rw [exec_controlCrossingFail, execControlCrossingFail, onUnit_true]
    simp only [joins]
    rfl
  · intro s ready
    rw [exec_mapPublication, execMapPublication, onUnit_true, due_of ready, due]
    exact ⟨fun same => congrArg _ (if_neg (by simpa using same)), fun new => congrArg _ (if_pos (by simpa using new))⟩
  · intro s
    obtain ⟨gen, pub, raised⟩ := publish_published s
    exact ⟨gen, pub, raised⟩
  · intro s c cs held old
    rw [exec_cperMergeRelease, execCperMergeRelease, onUnit_true]
    simp only [held]
    rw [due_of (decide_eq_true old)]
  · intro s r v m n hr on hv hn
    rw [exec_telemetrySwap, execTelemetrySwap, onUnit_of (by simpa using hr), due_of on, hn, hv]
    exact congrArg (fun u : State => Host.Outcome.next (u.report r m.iAvg 0)) (modRegion_congr rfl)

end Sys2Proof.Machine
end

section
/-!
PROOFS. The management mailbox.
-/
namespace Sys2Proof.Machine

section
variable {m n : Mgt}

/-- A DOORBELL write of its own bit leaves REFUSED to the doorbell. -/
theorem writeMgt_doorbell {s : State} {wm v one : Dword} (rings : one.getLsbD 0 = true) (keeps : one.getLsbD 2 = false) :
    s.writeMgt 0x50 wm v one = s.modMgt Mgt.doorbell := by
  unfold State.writeMgt
  refine modMgt_congr ?_
  dsimp only
  rw [if_pos rings, keeps, Bool.not_false, Bool.and_true]

theorem doorbell_busy (busy : m.mboxBusy = true) : m.doorbell = { m with mboxRefused := true } :=
  if_pos busy

theorem doorbell_idle (idle : m.mboxBusy = false)
    (hn : n = { m with mboxFill := !m.mboxFill, swaps := m.swaps + 1, mboxBusy := true }) :
    m.doorbell = if mbxNum n.drainBank 0 2 = 0 ∨ 6 < mbxNum n.drainBank 0 2 ∨ 4088 < mbxNum n.drainBank 2 2
      then n.respond 1 [] else n := by
  subst hn
  unfold Mgt.doorbell
  rw [if_neg (by rw [idle]; exact Bool.false_ne_true)]
  exact ite_congr_iff (by simp [or_assoc]) rfl rfl

/-- An answer ends the wait and writes the bank that the controller drains; nothing else of the controller changes. -/
theorem respond_same (m : Mgt) (st : Nat) (bs : List Byte) : (m.respond st bs).mboxBusy = false ∧
    (m.respond st bs).fdl = m.fdl ∧ (m.respond st bs).keys = m.keys ∧ (m.respond st bs).mboxFill = m.mboxFill := by
  unfold Mgt.respond
  dsimp only
  split <;> exact ⟨rfl, rfl, rfl, rfl⟩

theorem noKeys_iff : m.noKeys = true ↔ ∀ i, i < 16 → m.keys.look none i = none := by
  simp [Mgt.noKeys]

theorem noKeys_false (held : ∃ i, i < 16 ∧ m.keys.look none i ≠ none) : m.noKeys = false := by
  obtain ⟨i, small, key⟩ := held
  exact Bool.eq_false_iff.mpr fun none_ => key (noKeys_iff.mp none_ i small)

end

section
variable {s : State} {n : Nat}

theorem execFdlRead_run (asked : Requested s 1 n) : exec .fdlRead s = .next
    (if n < 6 ∨ leNat (s.mgt.mbxBytes 4 2) = 0 ∨ 255 < leNat (s.mgt.mbxBytes 4 2) then s.respond 1 []
      else s.respond 0 (((s.mgt.fdl.drop (leNat (s.mgt.mbxBytes 0 4))).take (leNat (s.mgt.mbxBytes 4 2))).flatMap
        fdlBytes)) := by
  rw [exec_fdlRead, execFdlRead, mailRow_run asked]
  exact congrArg _ (ite_congr_iff (by simp [or_assoc]) rfl rfl)

theorem execConfigWrite_run (asked : Requested s 3 n) : exec .configWrite s = .next
    (if n < 3 ∨ (∃ x ∈ s.mgt.mbxBytes 0 3, 1 < x.toNat) then s.respond 1 []
      else (s.modMgt fun m => { m with
        cfgSlot := (s.mgt.mbxBytes 0 3).getD 0 0 = 1, cfgRestore := (s.mgt.mbxBytes 0 3).getD 1 0 = 1,
        cfgStriped := (s.mgt.mbxBytes 0 3).getD 2 0 = 1 }).respond 0 []) := by
  rw [exec_configWrite, execConfigWrite, mailRow_run asked]
  exact congrArg _ (ite_congr_iff (by simp) rfl rfl)

theorem execFwWrite_run (asked : Requested s 4 n) : exec .fwWrite s = .next
    (if n < 4 ∨ 4084 < n then s.respond 1 []
      else (s.modMgt fun m => m.setSlot (!m.slot) { m.slotOf (!m.slot) with
        bytes := writeBytes (m.slotOf (!m.slot)).bytes (leNat (m.mbxBytes 0 4)) (s.mgt.mbxBytes 4 (n - 4))
        valid := false }).respond 0 []) := by
  rw [exec_fwWrite, execFwWrite, mailRow_run asked]
  exact congrArg _ (ite_congr_iff (by simp) rfl rfl)

theorem execFwCommit_run {x : FwSlot} (asked : Requested s 5 n) (hx : x = s.mgt.slotOf (!s.mgt.slot)) :
    exec .fwCommit s = .next (if fwGood x.bytes = false then s.respond 13 []
      else if s.mgt.recovery = true then (s.modMgt fun m => m.recover x.bytes).respond 0 []
      else (s.modMgt fun m => m.setSlot (!m.slot) { x with valid := true }).respond 0 []) := by
  subst hx
  rw [exec_fwCommit, execFwCommit, mailRow_run asked]
  refine congrArg _ (ite_congr_iff (by simp) rfl ?_)
  split
  next recovering => exact congrArg (State.respond · 0 []) (modMgt_congr (if_pos recovering))
  next running => exact congrArg (State.respond · 0 []) (modMgt_congr (if_neg running))

theorem execKeyBootstrap_run (asked : Requested s 6 n) : exec .keyBootstrap s = .next
    (if n = 0 then s.respond 1 [] else if s.mgt.noKeys = false then s.respond 24 []
      else (s.modMgt fun m => { m with
        keys := m.keys.put none 0 (some { key := s.mgt.mbxBytes 0 n, role := .admin, mask := 0 }) }).respond 0 []) := by
  rw [exec_keyBootstrap, execKeyBootstrap, mailRow_run asked]
  exact congrArg _ (ite_congr_iff Iff.rfl rfl (ite_congr_iff (by simp) rfl rfl))

end

/-- Settles O55: the request that waits runs the row of its opcode; DOORBELL rings through the write's own bit. -/
theorem mailboxRequests : Obligations.MailboxRequests := by
  unfold Obligations.MailboxRequests
  refine ⟨fun s w permitted may => ?doorbell, fun m n => ⟨doorbell_busy, doorbell_idle⟩,
    fun s n first count asked hf hc => ?fdl, fun s n asked => ?read, fun s n b asked hb => ?config,
    fun s n asked => ?write, fun s n x asked hx => execFwCommit_run asked hx, fun s n asked => ?key,
    fun s st bs => respond_same s.mgt st bs⟩
  case doorbell =>
    rw [exec_doorbell, execDoorbell]
    exact regRow_run rfl permitted ((writeReg_mgt ..).trans
      (congrArg some (writeMgt_doorbell (ones_bit rfl may) (ones_bit_not _ rfl))))
  case fdl =>
    subst hf hc
    rw [execFdlRead_run asked]
    exact ⟨fun long some_ few => congrArg _ (if_neg (by omega)), fun bad => congrArg _ (if_pos bad)⟩
  case read =>
    rw [exec_configRead, execConfigRead, mailRow_run asked]
    rfl
  case config =>
    subst hb
    rw [execConfigWrite_run asked]
    refine ⟨fun long bits => congrArg _ (if_neg ?_), fun bad => congrArg _ (if_pos bad)⟩
    rintro (short | ⟨x, hx, big⟩)
    · omega
    · exact absurd (bits x hx) (by omega)
  case write =>
    rw [execFwWrite_run asked]
    exact ⟨fun long few => congrArg _ (if_neg (by omega)), fun bad => congrArg _ (if_pos bad)⟩
  case key =>
    rw [execKeyBootstrap_run asked]
    refine ⟨fun empty => congrArg _ (if_pos empty), fun some_ none_ => ?_, fun some_ held => ?_⟩
    · rw [if_neg (by omega), if_neg (by rw [noKeys_iff.mpr none_]; exact nofun)]
    · rw [if_neg (by omega), if_pos (noKeys_false held)]

end Sys2Proof.Machine
end

section
/-!
PROOFS. The rings of a function: TAIL, HEAD and ENABLE, a write of any register, and what a ring fetches and writes.
-/
namespace Sys2Proof.Machine

/-! ## Writes of a ring's registers -/

section
variable {s t : State} {w : Party} {f off n : Nat} {v : Dword}

theorem writeReg_tail (some_ : s.rwBits w (.page f) 0x10 ≠ 0) (hn : n = bits (s.taken w (.page f) 0x10 v) 11 0) :
    s.writeReg w (.page f) 0x10 (BitVec.allOnes 64) v = some (s.writeTail f n) := by
  subst hn
  exact (writeReg_page ..).trans (congrArg some (if_neg some_))

theorem writeReg_head (some_ : s.rwBits w (.page f) 0x20 ≠ 0) (hn : n = bits (s.taken w (.page f) 0x20 v) 11 0) :
    s.writeReg w (.page f) 0x20 (BitVec.allOnes 64) v = some (s.writeHead f n) := by
  subst hn
  exact (writeReg_page ..).trans (congrArg some (if_neg some_))

theorem writeReg_ring {cq : Bool} (hoff : off = if cq then 0x18 else 0x08) (some_ : s.rwBits w (.page f) off ≠ 0)
    (written : s.writeRing f cq (s.taken w (.page f) off v) = some t) :
    s.writeReg w (.page f) off (BitVec.allOnes 64) v = some t := by
  subst hoff
  rw [← written]
  cases cq with
  | false => exact (writeReg_page ..).trans (if_neg some_)
  | true => exact (writeReg_page ..).trans (if_neg some_)

/-- A write that is refused is recorded as an access error. -/
theorem write_refused {a size st : Nat} (refused : s.ctlStore w a size v = (st, s)) (bad : st ≠ 0) :
    s.write w a size v = s.accError w a st := by
  unfold State.write
  rw [refused]
  exact if_neg bad

theorem ctlStore_unreached {a size : Nat} (unreached : (s.reach a size).1 ≠ 0) :
    s.ctlStore w a size v = ((s.reach a size).1, s) := if_pos unreached

theorem ctlStore_unread {a size : Nat} (reached : (s.reach a size).1 = 0)
    (unread : s.mayRead w (s.reach a size).2.1 (s.reach a size).2.2 = false) : s.ctlStore w a size v = (8, s) := by
  unfold State.ctlStore
  rw [if_neg (not_not_intro reached)]
  exact if_pos (by rw [unread]; rfl)

theorem execRegisterWrite_run {a size : Nat} (party : partyOk w = true) (inside : a < 2 ^ 40) :
    exec (.registerWrite w a size v) s = .next (s.write w a size v) := by
  rw [exec_registerWrite, execRegisterWrite, onUnit_of (by rw [party, decide_eq_true inside]; rfl)]

end

/-! ## The pointers and the ring's setting -/

section
variable {s : State} {f n : Nat}

theorem writeTail_outside (high : (s.fn f).sqSize ≤ n) : s.writeTail f n = s.event f 7 := if_pos high

theorem writeTail_inside (low : n < (s.fn f).sqSize) :
    s.writeTail f n = (s.modFn f fun x => { x with sqTail := n }).fetchRing f 4096 := if_neg (Nat.not_le.mpr low)

theorem writeHead_eq : s.writeHead f n =
    if (s.fn f).cqSize ≤ n ∨ ((s.fn f).cqTail + (s.fn f).cqSize - (s.fn f).cqHead) % (s.fn f).cqSize <
      (n + (s.fn f).cqSize - (s.fn f).cqHead) % (s.fn f).cqSize then s.event f 7
    else (s.modFn f fun x => { x with cqHead := n }).ringAgain f :=
  ite_congr_iff (by simp) rfl rfl

theorem writeRing_enabled {v : Dword} (low : 4 ≤ bits v 3 0) (high : bits v 3 0 ≤ 12) (on : v.getLsbD 4 = true)
    (off : (s.fn f).sqOn = false) : s.writeRing f false v = some ((s.setFn f { s.fn f with
      sqLog := bits v 3 0, sqBase := v.extractLsb' 12 52, sqOn := true
      sqHead := 0, sqTail := 0, sqPhase := true }).ringAgain f) := by
  unfold State.writeRing
  dsimp only
  rw [if_neg (by simp [off, low, high]), on]
  simp only [off]
  rfl

end

/-! ## What a ring fetches and writes -/

section
variable {s : State} {f : Nat}

theorem fetchRing_next {e : SqEntry} {h : Nat} (n : Nat) (on : (s.fn f).sqOn = true)
    (some_ : (s.fn f).sqHead ≠ (s.fn f).sqTail) (room : (s.fn f).cqFull = false)
    (he : e = sqEntry (readBytes s.host ((s.fn f).sqBase.toNat * 4096 + 64 * (s.fn f).sqHead) 64))
    (hh : h = ((s.fn f).sqHead + 1) % 2 ^ (s.fn f).sqLog) :
    s.fetchRing f (n + 1) = ((s.setFn f { s.fn f with
      sqHead := h
      sqPhase := if h = 0 then !(s.fn f).sqPhase else (s.fn f).sqPhase
      queue := (s.fn f).queue ++ [{ entry := e, head := h, rej := (s.fn f).screen f (s.fn f).sqPhase e }]
      }).ringOn f).fetchRing f n := by
  subst he hh
  rw [State.fetchRing]
  dsimp only
  rw [if_neg (by simp [on, some_, room])]
  rfl

theorem complete_of_room (e : CqEntry) (room : (s.fn f).cqFull = false) (on : (s.fn f).cqOn = true) :
    s.complete f e = { s with
      host := writeBytes s.host ((s.fn f).cqBase.toNat * 4096 + 32 * (s.fn f).cqTail) (cqBytes (s.fn f) e)
      msix := s.msix ++ [(f, 0)] }.modFn f fun x => { x with
        cqTail := (x.cqTail + 1) % x.cqSize
        cqPhase := if (x.cqTail + 1) % x.cqSize = 0 then !x.cqPhase else x.cqPhase } :=
  if_neg (by simp [room, on])

theorem fn_modFn_same (s : State) (f : Nat) (g : Fn → Fn) : (s.modFn f g).fn f = g (s.fn f) := by
  rw [State.modFn_eq, State.fn_setFn, if_pos rfl]

theorem leBytes_length (n v : Nat) : (leBytes n v).length = n := by
  induction n generalizing v with
  | zero => rfl
  | succ n ih => exact congrArg Nat.succ (ih _)

theorem cqBytes_length (x : Fn) (e : CqEntry) : (cqBytes x e).length = 32 := by
  simp only [cqBytes, List.length_append, leBytes_length]

end

/-- Settles O57: a permitted write of a ring's register is the write of the pointer or the setting that it gives; the ring
then fetches and writes one entry after the other. -/
theorem hostRings : Obligations.HostRings := by
  unfold Obligations.HostRings
  refine ⟨fun s u w f n tail host v hf ht hu hv permitted some_ hn => ?tail,
    fun s w f n head v hf hh hv permitted some_ hn => ?head,
    fun s t w f off cq on v hf hoff hv permitted some_ written => ?enable,
    fun s w b off v t inside permitted written => ?write,
    fun s w a size v party inside unreached => ?unreached, fun s w a size v party inside reached unread => ?unread,
    fun s f n => ⟨writeTail_outside, writeTail_inside, fun high => writeHead_eq.trans (if_pos (.inl high)),
      fun low near => writeHead_eq.trans (if_neg (not_or_intro (Nat.not_le.mpr low) (Nat.not_lt.mpr near))),
      fun far => writeHead_eq.trans (if_pos (.inr far))⟩,
    fun s f v x low high on hx off => ?ring, fun s f n h x e hx on some_ room he hh => ?fetch,
    fun s f e x hx room on => ?complete⟩
  case tail =>
    subst hu hv
    rw [exec_tail, execTail, onUnit_of (by simp [hf, ht, permitted.party])]
    exact congrArg _ (write_run permitted (writeReg_tail some_ hn))
  case head =>
    subst hv
    rw [exec_head, execHead]
    exact regRow_run (by simp [hf, hh]) permitted (writeReg_head some_ hn)
  case enable =>
    subst hv
    rw [exec_enable, execEnable, ← hoff]
    exact regRow_run (decide_eq_true hf) permitted (writeReg_ring hoff some_ written)
  case write =>
    rw [execRegisterWrite_run permitted.party inside, write_run permitted written]
  case unreached =>
    rw [execRegisterWrite_run party inside, write_refused (ctlStore_unreached unreached) unreached]
  case unread =>
    rw [execRegisterWrite_run party inside, write_refused (ctlStore_unread reached unread) (by decide)]
  case ring =>
    subst hx
    exact writeRing_enabled low high on off
  case fetch =>
    subst hx
    exact fetchRing_next n on some_ room he hh
  case complete =>
    subst hx
    rw [complete_of_room e room on]
    exact ⟨rfl, cqBytes_length _ e, rfl, congrArg Fn.cqTail (fn_modFn_same ..), by rw [fn_modFn_same]; rfl⟩

end Sys2Proof.Machine
end

section
/-!
PROOFS. The commands of a ring: windows, DMA, hand-over, the load of an image, and the start and the kill of a run.
-/
namespace Sys2Proof.Machine

/-! ## Windows -/

section
variable {s u : State} {f : Nat} {q : Fetched}

/-- A cell that lists something other than `none` lists a value. -/
theorem isSome_of_ne_none {α : Type} {o : Option α} (h : o ≠ none) : o.isSome = true := Option.isSome_iff_ne_none.mpr h

theorem execWindowReg_run (starts : Starts s 1 f q u) : exec (.windowReg f) s = .next
    (if 63 < q.entry.window.toNat ∨ q.entry.hostOff.toNat % 4096 ≠ 0 then u.done f q 1 3 0 0
      else if q.entry.arg2.toNat = 0 then u.done f q 1 4 0 0
      else if 2 ^ 48 < q.entry.arg2.toNat then u.done f q 2 0 0 q.entry.arg2.toNat
      else if (u.fn f).windows.look none q.entry.window.toNat ≠ none ∨ (u.fn f).unreg.look none q.entry.window.toNat ≠ none
        then u.done f q 5 0 0 0
      else (u.modFn f fun x => { x with
        windows := x.windows.put none q.entry.window.toNat (some (q.entry.hostOff.toNat, q.entry.arg2.toNat))
        }).done f q 0 0 0 0) := by
  rw [exec_windowReg, execWindowReg, ringCmd_run starts]
  refine congrArg _ (ite_congr_iff (by simp) rfl (ite_congr_iff Iff.rfl rfl (ite_congr_iff Iff.rfl rfl (ite_congr_iff ?_ rfl rfl))))
  rw [Bool.or_eq_true, Option.isSome_iff_ne_none, Option.isSome_iff_ne_none]

theorem execWindowUnreg_run (starts : Starts s 2 f q u) : exec (.windowUnreg f) s = .next
    (if (u.fn f).windows.look none q.entry.window.toNat = none then u.done f q 3 0 0 0
      else ((u.dropDump f q.entry.window.toNat).modFn f fun x => { x with
        windows := x.windows.drop q.entry.window.toNat
        unreg := x.unreg.put none q.entry.window.toNat (some (q.entry.cid.toNat, q.head)) }).ringOn f) := by
  rw [exec_windowUnreg, execWindowUnreg, ringCmd_run starts]
  exact congrArg _ (ite_congr_iff Option.isNone_iff_eq_none rfl rfl)

end

/-! ## DMA -/

section
variable {s u : State} {f : Nat} {q : Fetched} {op : Nat} {wr : Bool}

theorem dmaRow_refused {st d info : Nat} (starts : Starts s op f q u) (hw : decide (op = 3) = wr)
    (refused : u.dmaRefused f q.entry wr = some (st, d, info)) : dmaRow op f s = .next (u.done f q st d 0 info) := by
  subst hw
  rw [dmaRow, ringCmd_run starts]
  simp only [refused]

theorem dmaRow_begun {base len : Nat} (starts : Starts s op f q u) (hw : decide (op = 3) = wr)
    (accepted : u.dmaRefused f q.entry wr = none)
    (window : (u.fn f).windows.look none q.entry.window.toNat = some (base, len)) : dmaRow op f s =
      .next ((u.modFn f fun x => { x with dmas := x.dmas ++ [{
        cid := q.entry.cid, head := q.head, toDevice := wr, window := q.entry.window.toNat
        host := base + q.entry.hostOff.toNat, devOff := q.entry.devOff.toNat, length := q.entry.length.toNat }] }).dmaAsk
          f q.head) := by
  subst hw
  rw [dmaRow, ringCmd_run starts]
  simp only [accepted, window]

theorem execDmaComplete_ended {cid : Nat} {host : List (Nat × Byte)} {d : Dma} (hf : f ≤ 16) (hc : cid < 65536)
    (hu : u = s.hostBytes host) (ended : (u.fn f).dmas.find? (fun d => d.cid.toNat = cid && d.ended) = some d) :
    exec (.dmaComplete f cid host) s =
      .next (((u.modFn f fun x => { x with dmas := x.dmas.erase d }).complete f d.result).ringOn f) := by
  subst hu
  rw [exec_dmaComplete, execDmaComplete, onUnit_of (by simp [hf, hc])]
  simp only [ended]

theorem execDmaComplete_asks {cid : Nat} {host : List (Nat × Byte)} {d : Dma} (hf : f ≤ 16) (hc : cid < 65536)
    (hu : u = s.hostBytes host) (going : (u.fn f).dmas.find? (fun d => d.cid.toNat = cid && d.ended) = none)
    (some_ : (u.fn f).dmas.find? (fun d => d.cid.toNat = cid) = some d) :
    exec (.dmaComplete f cid host) s = .next (u.dmaAsk f d.head) := by
  subst hu
  rw [exec_dmaComplete, execDmaComplete, onUnit_of (by simp [hf, hc])]
  simp only [going, some_]

theorem ended_iff (d : Dma) : d.ended = true ↔ d.stop ≠ none ∨ d.length ≤ d.moved := by
  rw [Dma.ended, Bool.or_eq_true, Option.isSome_iff_ne_none, decide_eq_true_iff]

/-- What the completion of a DMA carries, whatever ended it, and what each end adds. -/
theorem result_fields (d : Dma) : d.result.cid = d.cid ∧ d.result.head = d.head ∧ d.result.detail = 0 ∧
    d.result.result = BitVec.ofNat 64 d.moved ∧
    (∀ st a, d.stop = some (st, a) → d.result.status = 32 + st ∧ d.result.info = BitVec.ofNat 64 a) ∧
    (∀ a, d.stop = none → d.bad = some a → d.result.status = 36 ∧ d.result.info = BitVec.ofNat 64 a) ∧
    (d.stop = none → d.bad = none → d.result.status = 0 ∧ d.result.info = 0) := by
  unfold Dma.result
  refine ⟨rfl, rfl, rfl, rfl, fun st a stopped => ?_, fun a going bad => ?_, fun going good => ?_⟩
  · simp only [stopped, and_self]
  · simp only [going, bad, and_self]
  · simp only [going, good, true_and]
    rfl

end

/-! ## Hand-over -/

theorem execHandover_run {s u : State} {f : Nat} {q : Fetched} (starts : Starts s 8 f q u) : exec (.handover f) s = .next
    (if 2 ^ 31 ≤ q.entry.arg2.toNat then u.done f q 1 3 0 0
      else if u.handCheck (q.entry.devOff.toNat / 2 ^ 21) u.mgt.ownId (f - 1) (q.entry.arg2.toNat % 4096) ≠ 0 then
        u.done f q (32 + u.handCheck (q.entry.devOff.toNat / 2 ^ 21) u.mgt.ownId (f - 1) (q.entry.arg2.toNat % 4096)) 0
          (u.page (q.entry.devOff.toNat / 2 ^ 21)).toNat 0
      else (u.begin f q).beginMove {
        page := q.entry.devOff.toNat / 2 ^ 21, dev := q.entry.arg2.toNat / 2 ^ 12 % 8192
        part := q.entry.arg2.toNat / 2 ^ 25 % 16, mode := BitVec.ofNat 2 (q.entry.arg2.toNat / 2 ^ 29)
        zeroing := false, port := none, req := [], fn := some f, cid := q.entry.cid.toNat }) := by
  rw [exec_handover, execHandover, ringCmd_run starts]

/-! ## The load of an image -/

section
variable {s u v : State} {f p n len : Nat} {q : Fetched} {i : Image}

theorem execImageLoad_starts {qs : List Fetched} (starts : Starts s 5 f q u) (idle : (s.fn f).busy = none)
    (queue : (s.fn f).queue = q :: qs)
    (hv : v = ((s.emptied (f - 1)).modFn f fun x => { x with queue := qs }).begin f q) :
    exec (.imageLoad f i) s = .next (match (v.fn f).windows.look none q.entry.window.toNat with
      | none => v.finish f { doneWith q.entry.cid 3 0 with info := q.entry.window.setWidth 64 }
      | some w =>
        if v.loadWaits (f - 1) then v.modPart (f - 1) fun x => { x with
          loadCid := some q.entry.cid.toNat, loadSince := some v.now, loadLen := w.2 }
        else v.loadNow f q i w.2) := by
  subst hv
  have opcode : q.entry.opcode = 5 := BitVec.eq_of_toNat_eq starts.opcode
  rw [exec_imageLoad, execImageLoad, onUnit_of (decide_eq_true starts.fn)]
  simp only [idle, queue]
  rw [due_of (by simp [starts.accepted, opcode, starts.may])] <;> rfl

theorem execImageLoad_waited (hf : f ≤ 16) (busy : (s.fn f).busy = some q) (opcode : q.entry.opcode = 5)
    (waited : (s.part (f - 1)).loadSince ≠ none) (ready : (s.emptied (f - 1)).loadWaits (f - 1) = false) :
    exec (.imageLoad f i) s = .next ((s.emptied (f - 1)).loadNow f q i (s.part (f - 1)).loadLen) := by
  rw [exec_imageLoad, execImageLoad, onUnit_of (decide_eq_true hf)]
  simp only [busy]
  rw [due_of (by simp [opcode, isSome_of_ne_none waited, ready])]

theorem loadNow_busy (hp : p = f - 1) (hu : u = s.modPart p fun x => { x with loadCid := none, loadSince := none })
    (used : (s.part p).st ≠ .empty) :
    s.loadNow f q i len = u.finish f (doneWith q.entry.cid 5 0) := by
  subst hp hu
  exact if_pos used

section
variable (hp : p = f - 1) (hn : n = q.entry.length.toNat)
  (hu : u = s.modPart p fun x => { x with loadCid := none, loadSince := none })
include hp hn hu

theorem loadNow_outside (empty : (s.part p).st = .empty) (outside : n = 0 ∨ len < q.entry.hostOff.toNat + n) :
    s.loadNow f q i len =
      u.finish f { doneWith q.entry.cid 12 0 with info := BitVec.ofNat 64 (q.entry.hostOff.toNat + n) } := by
  subst hp hn hu
  unfold State.loadNow
  dsimp only
  rw [if_neg (not_not_intro empty), if_pos (by simpa using outside)]

theorem loadNow_refused {st info : Nat} (empty : (s.part p).st = .empty) (some_ : n ≠ 0)
    (inside : q.entry.hostOff.toNat + n ≤ len) (refused : s.imageRefused p n (present i) = some (st, info)) :
    s.loadNow f q i len = u.finish f { doneWith q.entry.cid st 0 with info := BitVec.ofNat 64 info } := by
  subst hp hn hu
  unfold State.loadNow
  dsimp only
  rw [if_neg (not_not_intro empty), if_neg (by simp [some_, inside]), refused]

theorem loadNow_installs (empty : (s.part p).st = .empty) (some_ : n ≠ 0)
    (inside : q.entry.hostOff.toNat + n ≤ len) (accepted : s.imageRefused p n (present i) = none) :
    s.loadNow f q i len = (u.modPart p fun x => { x with
      loader := (u.fn f).ring, dumpAllowed := q.entry.arg.getLsbD 0, dumpWindow := bits q.entry.arg2 5 0
      claimed := [] }).install p (present i) := by
  subst hp hn hu
  unfold State.loadNow
  dsimp only
  rw [if_neg (not_not_intro empty), if_neg (by simp [some_, inside]), accepted]
  rfl

end

theorem execImageLoadComplete_loading (hp : p < 16) (busy : (s.fn (p + 1)).busy = some q)
    (loading : (s.part p).st = .loading) : exec (.imageLoadComplete p) s =
      .next ((((s.part p).owned.foldl (fun v t => v.modTile t
        fun y => { y with st := if y.st = .idle then .loaded else y.st }) s).modPart p fun y => { y with
          st := .loaded, claimed := [] }).finish (p + 1) (doneWith q.entry.cid 0 0)) := by
  rw [exec_imageLoadComplete, execImageLoadComplete, onUnit_of (decide_eq_true hp)]
  simp only [busy, loading, beq_iff_eq, if_true]
  rfl

theorem execImageLoadComplete_late {t0 : Nat} (hp : p < 16) (busy : (s.fn (p + 1)).busy = some q)
    (waiting : (s.part p).st ≠ .loading) (since : (s.part p).loadSince = some t0) (late : t0 + 10000000 ≤ s.now) :
    exec (.imageLoadComplete p) s = .next ((s.modPart p fun y => { y with
      loadCid := none, loadSince := none }).finish (p + 1) (doneWith q.entry.cid 5 0)) := by
  rw [exec_imageLoadComplete, execImageLoadComplete, onUnit_of (decide_eq_true hp)]
  simp only [busy, since, beq_iff_eq, waiting, if_false]
  rw [due_of (decide_eq_true late)]

end

/-! ## The start and the kill of a run -/

section
variable {s u v : State} {f : Nat} {q : Fetched} {i : Image}

theorem execRunStart_unloaded (starts : Starts s 6 f q u)
    (unloaded : (u.part (f - 1)).img = none ∨ (u.part (f - 1)).st ≠ .loaded) :
    exec (.runStart f) s = .next (u.done f q 11 0 0 0) := by
  rw [exec_runStart, execRunStart, ringCmd_run starts]
  dsimp only
  obtain none_ | other := unloaded
  · simp only [none_]
  · split
    · rfl
    · rw [if_pos other]

theorem execRunStart_loaded (starts : Starts s 6 f q u) (image : (u.part (f - 1)).img = some i)
    (loaded : (u.part (f - 1)).st = .loaded) : exec (.runStart f) s = .next (match u.unfit (f - 1) i with
      | some t => (u.discard (f - 1) false).done f q 16 0 0 t
      | none => ((u.begin f q).modPart (f - 1) fun x => { x with
          st := .starting, runNo := x.runNo + 1, runHidden := false
          startCid := some q.entry.cid.toNat }).announceStart (f - 1)) := by
  rw [exec_runStart, execRunStart, ringCmd_run starts]
  simp only [image, loaded, ne_eq, not_true, if_false] <;> rfl

theorem execRunKill_run {x : Part} (starts : Starts s 7 f q u) (hx : x = u.part (f - 1))
    (hv : v = (u.begin f q).modPart (f - 1) fun x => { x with killCid := some q.entry.cid.toNat }) :
    exec (.runKill f) s = .next
      (if ¬(x.st = .starting ∨ x.st = .running ∨ x.st = .ending ∧ x.img ≠ none) then u.done f q 11 0 0 0
        else if x.st = .ending ∧ x.img ≠ none then v else v.announceStop (f - 1) 1) := by
  subst hx hv
  rw [exec_runKill, execRunKill, ringCmd_run starts]
  exact congrArg _ (ite_congr_iff (by simp [Decidable.imp_iff_not_or, and_assoc]) rfl
    (ite_congr_iff (by simp [Option.isSome_iff_ne_none]) rfl rfl))

end

/-- Settles O58: each command that starts runs its row on the state without it in the queue, and the row's checks are
those of the statement, in its order. -/
theorem hostCommands : Obligations.HostCommands := by
  unfold Obligations.HostCommands
  refine ⟨fun s u f w b n q starts hw hb hn => ?reg, fun s u f w q starts hw => ?unreg,
    fun s u f q wr e he => ?dma, fun s u f cid host d hf hc hu => ⟨execDmaComplete_ended hf hc hu,
      execDmaComplete_asks hf hc hu⟩, fun d => ⟨ended_iff d, result_fields d⟩,
    fun s u f o page st q starts ho hpage hst => ?hand, fun s u v f q qs i starts idle queue hv => ?load,
    fun s f q i hf busy opcode waited ready => execImageLoad_waited hf busy opcode waited ready,
    fun s u f p n len q i hp hn hu => ⟨loadNow_busy hp hu, loadNow_outside hp hn hu, fun empty some_ inside =>
      ⟨fun st info => loadNow_refused hp hn hu empty some_ inside, loadNow_installs hp hn hu empty some_ inside⟩⟩,
    fun s p q hp busy => ⟨execImageLoadComplete_loading hp busy, fun t0 => execImageLoadComplete_late hp busy⟩,
    fun s u f q starts => ⟨execRunStart_unloaded starts, fun i image loaded => ?start⟩,
    fun s u v f q x starts hx hv => ?kill⟩
  case reg =>
    subst hw hb hn
    rw [execWindowReg_run starts]
    refine ⟨fun bad => by rw [if_pos bad], fun small aligned => ?_⟩
    rw [if_neg (by omega)]
    refine ⟨fun empty => by rw [if_pos empty], fun long => by rw [if_neg (by omega), if_pos long],
      fun some_ short used => ?_, fun some_ short free gone => ?_⟩
    · rw [if_neg some_, if_neg (Nat.not_lt.mpr short), if_pos used]
    · rw [if_neg some_, if_neg (Nat.not_lt.mpr short), if_neg (not_or_intro (not_not_intro free) (not_not_intro gone))]
  case unreg =>
    subst hw
    rw [execWindowUnreg_run starts]
    exact ⟨fun none_ => by rw [if_pos none_], fun some_ => by rw [if_neg some_]⟩
  case dma =>
    obtain ⟨rfl, starts, rfl⟩ | ⟨rfl, starts, rfl⟩ := he
    · rw [exec_dmaH2d, execDmaH2d]
      exact ⟨fun st d info => dmaRow_refused starts rfl, fun base len => dmaRow_begun starts rfl⟩
    · rw [exec_dmaD2h, execDmaD2h]
      exact ⟨fun st d info => dmaRow_refused starts rfl, fun base len => dmaRow_begun starts rfl⟩
  case hand =>
    subst ho hpage hst
    rw [execHandover_run starts]
    refine ⟨fun high => ?_, fun low bad => ?_, fun low good => ?_⟩
    · rw [if_pos high]
    · rw [if_neg (Nat.not_le.mpr low), if_pos bad]
    · rw [if_neg (Nat.not_le.mpr low), if_neg (not_not_intro good)]
  case load =>
    rw [execImageLoad_starts starts idle queue hv]
    refine ⟨fun none_ => by rw [none_], fun base len window => ?_⟩
    rw [window]
    exact ⟨fun waits => congrArg _ (if_pos waits), fun ready => congrArg _ (if_neg (Bool.eq_false_iff.mp ready))⟩
  case start =>
    rw [execRunStart_loaded starts image loaded]
    exact ⟨fun t bad => by rw [bad], fun fit => by rw [fit]⟩
  case kill =>
    rw [execRunKill_run starts hx hv]
    refine ⟨fun going => ?_, fun ends image => ?_, fun still => ?_⟩
    · rw [if_neg (not_not_intro (going.imp_right .inl)), if_neg]
      rintro ⟨ends, -⟩
      rw [ends] at going
      simp at going
    · rw [if_neg (not_not_intro (.inr (.inr ⟨ends, image⟩))), if_pos ⟨ends, image⟩]
    · rw [if_pos]
      clear hx
      obtain still | still | still | ⟨still, none_⟩ := still
      · simp [still]
      · simp [still]
      · simp [still]
      · simp [still, none_]

end Sys2Proof.Machine
end

section
/-!
PROOFS. Partitions are made, reset and destroyed, and functions are reset.
-/
namespace Sys2Proof.Machine

/-! ## Partitions -/

section
variable {s u v : State} {q : Fetched} {p reason : Nat}

/-- The check of the rectangle of PART_CREATE. -/
def badRect (a : BitVec 32) : Prop :=
  bits a 7 4 ≠ 0 ∨ bits a 15 14 ≠ 0 ∨ bits a 31 22 ≠ 0 ∨ bits a 19 16 < bits a 11 8 ∨ 9 < bits a 19 16 ∨
    bits a 21 20 < bits a 13 12

theorem execPartCreate_bad (starts : Starts s 0x10 0 q u) (bad : badRect q.entry.arg) :
    exec .partCreate s = .next (u.done 0 q 1 3 0 0) := by
  rw [exec_partCreate, execPartCreate, ringCmd_run starts]
  dsimp only
  rw [if_pos (by simpa [badRect, or_assoc] using bad)]

theorem execPartCreate_good (starts : Starts s 0x10 0 q u) (good : ¬ badRect q.entry.arg) : exec .partCreate s = .next
    (if (u.part (bits q.entry.arg 3 0)).live then u.done 0 q 5 0 0 0
      else match (rectRegions (bits q.entry.arg 11 8) (bits q.entry.arg 13 12) (bits q.entry.arg 19 16)
          (bits q.entry.arg 21 20)).find? fun r => (u.region r).ctl.assigned with
        | some r => u.done 0 q 16 0 0 r
        | none => (u.createPart (bits q.entry.arg 3 0) (bits q.entry.arg 11 8) (bits q.entry.arg 13 12)
            (bits q.entry.arg 19 16) (bits q.entry.arg 21 20)).done 0 q 0 0 0 0) := by
  rw [exec_partCreate, execPartCreate, ringCmd_run starts]
  dsimp only
  rw [if_neg (by simpa [badRect, or_assoc] using good)] <;> rfl

theorem partCmd_run {op : Nat} (starts : Starts s op 0 q u) : partCmd op reason s = .next
    (if bits q.entry.arg 31 4 ≠ 0 then u.done 0 q 1 3 0 0
      else if (u.part (bits q.entry.arg 3 0)).live = false then u.done 0 q 1 1 0 0
      else ((u.begin 0 q).modPart (bits q.entry.arg 3 0) fun x => { x with
        resetCid := some q.entry.cid.toNat, destroying := decide (reason = 4) }).resetPart (bits q.entry.arg 3 0)
          reason) := by
  rw [partCmd, ringCmd_run starts]
  exact congrArg _ (ite_congr_iff Iff.rfl rfl (ite_congr_iff (by simp) rfl rfl))

/-- A partition's reset goes on by what the partition is doing once its ring and its load are aborted. -/
theorem resetPart_eq (hu : u = ((s.abortRing (p + 1)).abandonLoad p 10).modPart p fun x => { x with aborting := true })
    (hv : v = ((u.partRegions p).foldl (fun w r => w.dropRouters r) u).dropPorts (u.partRegions p)) :
    s.resetPart p reason = match (u.part p).st with
      | .starting => u.announceStop p reason
      | .running => u.announceStop p reason
      | .loaded => u.discard p true
      | .loading => u
      | .ending => u.dropChans p true
      | .empty => ((v.dropShares p).dropChans p true).resetOver p := by
  subst hu hv
  unfold State.resetPart
  rfl

end

/-! ## The resets of functions -/

section
variable {s u v : State} {f : Nat}

/-- What depends on whether something is held is what depends on whether nothing is. -/
theorem ite_isSome {α β : Type} (o : Option α) (x y : β) : (if o.isSome then x else y) = if o = none then y else x := by
  cases o with
  | none => rfl
  | some a => rfl

theorem execFlrVf_run (low : 1 ≤ f) (high : f ≤ 16)
    (hu : u = if (s.part (f - 1)).live then s.resetPart (f - 1) 3 else s) (hv : v = (u.resetPage f).resetRunPage (f - 1)) :
    exec (.flrVf f) s = .next (if (s.fn f).ring = none then v else v.endRing f) := by
  subst hu hv
  rw [exec_flrVf, execFlrVf, onUnit_of (by simp [low, high])]
  exact congrArg _ (ite_isSome ..)

theorem flrAll_eq
    (hu : u = (((List.range 16).filter fun p => (s.part p).live).foldl (fun w p => (w.modPart p fun y => { y with
      resetCid := none }).resetPart p 3) s).resetPage 0)
    (hv : v = if (s.fn 0).ring = none then u else u.endRing 0) :
    s.flrAll = if (s.fn 0).fabric = none then v else v.endFabric := by
  subst hv
  rw [← ite_isSome, ← ite_isSome, hu]
  rfl

theorem execPerstFall_run (hu : u = s.modMgt fun m => { m with
      perstPin := false, perstLow := true, pcieTraining := false, pcieWait := false }) :
    exec .perstFall s = .next (if s.mgt.perstLow then u else u.flrAll) := by
  subst hu
  rw [exec_perstFall, execPerstFall, onUnit_true]
  refine congrArg _ ?_
  dsimp only
  split
  next heard => rw [if_neg (by simpa using heard)]
  next low => rw [if_pos (by simpa using low)]

theorem perstHeard_eq (m : Mgt) : m.perstHeard = { m with
    pcieTraining := m.pcieTraining || !m.refLost, pcieWait := m.pcieWait || m.refLost } := by
  unfold Mgt.perstHeard
  split
  next lost => rw [lost, Bool.not_true, Bool.or_false, Bool.or_true]
  next here => rw [Bool.eq_false_iff.mpr here, Bool.not_false, Bool.or_true, Bool.or_false]

theorem execPerstRise_heard (power : s.mgt.pwrOk = true) (past : s.mgt.perstWindow = false) :
    exec .perstRise s = .next (s.modMgt fun m => { m with
      perstPin := true, perstLow := false, pcieTraining := m.pcieTraining || !m.refLost
      pcieWait := m.pcieWait || m.refLost }) := by
  rw [exec_perstRise, execPerstRise, onUnit_true]
  refine congrArg _ (modMgt_congr ?_)
  dsimp only
  rw [if_pos (by rw [power, past]; rfl), perstHeard_eq]

theorem execPerstRise_unheard (deaf : s.mgt.pwrOk = false ∨ s.mgt.perstWindow = true) :
    exec .perstRise s = .next (s.modMgt fun m => { m with perstPin := true }) := by
  rw [exec_perstRise, execPerstRise, onUnit_true]
  refine congrArg _ (modMgt_congr ?_)
  dsimp only
  rw [if_neg]
  obtain unpowered | window := deaf
  · simp [unpowered]
  · simp [window]

end

/-- Settles O59: PART_CREATE checks its rectangle and then its regions; a reset goes on by what the partition is doing, and
the resets of functions and of the pin are the resets of the partitions they reach. -/
theorem partitions : Obligations.Partitions := by
  unfold Obligations.Partitions
  refine ⟨fun s u q a p x0 y0 x1 y1 starts ha hp hx0 hy0 hx1 hy1 => ?create, fun s p x0 y0 x1 y1 rs hr => ?made,
    fun s u q op reason p i hi starts hp => ?command, fun s u v p reason hu hv => ?reset,
    fun s u v f low high hu hv => execFlrVf_run low high hu hv, fun s u f hu => ?page, fun s => rfl,
    fun s u v hu hv => flrAll_eq hu hv, fun s u hu => execPerstFall_run hu,
    fun s => ⟨execPerstRise_heard, execPerstRise_unheard⟩⟩
  case create =>
    subst ha hp hx0 hy0 hx1 hy1
    refine ⟨fun bad => execPartCreate_bad starts bad, fun r1 r2 r3 c1 c2 c3 => ?_⟩
    have good : ¬ badRect q.entry.arg := by
      unfold badRect
      omega
    rw [execPartCreate_good starts good]
    refine ⟨fun live => congrArg _ (if_pos live), fun r free used => ?_, fun free unused => ?_⟩
    · rw [if_neg (Bool.eq_false_iff.mp free), used]
    · rw [if_neg (Bool.eq_false_iff.mp free), List.find?_eq_none.mpr (by simpa using unused)]
  case made =>
    subst hr
    rfl
  case command =>
    subst hp
    have run : exec i s = partCmd op reason s := by
      simp only [List.mem_cons, Prod.mk.injEq, List.not_mem_nil, or_false] at hi
      obtain ⟨rfl, rfl, rfl⟩ | ⟨rfl, rfl, rfl⟩ := hi <;> rfl
    rw [run, partCmd_run starts]
    refine ⟨fun bad => congrArg _ (if_pos bad), fun good dead => ?_, fun good live => ?_⟩
    · rw [if_neg (not_not_intro good), if_pos dead]
    · rw [if_neg (not_not_intro good), if_neg (by rw [live]; exact nofun)]
  case reset =>
    rw [resetPart_eq hu hv]
    refine ⟨?_, fun loaded => by rw [loaded], fun loading => by rw [loading], fun ending => by rw [ending],
      fun empty => by rw [empty]⟩
    rintro (starting | running)
    · rw [starting]
    · rw [running]
  case page =>
    subst hu
    rfl

end Sys2Proof.Machine
end

section
/-!
PROOFS. The SPDM responder: identity, sessions, bindings and keys.
-/
namespace Sys2Proof.Machine

/-! ## Sessions -/

section
variable {s u : State} {n : Nat}

theorem execKeyExchange_full {key : List Byte} (hn : n < 32) (full : s.freeSession n = none) :
    exec (.keyExchange n key) s = .next (s.spdm spdmError [0x03]) := by
  rw [exec_keyExchange, execKeyExchange, onUnit_of (decide_eq_true hn)]
  simp only [full]

theorem execKeyExchange_unknown {m : Nat} {key : List Byte} (hn : n < 32) (free : s.freeSession n = some m)
    (unknown : s.mgt.keySlot key = none) : exec (.keyExchange n key) s = .next (s.spdm spdmError [0xE4]) := by
  rw [exec_keyExchange, execKeyExchange, onUnit_of (decide_eq_true hn)]
  simp only [free, unknown]

theorem execKeyExchange_opens {m i : Nat} {key : List Byte} {k : KeySlot} (hn : n < 32) (free : s.freeSession n = some m)
    (known : s.mgt.keySlot key = some (i, k)) : exec (.keyExchange n key) s = .next ((s.setSession m (some {
      slot := i, role := k.role, mask := k.mask, finished := false, lastTime := s.now, keyGen := 0 })).spdm 0xE4 key) := by
  rw [exec_keyExchange, execKeyExchange, onUnit_of (decide_eq_true hn)]
  simp only [free, known]

theorem freeSession_chosen (free : s.session n = none) : s.freeSession n = some n :=
  List.find?_cons_of_pos (Option.isNone_iff_eq_none.mpr free)

theorem freeSession_first (used : s.session n ≠ none) :
    s.freeSession n = (List.range 32).find? fun m => (s.session m).isNone :=
  List.find?_cons_of_neg fun free => used (Option.isNone_iff_eq_none.mp free)

theorem execSessionTimeout_run {x : Session} (hn : n < 32) (here : s.session n = some x)
    (past : x.lastTime + 20000000 ≤ s.now) : exec (.sessionTimeout n) s = .next (s.endSession n) := by
  rw [exec_sessionTimeout, execSessionTimeout, onUnit_of (decide_eq_true hn)]
  simp only [here]
  rw [due_of (decide_eq_true past)]

theorem endSession_eq {v : State}
    (hu : u = (List.range 17).foldl (fun w f => if (w.fn f).ring = some n then w.endRing f else w) (s.setSession n none))
    (hv : v = if (u.fn 0).fabric = some n then u.endFabric else u) :
    s.endSession n = (List.range 16).foldl (fun w p => if (w.part p).loader = some n
      then (w.stopDump p 2).modPart p fun x => { x with loader := none } else w) v := by
  unfold State.endSession forAll
  dsimp only
  rw [← hu, ← hv]

/-- An application message in a session whose handshake is not complete (R369). -/
theorem messageRow_unfinished {x : Session} {ok : Bool} (hn : n < 32) (here : s.session n = some x)
    (opening : x.finished = false) (ho : ok = true) (g : Session → State → Nat × State) :
    messageRow ok n s g = .next (s.reply 4) := by
  unfold messageRow
  rw [onUnit_of (by rw [ho, decide_eq_true hn]; rfl)]
  simp only [here, opening, Bool.false_eq_true, if_false]

/-- An application message outside a finished session (R369). -/
theorem messageRow_outside {ok : Bool} (hn : n < 32)
    (outside : s.session n = none ∨ ∃ x, s.session n = some x ∧ x.finished = false) (ho : ok = true)
    (g : Session → State → Nat × State) : messageRow ok n s g = .next (s.reply 4) := by
  obtain none_ | ⟨x, here, opening⟩ := outside
  · exact messageRow_none hn none_ ho g
  · exact messageRow_unfinished hn here opening ho g

end

/-! ## Bindings -/

section
variable {s u : State} {n f : Nat} {x : Session} {b : Bool} {held : Option Nat}

/-- The status of BIND and the state it leaves. -/
def State.bound (u : State) (x : Session) (n f : Nat) (b : Bool) (held : Option Nat) : Nat × State :=
  if 16 < f then (1, u)
  else if x.mayBind f b = false then (8, u)
  else if held ≠ none ∧ held ≠ some n then (5, u)
  else (0, u.modFn f fun y => if b then { y with fabric := some n } else { y with ring := some n })

theorem execBind_run (inside : InSession s n x) (hu : u = s.heard n) (hf : f < 32)
    (hh : held = if b then (u.fn f).fabric else (u.fn f).ring) :
    exec (.bind n f b) s = .next ((u.bound x n f b held).2.reply (u.bound x n f b held).1) := by
  subst hu hh
  rw [exec_bind, execBind, messageRow_run inside (decide_eq_true hf)]
  have same : (if 16 < f then (1, s.heard n)
      else if (!x.mayBind f b) = true then (8, s.heard n)
      else if ((if b then ((s.heard n).fn f).fabric else ((s.heard n).fn f).ring).isSome &&
        decide ((if b then ((s.heard n).fn f).fabric else ((s.heard n).fn f).ring) ≠ some n)) = true then (5, s.heard n)
      else (0, (s.heard n).modFn f fun y => if b then { y with fabric := some n } else { y with ring := some n })) =
      (s.heard n).bound x n f b (if b then ((s.heard n).fn f).fabric else ((s.heard n).fn f).ring) :=
    ite_congr_iff Iff.rfl rfl (ite_congr_iff (by simp) rfl (ite_congr_iff (by simp [Option.isSome_iff_ne_none]) rfl rfl))
  rw [same]

/-- The state that UNBIND leaves. -/
def State.unbound (u : State) (n f : Nat) (b : Bool) : State :=
  if b then if f = 0 ∧ (u.fn 0).fabric = some n then u.endFabric else u
  else if (u.fn f).ring = some n then u.endRing f else u

theorem execUnbind_outside (inside : InSession s n x) (hu : u = s.heard n) (hf : f < 32) (high : 16 < f) :
    exec (.unbind n f b) s = .next (u.reply 1) := by
  subst hu
  rw [exec_unbind, execUnbind, messageRow_run inside (decide_eq_true hf)]
  rw [if_pos high]

theorem execUnbind_run (inside : InSession s n x) (hu : u = s.heard n) (low : f ≤ 16) :
    exec (.unbind n f b) s = .next ((u.unbound n f b).reply 0) := by
  subst hu
  rw [exec_unbind, execUnbind, messageRow_run inside (decide_eq_true (by omega))]
  rw [if_neg (Nat.not_lt.mpr low)]
  cases b with
  | false => rfl
  | true =>
    have same : (if (decide (f = 0) && decide (((s.heard n).fn 0).fabric = some n)) = true then (s.heard n).endFabric
        else s.heard n) = if f = 0 ∧ ((s.heard n).fn 0).fabric = some n then (s.heard n).endFabric else s.heard n :=
      ite_congr_iff (by simp) rfl rfl
    exact congrArg (fun v : State => Host.Outcome.next (v.reply 0)) same

end

/-! ## Keys -/

section
variable {s u v : State} {n slot : Nat} {x : Session} {key : List Byte} {role : Role} {mask : BitVec 16}

theorem adminRow_run (inside : InSession s n x) (hu : u = s.heard n) (admin : x.role = .admin) (g : State → Nat × State) :
    adminRow n s g = .next ((g u).2.reply (g u).1) := by
  subst hu
  rw [adminRow, messageRow_run inside rfl]
  simp only [admin, beq_self_eq_true, if_true]

theorem adminRow_denied (inside : InSession s n x) (hu : u = s.heard n) (other : x.role ≠ .admin)
    (g : State → Nat × State) : adminRow n s g = .next (u.reply 8) := by
  subst hu
  rw [adminRow, messageRow_run inside rfl]
  simp only [beq_iff_eq, other, if_false]

/-- The status of KEY_ENROLL and the state it leaves. -/
def State.enrolled (u : State) (slot : Nat) (key : List Byte) (role : Role) (mask : BitVec 16) : Nat × State :=
  if 16 ≤ slot ∨ key = [] then (1, u)
  else if role ≠ .admin ∧ u.mgt.isAdmin slot = true ∧ u.mgt.otherAdmin slot = false then (24, u)
  else (0, u.modMgt fun m => { m with keys := m.keys.put none slot (some { key := key, role := role, mask := mask }) })

theorem execKeyEnroll_run (inside : InSession s n x) (hu : u = s.heard n) (admin : x.role = .admin) :
    exec (.keyEnroll n slot key role mask) s =
      .next ((u.enrolled slot key role mask).2.reply (u.enrolled slot key role mask).1) := by
  rw [exec_keyEnroll, execKeyEnroll, adminRow_run inside hu admin]
  have same : (if (decide (16 ≤ slot) || key.isEmpty) = true then (1, u)
      else if (decide (role ≠ .admin) && u.mgt.isAdmin slot && !u.mgt.otherAdmin slot) = true then (24, u)
      else (0, u.modMgt fun m => { m with
        keys := m.keys.put none slot (some { key := key, role := role, mask := mask }) })) =
      u.enrolled slot key role mask := ite_congr_iff (by simp) rfl (ite_congr_iff (by simp [and_assoc]) rfl rfl)
  rw [same]

/-- The status of KEY_REMOVE and the state it leaves. -/
def State.keyRemoved (u : State) (slot : Nat) : Nat × State :=
  if 16 ≤ slot then (1, u)
  else if u.mgt.isAdmin slot = true ∧ u.mgt.otherAdmin slot = false then (24, u)
  else (0, (List.range 32).foldl (fun w m => match w.session m with
    | some y => if y.slot = slot then w.endSession m else w
    | none => w) (u.modMgt fun m => { m with keys := m.keys.drop slot }))

theorem keyRemoved_ends (low : ¬ 16 ≤ slot) (keeps : u.mgt.isAdmin slot = false ∨ u.mgt.otherAdmin slot = true) :
    u.keyRemoved slot = (0, (List.range 32).foldl (fun w m => match w.session m with
      | some y => if y.slot = slot then w.endSession m else w
      | none => w) (u.modMgt fun m => { m with keys := m.keys.drop slot })) := by
  have other : ¬(u.mgt.isAdmin slot = true ∧ u.mgt.otherAdmin slot = false) := by
    rintro ⟨last, single⟩
    simp [last, single] at keeps
  exact (if_neg low).trans (if_neg other)

theorem execKeyRemove_run (inside : InSession s n x) (hu : u = s.heard n) (admin : x.role = .admin) :
    exec (.keyRemove n slot) s = .next ((u.keyRemoved slot).2.reply (u.keyRemoved slot).1) := by
  rw [exec_keyRemove, execKeyRemove, adminRow_run inside hu admin]
  have same : (if 16 ≤ slot then (1, u)
      else if (u.mgt.isAdmin slot && !u.mgt.otherAdmin slot) = true then (24, u)
      else (0, (List.range 32).foldl (fun w m => match w.session m with
        | some y => if y.slot = slot then w.endSession m else w
        | none => w) (u.modMgt fun m => { m with keys := m.keys.drop slot }))) = u.keyRemoved slot :=
    ite_congr_iff Iff.rfl rfl (ite_congr_iff (by simp) rfl rfl)
  rw [← same] <;> rfl

theorem execKeyRemove_ends (inside : InSession s n x) (hu : u = s.heard n) (admin : x.role = .admin)
    (low : slot < 16) (keeps : u.mgt.isAdmin slot = false ∨ u.mgt.otherAdmin slot = true) :
    exec (.keyRemove n slot) s = .next (((List.range 32).foldl (fun w m => match w.session m with
      | some y => if y.slot = slot then w.endSession m else w
      | none => w) (u.modMgt fun m => { m with keys := m.keys.drop slot })).reply 0) := by
  rw [execKeyRemove_run inside hu admin, keyRemoved_ends (Nat.not_le.mpr low) keeps]

theorem execImageKeyEnroll_run (inside : InSession s n x) (hu : u = s.heard n) (admin : x.role = .admin) :
    exec (.imageKeyEnroll n slot key) s = .next (if 8 ≤ slot ∨ key = [] then u.reply 1
      else (u.modMgt fun m => { m with imageKeys := m.imageKeys.put [] slot key }).reply 0) := by
  rw [exec_imageKeyEnroll, execImageKeyEnroll, adminRow_run inside hu admin]
  by_cases bad : 8 ≤ slot ∨ key = []
  · rw [if_pos bad, if_pos (by simpa using bad)]
  · rw [if_neg bad, if_neg (by simpa using bad)]

theorem execImageKeyRemove_run (inside : InSession s n x) (hu : u = s.heard n) (admin : x.role = .admin) :
    exec (.imageKeyRemove n slot) s = .next (if 8 ≤ slot then u.reply 1
      else (u.modMgt fun m => { m with imageKeys := m.imageKeys.drop slot }).reply 0) := by
  rw [exec_imageKeyRemove, execImageKeyRemove, adminRow_run inside hu admin]
  split <;> rfl

end

/-- Settles O60: each message runs its row in the session it names, and the row's checks are those of the statement, in its
order. -/
theorem spdmSessions : Obligations.SpdmSessions := by
  unfold Obligations.SpdmSessions
  refine ⟨fun s b => ⟨rfl, rfl⟩, fun s slot low => ?identity, fun s n key hn => ⟨execKeyExchange_full hn, fun m free =>
      ⟨execKeyExchange_unknown hn free, fun i k => execKeyExchange_opens hn free⟩⟩,
    fun s n => ⟨freeSession_chosen, freeSession_first⟩, fun s u n x hn here hu => ?session,
    fun s u n x inside hu => ?finished, fun s n => rfl, fun s u v n hu hv => endSession_eq hu hv,
    fun s u n f x b held inside hu hf hh => ?bindings, fun s u v n slot key role mask x inside hu => ?keys,
    fun s n f slot b key role mask hn hf outside => ?outside⟩
  case identity =>
    rw [exec_certificateRetrieval, execCertificateRetrieval, exec_signedMeasurements, execSignedMeasurements,
      onUnit_of (decide_eq_true low), onUnit_of (decide_eq_true low)]
    exact ⟨rfl, rfl⟩
  case session =>
    subst hu
    refine ⟨fun opening => ?_, ?_, execSessionTimeout_run hn here⟩
    · rw [exec_finish, execFinish, sessionRow_run hn here (by rw [opening]; rfl)]
    · rw [exec_endSession, execEndSession, sessionRow_run hn here rfl]
  case finished =>
    subst hu
    constructor
    · rw [exec_heartbeat, execHeartbeat, sessionRow_run inside.number inside.is_open inside.finished]
    · rw [exec_keyUpdate, execKeyUpdate, sessionRow_run inside.number inside.is_open inside.finished]
  case bindings =>
    have binds := execBind_run (b := b) inside hu hf hh
    refine ⟨fun high => ⟨?_, execUnbind_outside inside hu hf high⟩, fun low denied => ?_, fun low may some_ other => ?_,
      fun low may free => ?_, fun low => execUnbind_run inside hu low, fun low => execUnbind_run inside hu low⟩
    · rw [binds, State.bound, if_pos high]
    · rw [binds, State.bound, if_neg (Nat.not_lt.mpr low), if_pos denied]
    · rw [binds, State.bound, if_neg (Nat.not_lt.mpr low), if_neg (by rw [may]; exact nofun), if_pos ⟨some_, other⟩]
    · rw [binds, State.bound, if_neg (Nat.not_lt.mpr low), if_neg (by rw [may]; exact nofun), if_neg fun ⟨some_, other⟩ => free.elim some_ other]
  case keys =>
    refine ⟨fun other => ⟨?_, ?_, ?_, ?_⟩, fun admin => ?_⟩
    · rw [exec_keyEnroll, execKeyEnroll, adminRow_denied inside hu other]
    · rw [exec_keyRemove, execKeyRemove, adminRow_denied inside hu other]
    · rw [exec_imageKeyEnroll, execImageKeyEnroll, adminRow_denied inside hu other]
    · rw [exec_imageKeyRemove, execImageKeyRemove, adminRow_denied inside hu other]
    rw [execKeyEnroll_run inside hu admin, execImageKeyEnroll_run inside hu admin, execImageKeyRemove_run inside hu admin]
    refine ⟨fun bad => ?_, fun low some_ other last single => ?_, fun low some_ keeps => ?_, fun high => ?_,
      fun low last single => ?_, fun low keeps hv => ?_, fun bad => ?_, fun low some_ => ?_, fun high => ?_, fun low => ?_⟩
    · rw [State.enrolled, if_pos bad]
    · rw [State.enrolled, if_neg (not_or_intro (Nat.not_le.mpr low) some_), if_pos ⟨other, last, single⟩]
    · rw [State.enrolled, if_neg (not_or_intro (Nat.not_le.mpr low) some_), if_neg]
      rintro ⟨other, last, single⟩
      simp [other, last, single] at keeps
    · rw [execKeyRemove_run inside hu admin, State.keyRemoved, if_pos high]
    · rw [execKeyRemove_run inside hu admin, State.keyRemoved, if_neg (Nat.not_le.mpr low), if_pos ⟨last, single⟩]
    · subst hv
      exact (execKeyRemove_ends inside hu admin low keeps).trans
        (congrArg (fun w : State => Host.Outcome.next (w.reply 0)) (foldl_congr_mem fun w m _ => rfl))
    · rw [if_pos bad]
    · rw [if_neg (not_or_intro (Nat.not_le.mpr low) some_)]
    · rw [if_pos high]
    · rw [if_neg (Nat.not_le.mpr low)]
  case outside =>
    refine ⟨?_, ?_, ?_, ?_, ?_, ?_⟩
    · rw [exec_bind, execBind, messageRow_outside hn outside (decide_eq_true hf)]
    · rw [exec_unbind, execUnbind, messageRow_outside hn outside (decide_eq_true hf)]
    · rw [exec_keyEnroll, execKeyEnroll, adminRow, messageRow_outside hn outside rfl]
    · rw [exec_keyRemove, execKeyRemove, adminRow, messageRow_outside hn outside rfl]
    · rw [exec_imageKeyEnroll, execImageKeyEnroll, adminRow, messageRow_outside hn outside rfl]
    · rw [exec_imageKeyRemove, execImageKeyRemove, adminRow, messageRow_outside hn outside rfl]

end Sys2Proof.Machine
end
